-- ==== Sys2Proof/Word.lean ====
section
/-! DEFINITION. The word types of the serial link and the plainest saturating arithmetic.

The NK-612 is not a word machine: its counts are numbers, kept as Nat, its codes and deviations integers, kept as Int.
Only what the manual treats as bits is a bit vector: bytes of the link, the check code register, the event mask. -/

namespace Sys2Proof

/-- One byte of the serial line (R165). -/
abbrev Byte := BitVec 8

/-- A counter that saturates stops at its largest value and does not wrap (00_scope.md, Conventions). -/
def satInc (top n : Nat) : Nat := if n < top then n + 1 else n

end Sys2Proof
end

