-- ==== Sys2Proof/Config.lean ====
section
/-! DEFINITION. The free values: constants without a body, where the manual leaves a choice open.
No proof can evaluate them, so a claim is true whatever they are. -/

namespace Sys2Proof

/-- The outcome of the n-th choice the manual leaves open: which of two messages that arrive together the idle
transmitter takes first (R179), whether load or check handling is taken first (R111), and in which order events that
come due together are taken. Applied to the plain counter State.choices. Log entries 5, 7 and 18. -/
opaque Config.freeChoice : Nat → Nat

/-- Which bits of the i-th stored calibration value still hold the old table when power is lost during the n-th
open choice (R159: "The stored entries may be old, new or partly each"). Log entry 8. -/
opaque Config.unwrittenBits : Nat → Nat → BitVec 64

end Sys2Proof
end

