-- ==== Sys2Proof/Syntax.lean ====
section
/-! DEFINITION. The commands: one constructor of Instr per row of spec/opcode_table.json.

A request carries its tag and its payload fields as raw numbers, in the order of their ordinals (R177), so that every
field that the owner refuses with BAD_FIELD can be written. -/

namespace Sys2Proof

/-- The two measurement channels. -/
inductive Chan where
  | A | B
  deriving DecidableEq, Repr

/-- One byte as the serial receiver takes it: `whole` is false for a byte received with its stop bit low (R165). -/
structure LinkByte where
  value : Byte
  whole : Bool
  deriving DecidableEq, Repr

/-- What arrives on a converter link: a frame sync, or one bit period (R53). -/
inductive LinkSymbol where
  | sync
  | bit (b : Bool)
  deriving DecidableEq, Repr

/-- The fields of TRACK.SET (R3). The station count n is the length of the list. -/
structure TrackSetReq where
  p : Nat
  stations : List Nat
  decidePos : Nat
  checkPos : Nat
  deriving DecidableEq, Repr

/-- Ordinals 3 to 7 of CHUTE.SET (R138); `alternate` is 0 for none. -/
structure ChuteFields where
  ejectPos : Nat
  capacity : Nat
  near : Nat
  alternate : Nat
  pulse : Nat
  deriving DecidableEq, Repr

/-- The fields of CHAN.SET (R51). -/
structure ChanSetReq where
  chan : Nat
  framePeriod : Nat
  settleFrames : Nat
  relaySettle : Nat
  strict : Nat
  driftLimit : Nat
  interval : Nat
  deriving DecidableEq, Repr

/-- One grade of a grade plan: sample count N and guard G (R104). -/
structure GradeSpec where
  samples : Nat
  guard : Nat
  deriving DecidableEq, Repr

/-- One class of a class table: inclusive limits in ppm and target chute (R104). -/
structure ClassSpec where
  lower : Int
  upper : Int
  chute : Nat
  deriving DecidableEq, Repr

/-- The fields of LOT.LOAD (R105, R106), with room for 24 label characters, 4 grades and 16 classes. -/
structure LotLoadReq where
  slot : Nat
  lotNumber : Nat
  labelLen : Nat
  labelChars : List Nat
  range : Nat
  rnom : Nat
  tcr : Int
  emfLimit : Nat
  retryLimit : Nat
  rejectChute : Nat
  retestChute : Nat
  mode : Nat
  fallback : Nat
  referral : Nat
  gradeCount : Nat
  grades : List GradeSpec
  classCount : Nat
  classes : List ClassSpec
  deriving DecidableEq, Repr

/-- Rref in mΩ and C in units of 10^−9 of one range (R155). -/
structure CalPair where
  rref : Nat
  c : Nat
  deriving DecidableEq, Repr

/-- A request as its owner sees it: the type with the payload fields the Link Port has read (R171, R177). CHUTE.SET is
one request with an action byte; the opcode table has a row for each of its two actions. -/
inductive Request where
  | ident
  | trackSet (req : TrackSetReq)
  | trackRead
  | chuteSet (chute action : Nat) (fields : ChuteFields)
  | chanSet (req : ChanSetReq)
  | chanRead (chan : Nat)
  | chanReset (chan : Nat)
  | chanRestore (chan : Nat)
  | lotLoad (req : LotLoadReq)
  | lotArm (slot : Nat)
  | lotFree (slot : Nat)
  | lotRead (slot : Nat)
  | lineStart (budgetMs motionLimitMs stallLimitMs : Nat)
  | lineStop
  | lineDrain
  | lineResume
  | lineClear
  | lineReset
  | pocketRead (pocket : Nat)
  | pocketPurge (pocket : Nat)
  | verdict (serial choice : Nat)
  | boxExchanged (chute : Nat)
  | tempSet (centi : Int)
  | calRead
  | calWrite (pairs : List CalPair)
  | countRead (group index clear : Nat)
  | eventMask (mask : Nat)
  deriving DecidableEq, Repr

/-- A frame of the serial line: type, tag and payload (R166). Lead byte, length and check code follow from these. -/
structure Frame where
  typ : Byte
  tag : Byte
  payload : List Byte
  deriving DecidableEq, Repr

/-- The commands of the NK-612. -/
inductive Instr where
  /-- POWER_ON_RESET: power-on or RESETn, with the levels of MOTION and the speed straps. -/
  | powerOnReset (motion baud1 baud0 : Bool)
  /-- INDEX_START: MOTION rises, with LOADSENSE and CHECKSENSE as they stand then. -/
  | indexStart (loadSense checkSense : Bool)
  /-- SETTLE: MOTION falls. -/
  | settle
  /-- FRAME_TAKEN: what arrives on a channel's converter link, as its receiver takes frames from it. -/
  | frameTaken (ch : Chan) (symbols : List LinkSymbol)
  | watchdogExpiry (ch : Chan)
  | relaySettleExpiry (ch : Chan)
  | dwellBudgetExpiry
  | motionTimerExpiry
  | stallTimerExpiry
  /-- JET_COMPLETION: the pulse of one chute's jet runs out. -/
  | jetCompletion (chute : Nat)
  | stalenessExpiry
  /-- LINK_FRAME_RECEIVED: bytes arrive at the serial receiver. -/
  | linkFrameReceived (bytes : List LinkByte)
  | gapExpiry
  | huntingPause
  /-- REQUEST_TAKEN: the Link Port takes the oldest frame, with CALEN as it stands then. -/
  | requestTaken (calen : Bool)
  | transmitEnd
  | ident (tag : Byte)
  | trackSet (tag : Byte) (req : TrackSetReq)
  | trackRead (tag : Byte)
  | chuteConfigure (tag : Byte) (chute : Nat) (fields : ChuteFields)
  | chuteRemove (tag : Byte) (chute : Nat)
  | chanSet (tag : Byte) (req : ChanSetReq)
  | chanRead (tag : Byte) (chan : Nat)
  | chanReset (tag : Byte) (chan : Nat)
  | chanRestore (tag : Byte) (chan : Nat)
  | lotLoad (tag : Byte) (req : LotLoadReq)
  | lotArm (tag : Byte) (slot : Nat)
  | lotFree (tag : Byte) (slot : Nat)
  | lotRead (tag : Byte) (slot : Nat)
  | lineStart (tag : Byte) (budgetMs motionLimitMs stallLimitMs : Nat)
  | lineStop (tag : Byte)
  | lineDrain (tag : Byte)
  | lineResume (tag : Byte)
  | lineClear (tag : Byte)
  | lineReset (tag : Byte)
  | pocketRead (tag : Byte) (pocket : Nat)
  /-- POCKET_PURGE: a pocket number, or FFH (255) for ALL. -/
  | pocketPurge (tag : Byte) (pocket : Nat)
  /-- VERDICT: a serial and a choice: a chute 1..20, 80H (128) REJECT or 81H (129) RETEST. -/
  | verdict (tag : Byte) (serial choice : Nat)
  | boxExchanged (tag : Byte) (chute : Nat)
  | tempSet (tag : Byte) (centi : Int)
  | calRead (tag : Byte)
  /-- CAL_WRITE: six pairs, with CALEN as it stands when the request is taken. -/
  | calWrite (tag : Byte) (pairs : List CalPair) (calen : Bool)
  | calWriteCompletion
  | countRead (tag : Byte) (group index clear : Nat)
  | eventMask (tag : Byte) (mask : Nat)
  deriving DecidableEq, Repr

end Sys2Proof
end

