-- ==== Sys2Proof/Machine/State.lean ====
section
/-! DEFINITION. The state of the NK-612 as plain data, one structure per block, and the state right after reset.

Time is held in microseconds: a timer is `none` while stopped and holds its time left while running.
Every field names the rule of spec/ that gives it; INVENTORY.md lists them with their reset values. -/

namespace Sys2Proof.Machine

/-- No command of the NK-612 stops the part: its own faults (R45) are next states. Safe: nothing raises one. -/
inductive Fault where
  deriving DecidableEq, Repr

/-- The model's refusals. -/
inductive Refusal where
  /-- A command whose meaning is not written yet, named as the opcode table names it. Raised by no arm of exec. Safe. -/
  | notModelled (mnemonic : String)
  deriving DecidableEq, Repr

/-! ### Pins -/

/-- The input lines, as last driven or sampled (00_scope.md, machine lines). -/
structure Pins where
  motion : Bool
  loadSense : Bool
  checkSense : Bool
  calen : Bool
  baud1 : Bool
  baud0 : Bool
  deriving DecidableEq, Repr

/-! ### Lot slots named by pockets -/

/-- The two lot slots, numbered 0 and 1 (R103). -/
inductive SlotId where
  | s0 | s1
  deriving DecidableEq, Repr

/-! ### Pocket records (R9 to R12) -/

/-- The states of a pocket record (R9, R10). -/
inductive PocketState where
  | empty | loaded | measuring | referred | decided | held | ejected
  deriving DecidableEq, Repr

/-- The outcomes of a job (R11). -/
inductive JobOutcome where
  | accepted | unstable | contactLost | sourceFault | linkError | stall | cut
  deriving DecidableEq, Repr

/-- The marks of a result (R11, R100). -/
structure Marks where
  overRange : Bool
  untrimmed : Bool
  tempNotCurrent : Bool
  deriving DecidableEq, Repr

/-- One attempt entry (R11): deviation and marks are present for ACCEPTED and UNSTABLE. -/
structure Attempt where
  station : Nat
  chan : Chan
  grade : Nat
  outcome : JobOutcome
  deviation : Option Int
  marks : Option Marks
  deriving DecidableEq, Repr

/-- Where a decision comes from (R12). -/
inductive Source where
  | early | final | fallback | verdict | referDefault | unmeasured | unfinished
  deriving DecidableEq, Repr

/-- A decision (R12): `cls` is none for NO CLASS. -/
structure Decision where
  cls : Option Nat
  source : Source
  grade : Option Nat
  deriving DecidableEq, Repr

/-- A pocket record (R9). `retries` is none for unlimited. -/
structure Pocket where
  state : PocketState
  serial : Option Nat
  slot : Option SlotId
  lap : Nat
  nextGrade : Nat
  retries : Option Nat
  exhausted : Bool
  attempts : List Attempt
  decision : Option Decision
  target : Option Nat
  chute : Option Nat
  overflow : Bool
  misses : Nat
  jetFired : Bool
  deriving DecidableEq, Repr

/-- The EMPTY values (R9). -/
def Pocket.emptied : Pocket :=
  { state := .empty, serial := none, slot := none, lap := 1, nextGrade := 1, retries := none, exhausted := false,
    attempts := [], decision := none, target := none, chute := none, overflow := false, misses := 0, jetFired := false }

/-! ### Track Unit -/

/-- Geometry, index count, turret phase, pocket table, next serial, load-permit memory (R1, R7, R9, R14, R16). -/
structure Track where
  p : Nat
  stations : List Nat
  decidePos : Nat
  checkPos : Nat
  k : Nat
  phi : Nat
  pockets : List Pocket
  nextSerial : Nat
  loadPermit : Bool
  deriving DecidableEq, Repr

/-- The track at power-on (R25). -/
def Track.powerOn : Track :=
  { p := 0, stations := [], decidePos := 0, checkPos := 0, k := 0, phi := 0, pockets := [], nextSerial := 1,
    loadPermit := false }

/-! ### Event kinds and their details -/

/-- The 14 event kinds, in order of priority (R184). -/
inductive EventKind where
  | motionFault | jam | foreignPart | noChannel | chuteBlocked | channelSuspect | channelStall | partLost
  | unpermittedIndex | chuteFull | chuteNear | lotChange | turretIdle | tempStale
  deriving DecidableEq, Repr

/-- The four faults (section 2.6 of 02_line_control_and_the_index_handshake.md). -/
inductive FaultKind where
  | motionFault | jam | foreignPart | noChannel
  deriving DecidableEq, Repr

/-- What an event or a fault names. -/
inductive Detail where
  | none
  | pocket (q : Nat)
  | chute (c : Nat)
  | channel (ch : Chan)
  deriving DecidableEq, Repr

/-! ### Line Controller -/

/-- The line states (R27). -/
inductive LineState where
  | idle | run | drain | stopping | stopped | faulted
  deriving DecidableEq, Repr

/-- The dwell phases (R27). -/
inductive Phase where
  | moving | working | waiting
  deriving DecidableEq, Repr

/-- Line state, phase, outputs, timers, timing settings and fault record (R27, R29, R35 to R38, R45). -/
structure LineCtl where
  state : LineState
  phase : Phase
  ready : Bool
  loadOk : Bool
  fault : Bool
  budget : Option Nat
  motionTimer : Option Nat
  stallTimer : Option Nat
  budgetMs : Nat
  motionLimitMs : Nat
  stallLimitMs : Nat
  firstFault : Option (FaultKind × Detail)
  laterFaults : List FaultKind
  deriving DecidableEq, Repr

/-- The line at power-on (R27, R29). -/
def LineCtl.powerOn (motion : Bool) : LineCtl :=
  { state := .idle, phase := if motion then .moving else .waiting, ready := false, loadOk := false, fault := false,
    budget := none, motionTimer := none, stallTimer := none, budgetMs := 20, motionLimitMs := 250, stallLimitMs := 0,
    firstFault := none, laterFaults := [] }

/-- The LINE counter group (R187). -/
structure LineCounters where
  indexStarts : Nat
  unpermitted : Nat
  turretIdles : Nat
  loads : Nat
  loadMisses : Nat
  sorted : Nat
  lost : Nat
  purged : Nat
  droppedPart : Nat
  droppedRefer : Nat
  droppedLotEnd : Nat
  jetCuts : Nat
  deriving DecidableEq, Repr

def LineCounters.zero : LineCounters := ⟨0, 0, 0, 0, 0, 0, 0, 0, 0, 0, 0, 0⟩

/-! ### Measurement Channels -/

inductive Service where
  | inService | stalled | suspect
  deriving DecidableEq, Repr

inductive JobState where
  | idle | connecting | settlePos | samplePos | settleNeg | sampleNeg
  deriving DecidableEq, Repr

/-- What a channel's relays join to it (R50, R62). -/
inductive Relay where
  | open
  | station (i : Nat)
  | check
  deriving DecidableEq, Repr

inductive Polarity where
  | positive | negative
  deriving DecidableEq, Repr

/-- The kind of a job with the fields only a STATION job has (R50). -/
inductive JobKind where
  | station (station pocket grade : Nat)
  | check
  deriving DecidableEq, Repr

/-- The current job record (R50). -/
structure Job where
  kind : JobKind
  n : Nat
  range : Nat
  phaseCount : Nat
  sdp : Int
  srp : Int
  sdn : Int
  srn : Int
  dutClipped : Bool
  refClipped : Bool
  errRun : Nat
  deriving DecidableEq, Repr

/-- The receiver of a converter link (R50, R53): `counting strict bits` holds the bits since the sync, oldest first,
and the strict-frame-length setting in force at that sync (R52). -/
inductive Receiver where
  | waiting
  | counting (strict : Bool) (bits : List Bool)
  deriving DecidableEq, Repr

/-- The CHAN counter group of one channel (R187). -/
structure ChanCounters where
  accepted : Nat
  unstable : Nat
  contactLost : Nat
  sourceFault : Nat
  linkError : Nat
  stall : Nat
  cut : Nat
  noTime : Nat
  short : Nat
  long : Nat
  polarity : Nat
  checks : Nat
  trims : Nat
  deriving DecidableEq, Repr

def ChanCounters.zero : ChanCounters := ⟨0, 0, 0, 0, 0, 0, 0, 0, 0, 0, 0, 0, 0⟩

/-- One measurement channel (R50). `relaySettle` is in tenths of a millisecond, `framePeriod` in microseconds. -/
structure Channel where
  service : Service
  jobState : JobState
  job : Option Job
  relay : Relay
  pol : Polarity
  range : Nat
  goodRun : Nat
  watchdog : Option Nat
  relayTimer : Option Nat
  srcRun : Nat
  receiver : Receiver
  framePeriod : Nat
  settleFrames : Nat
  relaySettle : Nat
  strict : Bool
  cnt : ChanCounters
  deriving DecidableEq, Repr

/-- A channel at power-on (R50). -/
def Channel.powerOn : Channel :=
  { service := .stalled, jobState := .idle, job := none, relay := .open, pol := .positive, range := 1, goodRun := 0,
    watchdog := none, relayTimer := none, srcRun := 0, receiver := .waiting, framePeriod := 100, settleFrames := 4,
    relaySettle := 20, strict := false, cnt := .zero }

/-- The settings both channels share (R50, R51): drift limit in ppm, check interval K in index starts. -/
structure Shared where
  driftLimit : Nat
  interval : Nat
  deriving DecidableEq, Repr

/-! ### Station Scheduler -/

/-- A request of the dwell's request set (R74). -/
inductive SchedReq where
  | station (station pocket : Nat) (slot : SlotId) (grade n range : Nat)
  | check (ch : Chan) (range : Nat)
  deriving DecidableEq, Repr

/-- A channel's grant record when it holds one (R74). -/
inductive Grant where
  | station (station pocket grade range : Nat)
  | check (range : Nat)
  deriving DecidableEq, Repr

structure Sched where
  requests : List SchedReq
  grantA : Option Grant
  grantB : Option Grant
  deriving DecidableEq, Repr

/-! ### Lot Store -/

inductive SlotState where
  | free | ready | pending | active | draining
  deriving DecidableEq, Repr

inductive DecisionMode where
  | preserve | downgrade
  deriving DecidableEq, Repr

inductive Fallback where
  | retest | classifyLast
  deriving DecidableEq, Repr

/-- A lot definition (R104). Label characters are byte values. -/
structure LotDef where
  lotNumber : Nat
  label : List Nat
  range : Nat
  rnom : Nat
  tcr : Int
  emfLimit : Nat
  retryLimit : Nat
  rejectChute : Nat
  retestChute : Nat
  mode : DecisionMode
  fallback : Fallback
  referral : Bool
  grades : List GradeSpec
  classes : List ClassSpec
  deriving DecidableEq, Repr

/-- The LOT counter group of one slot (R135, R187): `perClass` has 16 counts, `early` four. -/
structure LotCounters where
  perClass : List Nat
  noClass : Nat
  unmeasured : Nat
  unfinished : Nat
  fallback : Nat
  refMade : Nat
  refAnswered : Nat
  refLate : Nat
  refDefaulted : Nat
  early : List Nat
  overflow : Nat
  deriving DecidableEq, Repr

def LotCounters.zero : LotCounters := ⟨List.replicate 16 0, 0, 0, 0, 0, 0, 0, 0, 0, List.replicate 4 0, 0⟩

/-- One lot slot (R103). -/
structure LotSlot where
  state : SlotState
  definition : Option LotDef
  resident : Nat
  activation : Option Nat
  cnt : LotCounters
  deriving DecidableEq, Repr

/-- A FREE slot: power-on, LINE.RESET, retirement (R103, R113, R117). -/
def LotSlot.freed : LotSlot := ⟨.free, none, 0, none, .zero⟩

/-! ### Chute Unit -/

/-- The configuration fields of a configured chute (R136). -/
structure ChuteCfg where
  ejectPos : Nat
  capacity : Nat
  near : Nat
  alternate : Option Nat
  pulseMs : Nat
  deriving DecidableEq, Repr

/-- One entry of the chute table (R136). `jet` is none for OFF, else the time left of the pulse. -/
structure Chute where
  cfg : Option ChuteCfg
  fill : Nat
  inFlight : Nat
  oldBox : Nat
  jet : Option Nat
  ejected : Nat
  misses : Nat
  deriving DecidableEq, Repr

def Chute.powerOn : Chute := ⟨none, 0, 0, 0, none, 0, 0⟩

/-! ### Calibration Store -/

/-- The values both copies hold (R155): six pairs and the calibration number. -/
structure CalTable where
  pairs : List CalPair
  number : Nat
  deriving DecidableEq, Repr

/-- The stored copy (R155): `check` is none while the stored check code is erased, so that it matches no table (R158). -/
structure StoredCal where
  table : CalTable
  check : Option (BitVec 16)
  deriving DecidableEq, Repr

/-- Erased storage, which reads as all ones (R156). -/
def StoredCal.erased : StoredCal := ⟨⟨List.replicate 6 ⟨2 ^ 64 - 1, 2 ^ 32 - 1⟩, 65535⟩, none⟩

/-- A trim table entry that holds a value (R161). -/
structure Trim where
  value : Int
  index : Nat
  deriving DecidableEq, Repr

/-- Both copies, the calibration-valid flag, the trim table and the periodic check flags (R155, R161, R162). -/
structure Cal where
  stored : StoredCal
  working : CalTable
  valid : Bool
  trimsA : List (Option Trim)
  trimsB : List (Option Trim)
  flagA : Bool
  flagB : Bool
  deriving DecidableEq, Repr

/-- The temperature record (R89). -/
inductive TempRecord where
  | neverSet
  | current (centi : Int)
  | held (centi : Int)
  deriving DecidableEq, Repr

/-- The temperature record and the staleness timer (R89, R175). -/
structure Temp where
  record : TempRecord
  running : Bool
  left : Nat
  deriving DecidableEq, Repr

/-- 30 s running at power-on (R175). -/
def Temp.powerOn : Temp := ⟨.neverSet, true, 30000000⟩

/-! ### Link Port -/

/-- The serial receiver (R168, R169): HUNTING, with the time left of an open run of discarded bytes; or IN FRAME, with the
bytes collected and the time left of the gap timer. -/
inductive LinkReceiver where
  | hunting (run : Option Nat)
  | inFrame (collected : List Byte) (gap : Nat)
  deriving DecidableEq, Repr

/-- A CAL.WRITE in flight (R158): the only request that stays in progress between two steps (R171). -/
structure CalWriting where
  tag : Byte
  pairs : List CalPair
  left : Nat
  deriving DecidableEq, Repr

structure Link where
  speed : Nat
  receiver : LinkReceiver
  buffer : List Frame
  inProgress : Option CalWriting
  deriving DecidableEq, Repr

/-- The LINK counter group (R187). -/
structure LinkCounters where
  badFrames : Nat
  overflows : Nat
  unknownTypes : Nat
  deriving DecidableEq, Repr

/-! ### Report Queue -/

/-- The outcome of a finished pocket (R22). -/
inductive Finish where
  | sorted | lost | purged
  deriving DecidableEq, Repr

/-- A PART record (R22), with its carried dropped count (R183). -/
structure PartRecord where
  serial : Nat
  pocket : Nat
  lotNumber : Nat
  lap : Nat
  outcome : Finish
  decision : Option Decision
  target : Option Nat
  chute : Option Nat
  overflow : Bool
  misses : Nat
  dropped : Nat
  attempts : List Attempt
  deriving DecidableEq, Repr

/-- A REFER report (R127) with its live mark (R181). -/
structure ReferReport where
  serial : Nat
  pocket : Nat
  slot : SlotId
  grade : Nat
  deviation : Int
  positionsLeft : Nat
  live : Bool
  deriving DecidableEq, Repr

/-- How a lot ended (R113). -/
inductive LotEnding where
  | drained | freed
  deriving DecidableEq, Repr

/-- A LOT.END summary (R113). -/
structure LotEnd where
  slot : SlotId
  lotNumber : Nat
  label : List Nat
  ending : LotEnding
  activation : Nat
  number : Nat
  cnt : LotCounters
  deriving DecidableEq, Repr

/-- A pending entry of the event table (R184). -/
structure PendingEvent where
  count : Nat
  detail : Detail
  index : Nat
  deriving DecidableEq, Repr

/-- Reply slot, queues, pending table, mask, transmitter (R178). `events` has one entry per kind in order of priority. -/
structure Report where
  reply : Option Frame
  refer : List ReferReport
  events : List (Option PendingEvent)
  mask : BitVec 14
  lotEnd : List LotEnd
  part : List PartRecord
  dropped : Nat
  tx : Option Frame
  deriving DecidableEq, Repr

/-- The Report Queue at power-on (R178). -/
def Report.powerOn : Report := ⟨none, [], List.replicate 14 none, 0#14, [], [], 0, none⟩

/-! ### The whole part -/

/-- The state of the NK-612, with the queue of commands that wait. -/
structure State where
  pins : Pins
  track : Track
  line : LineCtl
  lineCnt : LineCounters
  chanA : Channel
  chanB : Channel
  shared : Shared
  sched : Sched
  slot0 : LotSlot
  slot1 : LotSlot
  chutes : List Chute
  cal : Cal
  temp : Temp
  link : Link
  linkCnt : LinkCounters
  report : Report
  /-- The model's own: how many open choices have been made (log entries 5, 7, 8, 18). -/
  choices : Nat
  /-- The model's own: the commands that wait, first in, first out. -/
  pending : List Instr
  deriving DecidableEq, Repr

/-- The line speed the straps give (R165). -/
def strapSpeed (baud1 baud0 : Bool) : Nat :=
  if baud1 then (if baud0 then 2000000 else 921600) else (if baud0 then 460800 else 115200)

/-- Every block at its power-on values, but for the calibration's stored copy, which outlives a reset, and the two fields
that are the model's own; the input lines are as they stand. `valid` is the judgement of the stored copy (R156). -/
def State.poweredOn (pins : Pins) (stored : StoredCal) (valid : Bool) (choices : Nat)
    (pending : List Instr) : State :=
  { pins := pins
    track := .powerOn
    line := .powerOn pins.motion
    lineCnt := .zero
    chanA := .powerOn
    chanB := .powerOn
    shared := ⟨200, 0⟩
    sched := ⟨[], none, none⟩
    slot0 := .freed
    slot1 := .freed
    chutes := List.replicate 20 .powerOn
    cal := ⟨stored, stored.table, valid, List.replicate 6 none, List.replicate 6 none, false, false⟩
    temp := .powerOn
    link := ⟨strapSpeed pins.baud1 pins.baud0, .hunting none, [], none⟩
    linkCnt := ⟨0, 0, 0⟩
    report := .powerOn
    choices := choices
    pending := pending }

/-- The machine right after reset: every input line low, the calibration storage erased (log entries 9 and 10). -/
def State.reset : State := State.poweredOn ⟨false, false, false, false, false, false⟩ .erased false 0 []

end Sys2Proof.Machine
end

