-- ==== Sys2Proof/Machine/Ops.lean ====
section
/-! DEFINITION. The named reads and updates of State that every block uses: one update per block, one accessor per thing
the rules speak of, and the free choices. Laws/State.lean says what each update leaves alone. -/

namespace Sys2Proof.Machine

/-! ### One update per block -/

def State.modPins (f : Pins → Pins) (s : State) : State := { s with pins := f s.pins }
def State.modTrack (f : Track → Track) (s : State) : State := { s with track := f s.track }
def State.modLine (f : LineCtl → LineCtl) (s : State) : State := { s with line := f s.line }
def State.modLineCnt (f : LineCounters → LineCounters) (s : State) : State := { s with lineCnt := f s.lineCnt }
def State.modChanA (f : Channel → Channel) (s : State) : State := { s with chanA := f s.chanA }
def State.modChanB (f : Channel → Channel) (s : State) : State := { s with chanB := f s.chanB }
def State.modShared (f : Shared → Shared) (s : State) : State := { s with shared := f s.shared }
def State.modSched (f : Sched → Sched) (s : State) : State := { s with sched := f s.sched }
def State.modSlot0 (f : LotSlot → LotSlot) (s : State) : State := { s with slot0 := f s.slot0 }
def State.modSlot1 (f : LotSlot → LotSlot) (s : State) : State := { s with slot1 := f s.slot1 }
def State.modChutes (f : List Chute → List Chute) (s : State) : State := { s with chutes := f s.chutes }
def State.modCal (f : Cal → Cal) (s : State) : State := { s with cal := f s.cal }
def State.modTemp (f : Temp → Temp) (s : State) : State := { s with temp := f s.temp }
def State.modLink (f : Link → Link) (s : State) : State := { s with link := f s.link }
def State.modLinkCnt (f : LinkCounters → LinkCounters) (s : State) : State := { s with linkCnt := f s.linkCnt }
def State.modReport (f : Report → Report) (s : State) : State := { s with report := f s.report }
def State.modChoices (f : Nat → Nat) (s : State) : State := { s with choices := f s.choices }

/-! ### Channels and slots by name -/

def State.chan (s : State) : Chan → Channel
  | .A => s.chanA
  | .B => s.chanB

def State.modChan (ch : Chan) (f : Channel → Channel) (s : State) : State :=
  match ch with
  | .A => s.modChanA f
  | .B => s.modChanB f

/-- The other channel. -/
def chanOther : Chan → Chan
  | .A => .B
  | .B => .A

def State.slot (s : State) : SlotId → LotSlot
  | .s0 => s.slot0
  | .s1 => s.slot1

def State.modSlot (i : SlotId) (f : LotSlot → LotSlot) (s : State) : State :=
  match i with
  | .s0 => s.modSlot0 f
  | .s1 => s.modSlot1 f

def SlotId.other : SlotId → SlotId
  | .s0 => .s1
  | .s1 => .s0

def SlotId.num : SlotId → Nat
  | .s0 => 0
  | .s1 => 1

/-! ### Chutes, numbered 1..20 (R136) -/

/-- The entry of chute c; a number outside 1..20 names no chute and reads as an unconfigured one. -/
def State.chute (s : State) (c : Nat) : Chute :=
  if c = 0 then .powerOn else s.chutes.getD (c - 1) .powerOn

/-- An update of chute c's entry; a number outside 1..20 names no chute. -/
def State.modChute (c : Nat) (f : Chute → Chute) (s : State) : State :=
  if c = 0 then s else s.modChutes fun l => l.modify (c - 1) f

/-! ### Pockets and positions (R7, R8) -/

/-- The record of pocket q; a number outside the table reads as an EMPTY record. -/
def State.pocket (s : State) (q : Nat) : Pocket := s.track.pockets.getD q .emptied

def State.modPocket (q : Nat) (f : Pocket → Pocket) (s : State) : State :=
  s.modTrack fun t => { t with pockets := t.pockets.modify q f }

/-- The pocket at position pos is pocket number (pos − φ) mod P (R7). -/
def Track.pocketAt (t : Track) (pos : Nat) : Nat := (pos + (t.p - t.phi)) % t.p

/-- Pocket q stands at position (q + φ) mod P (R7). -/
def Track.positionOf (t : Track) (q : Nat) : Nat := (q + t.phi) % t.p

/-- A pocket is occupied while its state is other than EMPTY (R9). -/
def Pocket.occupied (p : Pocket) : Bool := p.state != .empty

/-- How many pockets are occupied. -/
def Track.occupiedCount (t : Track) : Nat := t.pockets.countP Pocket.occupied

/-! ### The Lot Store's two answers (R103) -/

/-- The ACTIVE slot, if any. -/
def State.activeSlot (s : State) : Option SlotId :=
  if s.slot0.state = .active then some .s0 else if s.slot1.state = .active then some .s1 else none

/-- The PENDING slot, if any. -/
def State.pendingSlot (s : State) : Option SlotId :=
  if s.slot0.state = .pending then some .s0 else if s.slot1.state = .pending then some .s1 else none

/-- The ACTIVE range: that of the lot in the ACTIVE slot, or none (R115). -/
def State.activeRange (s : State) : Option Nat :=
  match s.activeSlot with
  | some i => (s.slot i).definition.map LotDef.range
  | none => none

/-- The definition held in a pocket's own lot slot (R112). -/
def State.definitionOf (s : State) (p : Pocket) : Option LotDef :=
  match p.slot with
  | some i => (s.slot i).definition
  | none => none

/-! ### Counters (R187) -/

/-- The largest value of every counter but the CHUTE misses counter (R187). -/
def counterTop : Nat := 4294967295

/-- A counter advances by 1 and saturates (R187). -/
def bump (n : Nat) : Nat := satInc counterTop n

/-- A counter of pocket q's slot advances (R135: always in the slot named by the pocket concerned). -/
def State.bumpLotOf (q : Nat) (f : LotCounters → LotCounters) (s : State) : State :=
  match (s.pocket q).slot with
  | some i => s.modSlot i fun sl => { sl with cnt := f sl.cnt }
  | none => s

/-! ### Line states -/

/-- RUN or DRAIN: the states whose settles are worked (R33). -/
def LineState.worked : LineState → Bool
  | .run => true
  | .drain => true
  | .idle => false
  | .stopping => false
  | .stopped => false
  | .faulted => false

/-- RUN, DRAIN or STOPPING: the states in which the motion timer (R37) and the staleness timer (R175) run. -/
def LineState.underWay : LineState → Bool
  | .run => true
  | .drain => true
  | .stopping => true
  | .idle => false
  | .stopped => false
  | .faulted => false

/-- MOVING if MOTION is high, WAITING if it is low (R27, R41, R45, R48). -/
def restPhase (motion : Bool) : Phase := if motion then .moving else .waiting

/-! ### Trims and check flags by channel (R161, R162) -/

def Cal.trims (c : Cal) : Chan → List (Option Trim)
  | .A => c.trimsA
  | .B => c.trimsB

def Cal.setTrims (ch : Chan) (l : List (Option Trim)) (c : Cal) : Cal :=
  match ch with
  | .A => { c with trimsA := l }
  | .B => { c with trimsB := l }

def Cal.flag (c : Cal) : Chan → Bool
  | .A => c.flagA
  | .B => c.flagB

def Cal.setFlag (ch : Chan) (b : Bool) (c : Cal) : Cal :=
  match ch with
  | .A => { c with flagA := b }
  | .B => { c with flagB := b }

/-- The trim of a channel on range r, 1..6. -/
def Cal.trim (c : Cal) (ch : Chan) (r : Nat) : Option Trim :=
  if r = 0 then none else (c.trims ch).getD (r - 1) none

/-- The pair of range r in a table. -/
def CalTable.pair (t : CalTable) (r : Nat) : CalPair := if r = 0 then ⟨0, 0⟩ else t.pairs.getD (r - 1) ⟨0, 0⟩

/-- All six trims absent (R161). -/
def noTrims : List (Option Trim) := List.replicate 6 none

/-! ### Durations -/

/-- Milliseconds in microseconds. -/
def ms (n : Nat) : Nat := 1000 * n

/-- The limit of a channel's watchdog: 8 frame periods (R55). -/
def Channel.watchdogLimit (c : Channel) : Nat := 8 * c.framePeriod

/-! ### Free choices -/

/-- An index below n, from the next open choice. -/
def State.freeIndex (s : State) (n : Nat) : Nat := Config.freeChoice s.choices % n

/-- The counter of open choices moves on. -/
def State.chosen (s : State) : State := s.modChoices (· + 1)

end Sys2Proof.Machine
end

