-- ==== Sys2Proof/Machine/Deviation.lean ====
section
/-! DEFINITION. The Deviation Unit (05_deviation_arithmetic.md): exact integer arithmetic, each quotient rounded once. It
holds no state (R87). -/

namespace Sys2Proof.Machine

/-- A quotient rounded once, halves away from zero: the sign is set aside, the integer part raised by 1 if the remainder is
at least half the divisor, and the sign restored (R93). -/
def roundDiv (num : Int) (den : Nat) : Int :=
  let q := num.natAbs / den
  let q' := if den ≤ 2 * (num.natAbs % den) then q + 1 else q
  if num < 0 then -(q' : Int) else q'

/-- D, the DUT difference (R90). -/
def Job.dutDiff (j : Job) : Int := j.sdp - j.sdn

/-- Rf, the reference difference (R90). -/
def Job.refDiff (j : Job) : Int := j.srp - j.srn

/-- The source check passes: the reference is not clipped and Rf is at least 80,000 × N (R91). -/
def Job.sourceOk (j : Job) : Bool := !j.refClipped && decide (80000 * (j.n : Int) ≤ j.refDiff)

/-- The raw deviation (R92); the divisor Rnom × Rf is positive once the source check has passed. -/
def devRaw (rref rnom : Nat) (d rf : Int) : Int :=
  roundDiv (((rref : Int) * d - (rnom : Int) * rf) * 1000000) (rnom * rf.toNat)

/-- The temperature that corrects a result, none for NEVER SET (R89). -/
def TempRecord.value : TempRecord → Option Int
  | .neverSet => none
  | .current v => some v
  | .held v => some v

/-- The mark TEMP-NOT-CURRENT is set by the state of the record alone (R89). -/
def TempRecord.notCurrent : TempRecord → Bool
  | .neverSet => true
  | .current _ => false
  | .held _ => true

/-- The temperature correction (R94). -/
def tempCorrection (tcr : Int) (t : TempRecord) : Int :=
  match t.value with
  | none => 0
  | some v => roundDiv (tcr * (v - 2500)) 1000

/-- The trim used: the entry's value, or 0 when absent (R95). -/
def trimValue (t : Option Trim) : Int := (t.map Trim.value).getD 0

/-- The deviation before saturation (R96). -/
def devUnlimited (rref : Nat) (d : LotDef) (t : TempRecord) (trim : Option Trim) (j : Job) : Int :=
  devRaw rref d.rnom j.dutDiff j.refDiff - trimValue trim - tempCorrection d.tcr t

/-- A deviation limited to −999,999..+999,999 (R97). -/
def saturate (v : Int) : Int := if v < -999999 then -999999 else if 999999 < v then 999999 else v

/-- Saturation has replaced a deviation (R97). -/
def saturates (v : Int) : Bool := v < -999999 || 999999 < v

/-- The EMF estimate (R99). -/
def Job.emf (j : Job) : Int := roundDiv (j.sdp + j.sdn) (2 * j.n)

/-- The EMF estimate exceeds the lot's limit; a limit of 0 turns the judgement off (R100). -/
def emfExceeds (limit : Nat) (e : Int) : Bool := limit != 0 && limit < e.natAbs

/-- The result of a STATION job (R100). -/
inductive StationResult where
  | sourceFault
  | measured (outcome : JobOutcome) (deviation : Int) (marks : Marks)
  deriving DecidableEq, Repr

/-- The result of a STATION job from its sums and inputs (R91 to R100). -/
def stationResult (rref : Nat) (d : LotDef) (t : TempRecord) (trim : Option Trim) (j : Job) : StationResult :=
  if j.sourceOk then
    let v := devUnlimited rref d t trim j
    .measured (if emfExceeds d.emfLimit j.emf then .unstable else .accepted)
      (if j.dutClipped then 999999 else saturate v)
      ⟨j.dutClipped || saturates v, trim.isNone, t.notCurrent⟩
  else .sourceFault

/-- The check deviation, or none for SOURCE FAULT (R101). -/
def checkResult (c : Nat) (j : Job) : Option Int :=
  if j.sourceOk then
    some (roundDiv ((j.dutDiff * 1000000000 - (c : Int) * j.refDiff) * 1000000) (c * j.refDiff.toNat))
  else none

end Sys2Proof.Machine
end

