-- ==== Sys2Proof/Machine/Operands.lean ====
section
/-! DEFINITION. The operand forms of the requests: how fields are judged in ordinal order, and how raw bytes name channels,
slots, modes and groups. -/

namespace Sys2Proof.Machine

/-- A value lies in lo..hi, both ends included (00_scope.md, Conventions). -/
def within (lo hi v : Nat) : Bool := lo ≤ v && v ≤ hi

def withinInt (lo hi v : Int) : Bool := lo ≤ v && v ≤ hi

/-- Fields judged in ordinal order: the ordinal of the first that fails, none when all pass. -/
def firstBad : List (Nat × Bool) → Option Nat
  | [] => none
  | (n, ok) :: rest => if ok then firstBad rest else some n

/-- A channel byte: 00H A, 01H B (R177). -/
def chanOf : Nat → Option Chan
  | 0 => some .A
  | 1 => some .B
  | _ => none

/-- A slot byte (R177). -/
def slotOf : Nat → Option SlotId
  | 0 => some .s0
  | 1 => some .s1
  | _ => none

/-- Line states in which a configuration request is taken: IDLE and STOPPED (R51, R138). -/
def LineState.settable : LineState → Bool
  | .idle => true
  | .stopped => true
  | .run => false
  | .drain => false
  | .stopping => false
  | .faulted => false

/-- A chute is configured if the table holds it in a state other than UNUSED (R106). -/
def State.configured (s : State) (c : Nat) : Bool := (s.chute c).cfg.isSome

/-- A chute field of LOT.LOAD passes (R106): 1..20 and configured. -/
def State.chuteOk (s : State) (c : Nat) : Bool := within 1 20 c && s.configured c

end Sys2Proof.Machine
end

