-- ==== Sys2Proof/WellFormed.lean ====
section
/-! DEFINITION. Well-formed requests and commands: every field fits the width the payload gives it (R177), and the lists
have the lengths the payload has room for. A request that is not well formed is one no frame can carry. -/

namespace Sys2Proof

/-- A value fits n payload bytes, unsigned. -/
def fitsBytes (n v : Nat) : Bool := v < 256 ^ n

/-- A value fits n payload bytes in two's complement. -/
def fitsSigned (n : Nat) (v : Int) : Bool := -(2 ^ (8 * n - 1) : Int) ≤ v && v < 2 ^ (8 * n - 1)

/-- TRACK.SET: n and every position fit one byte (R177). -/
def TrackSetReq.wf (r : TrackSetReq) : Bool :=
  fitsBytes 1 r.p && fitsBytes 1 r.stations.length && r.stations.all (fitsBytes 1) && fitsBytes 1 r.decidePos &&
    fitsBytes 1 r.checkPos

def ChuteFields.wf (r : ChuteFields) : Bool :=
  fitsBytes 1 r.ejectPos && fitsBytes 2 r.capacity && fitsBytes 2 r.near && fitsBytes 1 r.alternate && fitsBytes 2 r.pulse

def ChanSetReq.wf (r : ChanSetReq) : Bool :=
  fitsBytes 1 r.chan && fitsBytes 2 r.framePeriod && fitsBytes 1 r.settleFrames && fitsBytes 2 r.relaySettle &&
    fitsBytes 1 r.strict && fitsBytes 2 r.driftLimit && fitsBytes 2 r.interval

def GradeSpec.wf (g : GradeSpec) : Bool := fitsBytes 2 g.samples && fitsBytes 4 g.guard

def ClassSpec.wf (c : ClassSpec) : Bool := fitsSigned 4 c.lower && fitsSigned 4 c.upper && fitsBytes 1 c.chute

/-- LOT.LOAD: 24 label bytes, four grades, sixteen classes, each field in its width (R105, R177). -/
def LotLoadReq.wf (r : LotLoadReq) : Bool :=
  fitsBytes 1 r.slot && fitsBytes 4 r.lotNumber && fitsBytes 1 r.labelLen && r.labelChars.length == 24 &&
    r.labelChars.all (fitsBytes 1) && fitsBytes 1 r.range && fitsBytes 8 r.rnom && fitsSigned 2 r.tcr &&
    fitsBytes 4 r.emfLimit && fitsBytes 1 r.retryLimit && fitsBytes 1 r.rejectChute && fitsBytes 1 r.retestChute &&
    fitsBytes 1 r.mode && fitsBytes 1 r.fallback && fitsBytes 1 r.referral && fitsBytes 1 r.gradeCount &&
    r.grades.length == 4 && r.grades.all GradeSpec.wf && fitsBytes 1 r.classCount && r.classes.length == 16 &&
    r.classes.all ClassSpec.wf

def CalPair.wf (p : CalPair) : Bool := fitsBytes 8 p.rref && fitsBytes 4 p.c

/-- A request that a frame can carry (R177). -/
def Request.wf : Request → Bool
  | .ident => true
  | .trackSet r => r.wf
  | .trackRead => true
  | .chuteSet c a f => fitsBytes 1 c && fitsBytes 1 a && f.wf
  | .chanSet r => r.wf
  | .chanRead c => fitsBytes 1 c
  | .chanReset c => fitsBytes 1 c
  | .chanRestore c => fitsBytes 1 c
  | .lotLoad r => r.wf
  | .lotArm i => fitsBytes 1 i
  | .lotFree i => fitsBytes 1 i
  | .lotRead i => fitsBytes 1 i
  | .lineStart b m t => fitsBytes 2 b && fitsBytes 2 m && fitsBytes 2 t
  | .lineStop => true
  | .lineDrain => true
  | .lineResume => true
  | .lineClear => true
  | .lineReset => true
  | .pocketRead q => fitsBytes 1 q
  | .pocketPurge q => fitsBytes 1 q
  | .verdict n c => fitsBytes 4 n && fitsBytes 1 c
  | .boxExchanged c => fitsBytes 1 c
  | .tempSet v => fitsSigned 2 v
  | .calRead => true
  | .calWrite ps => ps.length == 6 && ps.all CalPair.wf
  | .countRead g i c => fitsBytes 1 g && fitsBytes 1 i && fitsBytes 1 c
  | .eventMask m => fitsBytes 2 m

/-- The request a command carries, with its tag; none for the commands that are events. -/
def Instr.request : Instr → Option (Byte × Request)
  | .powerOnReset _ _ _ => none
  | .indexStart _ _ => none
  | .settle => none
  | .frameTaken _ _ => none
  | .watchdogExpiry _ => none
  | .relaySettleExpiry _ => none
  | .dwellBudgetExpiry => none
  | .motionTimerExpiry => none
  | .stallTimerExpiry => none
  | .jetCompletion _ => none
  | .stalenessExpiry => none
  | .linkFrameReceived _ => none
  | .gapExpiry => none
  | .huntingPause => none
  | .requestTaken _ => none
  | .transmitEnd => none
  | .ident tag => some (tag, .ident)
  | .trackSet tag r => some (tag, .trackSet r)
  | .trackRead tag => some (tag, .trackRead)
  | .chuteConfigure tag c f => some (tag, .chuteSet c 0 f)
  | .chuteRemove tag c => some (tag, .chuteSet c 1 ⟨0, 0, 0, 0, 0⟩)
  | .chanSet tag r => some (tag, .chanSet r)
  | .chanRead tag c => some (tag, .chanRead c)
  | .chanReset tag c => some (tag, .chanReset c)
  | .chanRestore tag c => some (tag, .chanRestore c)
  | .lotLoad tag r => some (tag, .lotLoad r)
  | .lotArm tag i => some (tag, .lotArm i)
  | .lotFree tag i => some (tag, .lotFree i)
  | .lotRead tag i => some (tag, .lotRead i)
  | .lineStart tag b m t => some (tag, .lineStart b m t)
  | .lineStop tag => some (tag, .lineStop)
  | .lineDrain tag => some (tag, .lineDrain)
  | .lineResume tag => some (tag, .lineResume)
  | .lineClear tag => some (tag, .lineClear)
  | .lineReset tag => some (tag, .lineReset)
  | .pocketRead tag q => some (tag, .pocketRead q)
  | .pocketPurge tag q => some (tag, .pocketPurge q)
  | .verdict tag n c => some (tag, .verdict n c)
  | .boxExchanged tag c => some (tag, .boxExchanged c)
  | .tempSet tag v => some (tag, .tempSet v)
  | .calRead tag => some (tag, .calRead)
  | .calWrite tag ps _ => some (tag, .calWrite ps)
  | .calWriteCompletion => none
  | .countRead tag g i c => some (tag, .countRead g i c)
  | .eventMask tag m => some (tag, .eventMask m)

/-- A well-formed command: its request, if it carries one, fits a frame, and a jet completion names a chute 1..20. -/
def Instr.wf (i : Instr) : Bool :=
  (match i with
    | .jetCompletion c => 1 ≤ c && c ≤ 20
    | _ => true) &&
  (match i.request with
    | some (_, r) => r.wf
    | none => true)

end Sys2Proof
end

