-- ==== Sys2Proof/Decode.lean ====
section
/-! DEFINITION. Bytes and frames of the serial link: the check code (R167), the frame (R166), the request types, payload
lengths and payload layouts (R171, R177), read and written. decodeTableWord reads a command from an opcode-table word: no
row of the table gives bits, so it reads none. -/

namespace Sys2Proof

/-! ### Multi-byte values -/

/-- The n bytes of a value, low byte first (R166: multi-byte values are little-endian). -/
def le : Nat → Nat → List Byte
  | 0, _ => []
  | n + 1, v => BitVec.ofNat 8 v :: le n (v / 256)

/-- The value of a run of bytes, low byte first. -/
def leNat : List Byte → Nat
  | [] => 0
  | b :: bs => b.toNat + 256 * leNat bs

/-- Two's complement of n bytes, from an integer. -/
def toTwos (n : Nat) (v : Int) : Nat := (v % (2 ^ (8 * n) : Int)).toNat

/-- The integer that n bytes spell in two's complement. -/
def ofTwos (n : Nat) (v : Nat) : Int := if v < 2 ^ (8 * n - 1) then (v : Int) else (v : Int) - 2 ^ (8 * n)

/-- n bytes of a signed value, two's complement, low byte first (R177). -/
def leSigned (n : Nat) (v : Int) : List Byte := le n (toTwos n v)

/-! ### Check code -/

/-- One bit into the check code register (R167). -/
def crcBit (c : BitVec 16) (b : Bool) : BitVec 16 :=
  if c.getLsbD 0 == b then c >>> 1 else (c >>> 1) ^^^ 0x8408#16

/-- One byte into the check code register, least significant bit first (R167). -/
def crcByte (c : BitVec 16) (b : Byte) : BitVec 16 :=
  [0, 1, 2, 3, 4, 5, 6, 7].foldl (fun r i => crcBit r (b.getLsbD i)) c

/-- The check code of a run of bytes (R167). -/
def checkCode (bs : List Byte) : BitVec 16 := bs.foldl crcByte 0xFFFF#16

/-! ### Frames -/

/-- The bytes the check code is formed over: length, type, tag and payload (R166, R167). -/
def Frame.body (f : Frame) : List Byte := le 2 f.payload.length ++ f.typ :: f.tag :: f.payload

/-- A frame's bytes on the line (R166). -/
def Frame.bytes (f : Frame) : List Byte := 0x5A#8 :: f.body ++ le 2 (checkCode f.body).toNat

/-! ### Reading a payload -/

/-- The next n bytes as an unsigned value, and the rest. -/
def rd (n : Nat) (bs : List Byte) : Nat × List Byte := (leNat (bs.take n), bs.drop n)

/-- The next n bytes as a signed value, and the rest. -/
def rdSigned (n : Nat) (bs : List Byte) : Int × List Byte := (ofTwos n (rd n bs).1, (rd n bs).2)

/-- k items read one after the other. -/
def rdList {α : Type} (item : List Byte → α × List Byte) : Nat → List Byte → List α × List Byte
  | 0, bs => ([], bs)
  | k + 1, bs => ((item bs).1 :: (rdList item k (item bs).2).1, (rdList item k (item bs).2).2)

def rdGrade (bs : List Byte) : GradeSpec × List Byte :=
  let (n, bs) := rd 2 bs
  let (g, bs) := rd 4 bs
  (⟨n, g⟩, bs)

def rdClass (bs : List Byte) : ClassSpec × List Byte :=
  let (l, bs) := rdSigned 4 bs
  let (u, bs) := rdSigned 4 bs
  let (c, bs) := rd 1 bs
  (⟨l, u, c⟩, bs)

def rdPair (bs : List Byte) : CalPair × List Byte :=
  let (r, bs) := rd 8 bs
  let (c, bs) := rd 4 bs
  (⟨r, c⟩, bs)

/-- TRACK.SET: P, n, the n positions, DECIDE, CHECK (R3, R177). -/
def rdTrackSet (bs : List Byte) : TrackSetReq :=
  let (p, bs) := rd 1 bs
  let (n, bs) := rd 1 bs
  let (cs, bs) := rdList (rd 1) n bs
  let (d, bs) := rd 1 bs
  let (c, _) := rd 1 bs
  ⟨p, cs, d, c⟩

/-- CHUTE.SET: chute, action, then the fields (R138, R177). -/
def rdChuteSet (bs : List Byte) : Request :=
  let (c, bs) := rd 1 bs
  let (a, bs) := rd 1 bs
  let (e, bs) := rd 1 bs
  let (cap, bs) := rd 2 bs
  let (near, bs) := rd 2 bs
  let (alt, bs) := rd 1 bs
  let (pulse, _) := rd 2 bs
  .chuteSet c a ⟨e, cap, near, alt, pulse⟩

def rdChanSet (bs : List Byte) : ChanSetReq :=
  let (ch, bs) := rd 1 bs
  let (fp, bs) := rd 2 bs
  let (s, bs) := rd 1 bs
  let (rs, bs) := rd 2 bs
  let (st, bs) := rd 1 bs
  let (dl, bs) := rd 2 bs
  let (k, _) := rd 2 bs
  ⟨ch, fp, s, rs, st, dl, k⟩

/-- LOT.LOAD, 221 bytes (R105, R177). -/
def rdLotLoad (bs : List Byte) : LotLoadReq :=
  let (slot, bs) := rd 1 bs
  let (lot, bs) := rd 4 bs
  let (labelLen, bs) := rd 1 bs
  let (label, bs) := rdList (rd 1) 24 bs
  let (range, bs) := rd 1 bs
  let (rnom, bs) := rd 8 bs
  let (tcr, bs) := rdSigned 2 bs
  let (emf, bs) := rd 4 bs
  let (retry, bs) := rd 1 bs
  let (reject, bs) := rd 1 bs
  let (retest, bs) := rd 1 bs
  let (mode, bs) := rd 1 bs
  let (fallback, bs) := rd 1 bs
  let (referral, bs) := rd 1 bs
  let (gradeCount, bs) := rd 1 bs
  let (grades, bs) := rdList rdGrade 4 bs
  let (classCount, bs) := rd 1 bs
  let (classes, _) := rdList rdClass 16 bs
  ⟨slot, lot, labelLen, label, range, rnom, tcr, emf, retry, reject, retest, mode, fallback, referral, gradeCount,
    grades, classCount, classes⟩

def rdLineStart (bs : List Byte) : Request :=
  let (b, bs) := rd 2 bs
  let (m, bs) := rd 2 bs
  let (t, _) := rd 2 bs
  .lineStart b m t

def rdVerdict (bs : List Byte) : Request :=
  let (n, bs) := rd 4 bs
  let (c, _) := rd 1 bs
  .verdict n c

def rdCountRead (bs : List Byte) : Request :=
  let (g, bs) := rd 1 bs
  let (i, bs) := rd 1 bs
  let (c, _) := rd 1 bs
  .countRead g i c

/-! ### Writing a payload -/

def GradeSpec.bytes (g : GradeSpec) : List Byte := le 2 g.samples ++ le 4 g.guard
def ClassSpec.bytes (c : ClassSpec) : List Byte := leSigned 4 c.lower ++ leSigned 4 c.upper ++ le 1 c.chute
def CalPair.bytes (p : CalPair) : List Byte := le 8 p.rref ++ le 4 p.c

/-- The items of a list one after the other. -/
def eachBytes {α : Type} (f : α → List Byte) (l : List α) : List Byte := (l.map f).flatten

/-- A request's payload (R177). -/
def Request.payload : Request → List Byte
  | .trackSet r => le 1 r.p ++ le 1 r.stations.length ++ eachBytes (le 1) r.stations ++ le 1 r.decidePos ++ le 1 r.checkPos
  | .chuteSet c a f =>
    le 1 c ++ le 1 a ++ le 1 f.ejectPos ++ le 2 f.capacity ++ le 2 f.near ++ le 1 f.alternate ++ le 2 f.pulse
  | .chanSet r =>
    le 1 r.chan ++ le 2 r.framePeriod ++ le 1 r.settleFrames ++ le 2 r.relaySettle ++ le 1 r.strict ++
      le 2 r.driftLimit ++ le 2 r.interval
  | .lotLoad r =>
    le 1 r.slot ++ le 4 r.lotNumber ++ le 1 r.labelLen ++ eachBytes (le 1) r.labelChars ++ le 1 r.range ++ le 8 r.rnom ++
      leSigned 2 r.tcr ++ le 4 r.emfLimit ++ le 1 r.retryLimit ++ le 1 r.rejectChute ++ le 1 r.retestChute ++
      le 1 r.mode ++ le 1 r.fallback ++ le 1 r.referral ++ le 1 r.gradeCount ++ eachBytes GradeSpec.bytes r.grades ++
      le 1 r.classCount ++ eachBytes ClassSpec.bytes r.classes
  | .chanRead c => le 1 c
  | .chanReset c => le 1 c
  | .chanRestore c => le 1 c
  | .lotArm i => le 1 i
  | .lotFree i => le 1 i
  | .lotRead i => le 1 i
  | .lineStart b m t => le 2 b ++ le 2 m ++ le 2 t
  | .pocketRead q => le 1 q
  | .pocketPurge q => le 1 q
  | .verdict n c => le 4 n ++ le 1 c
  | .boxExchanged c => le 1 c
  | .tempSet v => leSigned 2 v
  | .calWrite ps => eachBytes CalPair.bytes ps
  | .countRead g i c => le 1 g ++ le 1 i ++ le 1 c
  | .eventMask m => le 2 m
  | .ident => []
  | .trackRead => []
  | .lineStop => []
  | .lineDrain => []
  | .lineResume => []
  | .lineClear => []
  | .lineReset => []
  | .calRead => []

/-- The request type codes (R177). -/
def Request.typeCode : Request → Byte
  | .ident => 0x01#8
  | .trackSet _ => 0x02#8
  | .trackRead => 0x03#8
  | .chuteSet _ _ _ => 0x04#8
  | .chanSet _ => 0x05#8
  | .chanRead _ => 0x06#8
  | .chanReset _ => 0x07#8
  | .chanRestore _ => 0x08#8
  | .lotLoad _ => 0x09#8
  | .lotArm _ => 0x0A#8
  | .lotFree _ => 0x0B#8
  | .lotRead _ => 0x0C#8
  | .lineStart _ _ _ => 0x10#8
  | .lineStop => 0x11#8
  | .lineDrain => 0x12#8
  | .lineResume => 0x13#8
  | .lineClear => 0x14#8
  | .lineReset => 0x15#8
  | .pocketRead _ => 0x18#8
  | .pocketPurge _ => 0x19#8
  | .verdict _ _ => 0x1A#8
  | .boxExchanged _ => 0x1B#8
  | .tempSet _ => 0x1C#8
  | .calRead => 0x20#8
  | .calWrite _ => 0x21#8
  | .countRead _ _ _ => 0x24#8
  | .eventMask _ => 0x25#8

/-- The frame that carries a request. -/
def Request.frame (tag : Byte) (r : Request) : Frame := ⟨r.typeCode, tag, r.payload⟩

/-! ### The Link Port's judgement of type and length -/

/-- The payload length a request type calls for (R177), none for a type that names no request. TRACK.SET calls for 4 + n,
where n is its second payload byte; a shorter payload has no such byte and cannot be that long (R171). -/
def requestLength (typ : Nat) (payload : List Byte) : Option Nat :=
  match typ with
  | 0x01 => some 0
  | 0x02 => some (4 + (payload.getD 1 0#8).toNat)
  | 0x03 => some 0
  | 0x04 => some 10
  | 0x05 => some 11
  | 0x06 => some 1
  | 0x07 => some 1
  | 0x08 => some 1
  | 0x09 => some 221
  | 0x0A => some 1
  | 0x0B => some 1
  | 0x0C => some 1
  | 0x10 => some 6
  | 0x11 => some 0
  | 0x12 => some 0
  | 0x13 => some 0
  | 0x14 => some 0
  | 0x15 => some 0
  | 0x18 => some 1
  | 0x19 => some 1
  | 0x1A => some 5
  | 0x1B => some 1
  | 0x1C => some 2
  | 0x20 => some 0
  | 0x21 => some 72
  | 0x24 => some 3
  | 0x25 => some 2
  | _ => none

/-- The fields of a request payload of the right length. -/
def readRequest (typ : Nat) (bs : List Byte) : Option Request :=
  match typ with
  | 0x01 => some .ident
  | 0x02 => some (.trackSet (rdTrackSet bs))
  | 0x03 => some .trackRead
  | 0x04 => some (rdChuteSet bs)
  | 0x05 => some (.chanSet (rdChanSet bs))
  | 0x06 => some (.chanRead (rd 1 bs).1)
  | 0x07 => some (.chanReset (rd 1 bs).1)
  | 0x08 => some (.chanRestore (rd 1 bs).1)
  | 0x09 => some (.lotLoad (rdLotLoad bs))
  | 0x0A => some (.lotArm (rd 1 bs).1)
  | 0x0B => some (.lotFree (rd 1 bs).1)
  | 0x0C => some (.lotRead (rd 1 bs).1)
  | 0x10 => some (rdLineStart bs)
  | 0x11 => some .lineStop
  | 0x12 => some .lineDrain
  | 0x13 => some .lineResume
  | 0x14 => some .lineClear
  | 0x15 => some .lineReset
  | 0x18 => some (.pocketRead (rd 1 bs).1)
  | 0x19 => some (.pocketPurge (rd 1 bs).1)
  | 0x1A => some (rdVerdict bs)
  | 0x1B => some (.boxExchanged (rd 1 bs).1)
  | 0x1C => some (.tempSet (rdSigned 2 bs).1)
  | 0x20 => some .calRead
  | 0x21 => some (.calWrite (rdList rdPair 6 bs).1)
  | 0x24 => some (rdCountRead bs)
  | 0x25 => some (.eventMask (rd 2 bs).1)
  | _ => none

/-- What the Link Port makes of a frame it takes (R171, steps 1 to 4). -/
inductive Parsed where
  /-- Step 1: a type of a reply or a report; no reply is sent. -/
  | discarded
  /-- Step 2: a type that names no request. -/
  | unknownType
  /-- Step 3: a payload length that does not suit the type. -/
  | badLength
  /-- Step 4: handed to its owner. -/
  | request (r : Request)
  deriving DecidableEq, Repr

/-- The Link Port's judgement of a frame it takes (R171). -/
def Frame.parse (f : Frame) : Parsed :=
  let t := f.typ.toNat
  if (0x71 ≤ t && t ≤ 0x74) || 0x80 ≤ t then .discarded
  else match requestLength t f.payload with
    | none => .unknownType
    | some n =>
      if f.payload.length == n then
        match readRequest t f.payload with
        | some r => .request r
        | none => .unknownType
      else .badLength

/-- The command that an opcode-table word spells: no row of spec/opcode_table.json gives bits, so none. -/
def decodeTableWord (_nbits _w : Nat) : Option Instr := none

end Sys2Proof
end

