-- ==== Sys2Proof/Machine/Flags.lean ====
section
/-! DEFINITION. The event flags: kinds, priorities, the raising of a kind in the event pending table, and the fields coded
as sets of flags. -/

namespace Sys2Proof.Machine

/-- A kind's priority in the event table, 1..14 (R184); its code in an EVENT report too (R177). -/
def EventKind.priority : EventKind → Nat
  | .motionFault => 1
  | .jam => 2
  | .foreignPart => 3
  | .noChannel => 4
  | .chuteBlocked => 5
  | .channelSuspect => 6
  | .channelStall => 7
  | .partLost => 8
  | .unpermittedIndex => 9
  | .chuteFull => 10
  | .chuteNear => 11
  | .lotChange => 12
  | .turretIdle => 13
  | .tempStale => 14

/-- The 14 kinds in order of priority. -/
def EventKind.all : List EventKind :=
  [.motionFault, .jam, .foreignPart, .noChannel, .chuteBlocked, .channelSuspect, .channelStall, .partLost,
    .unpermittedIndex, .chuteFull, .chuteNear, .lotChange, .turretIdle, .tempStale]

/-- The event kind a fault raises (R45). -/
def FaultKind.event : FaultKind → EventKind
  | .motionFault => .motionFault
  | .jam => .jam
  | .foreignPart => .foreignPart
  | .noChannel => .noChannel

/-- The entry of a kind in the event pending table. -/
def Report.event (r : Report) (k : EventKind) : Option PendingEvent := r.events.getD (k.priority - 1) none

/-- Whether a kind is masked (R185, R186: bit j − 1 for the kind of priority j). -/
def Report.masked (r : Report) (k : EventKind) : Bool := r.mask.getLsbD (k.priority - 1)

/-- What a raise makes of a kind's entry (R184). -/
def raisedEntry (d : Detail) (index : Nat) : Option PendingEvent → Option PendingEvent
  | none => some ⟨1, d, index⟩
  | some e => some { e with count := satInc 65535 e.count }

/-- A block raises an event kind with its detail (R184). -/
def State.raise (k : EventKind) (d : Detail) (s : State) : State :=
  s.modReport fun r => { r with events := r.events.modify (k.priority - 1) (raisedEntry d s.track.k) }

/-- A set of at most 16 members as a number, bit i − 1 for the i-th (R177). -/
def setBits : List Bool → Nat
  | [] => 0
  | b :: bs => (if b then 1 else 0) + 2 * setBits bs

/-- A detail as the byte an EVENT report carries (R177). -/
def Detail.code : Detail → Nat
  | .none => 0
  | .pocket q => q
  | .chute c => c
  | .channel .A => 0
  | .channel .B => 1

end Sys2Proof.Machine
end

