-- ==== Sys2Proof/Machine/Reports.lean ====
section
/-! DEFINITION. The Report Queue (11_reports_events_and_counters.md): the reports and their layouts, the queues that take
them, the replies and their codings, and the transmitter. -/

namespace Sys2Proof.Machine

/-! ### Codes of named values (R177) -/

def bitCode (b : Bool) : List Byte := le 1 (if b then 1 else 0)

def chanCode : Chan → Nat
  | .A => 0
  | .B => 1

/-- Decision sources as the PART record codes them (R177). -/
def Source.code : Source → Nat
  | .early => 1
  | .final => 2
  | .fallback => 3
  | .verdict => 4
  | .referDefault => 5
  | .unmeasured => 6
  | .unfinished => 7

/-- Attempt outcomes as the PART record codes them (R177). -/
def JobOutcome.code : JobOutcome → Nat
  | .accepted => 1
  | .unstable => 2
  | .contactLost => 3
  | .sourceFault => 4
  | .linkError => 5
  | .stall => 6
  | .cut => 7

/-- A decision class as the PART record codes it: 1..16, or 11H for NO CLASS (R177). -/
def clsCode : Option Nat → Nat
  | some j => j
  | none => 17

def Finish.code : Finish → Nat
  | .sorted => 1
  | .lost => 2
  | .purged => 3

def LotEnding.code : LotEnding → Nat
  | .drained => 1
  | .freed => 2

/-- Marks: bit 0 OVER-RANGE, bit 1 UNTRIMMED, bit 2 TEMP-NOT-CURRENT (R177). -/
def Marks.code (m : Marks) : Nat := setBits [m.overRange, m.untrimmed, m.tempNotCurrent]

/-! ### The payloads of the four reports (R177) -/

/-- One attempt of a PART record: 9 bytes. -/
def Attempt.partBytes (a : Attempt) : List Byte :=
  le 1 a.station ++ le 1 (chanCode a.chan) ++ le 1 a.grade ++ le 1 a.outcome.code ++ leSigned 4 (a.deviation.getD 0) ++
    le 1 ((a.marks.map Marks.code).getD 0)

/-- The PART record: 21 + 9 × a bytes. -/
def PartRecord.payload (r : PartRecord) : List Byte :=
  le 4 r.serial ++ le 1 r.pocket ++ le 4 r.lotNumber ++ le 1 r.lap ++ le 1 r.outcome.code ++
    le 1 ((r.decision.map fun d => clsCode d.cls).getD 0) ++ le 1 ((r.decision.map fun d => d.source.code).getD 0) ++
    le 1 ((r.decision.bind Decision.grade).getD 0) ++ le 1 (r.target.getD 0) ++ le 1 (r.chute.getD 0) ++
    bitCode r.overflow ++ le 1 r.misses ++ le 2 r.dropped ++ le 1 r.attempts.length ++
    eachBytes Attempt.partBytes r.attempts

/-- The REFER report: 12 bytes. -/
def ReferReport.payload (r : ReferReport) : List Byte :=
  le 4 r.serial ++ le 1 r.pocket ++ le 1 r.slot.num ++ le 1 r.grade ++ leSigned 4 r.deviation ++ le 1 r.positionsLeft

/-- The EVENT report: 8 bytes. -/
def eventPayload (k : EventKind) (e : PendingEvent) : List Byte :=
  le 1 k.priority ++ le 2 e.count ++ le 1 e.detail.code ++ le 4 e.index

/-- The 29 counters of the LOT group, in the order of the LOT row of R187. -/
def LotCounters.list (c : LotCounters) : List Nat :=
  c.perClass ++ [c.noClass, c.unmeasured, c.unfinished, c.fallback, c.refMade, c.refAnswered, c.refLate, c.refDefaulted] ++
    c.early ++ [c.overflow]

/-- A label: one length byte, then 24 characters, those beyond the length 00H (R177). -/
def labelBytes (l : List Nat) : List Byte :=
  le 1 l.length ++ eachBytes (le 1) l ++ List.replicate (24 - l.length) 0#8

/-- The LOT.END summary: 151 bytes. -/
def LotEnd.payload (r : LotEnd) : List Byte :=
  le 1 r.slot.num ++ le 4 r.lotNumber ++ labelBytes r.label ++ le 1 r.ending.code ++ le 2 r.activation ++ le 2 r.number ++
    eachBytes (le 4) r.cnt.list

/-- A report's frame: its type, tag 00H, no status byte (R166, R178). -/
def reportFrame (typ : Byte) (payload : List Byte) : Frame := ⟨typ, 0#8, payload⟩

/-! ### Handing reports to the queue -/

/-- A PART record handed over at a finish joins the queue with the dropped count, or is dropped (R183). -/
def State.handPart (r : PartRecord) (s : State) : State :=
  if s.report.part.length < 64 then
    s.modReport fun q => { q with part := q.part ++ [{ r with dropped := q.dropped }], dropped := 0 }
  else
    (s.modReport fun q => { q with dropped := satInc 65535 q.dropped }).modLineCnt fun c =>
      { c with droppedPart := bump c.droppedPart }

/-- The queue without its oldest report whose live mark is clear (R181). Such a report always exists in a full queue; in a
state that no run reaches, where none does, the oldest report goes (log entry 17). -/
def pruneRefer (l : List ReferReport) : List ReferReport :=
  if l.any fun r => !r.live then l.eraseP fun r => !r.live else l.drop 1

/-- A REFER report handed over joins the queue with its live mark set; at 48 waiting, the oldest report whose live mark is
clear makes room (R181). -/
def State.handRefer (r : ReferReport) (s : State) : State :=
  if s.report.refer.length < 48 then
    s.modReport fun q => { q with refer := q.refer ++ [{ r with live := true }] }
  else
    (s.modReport fun q => { q with refer := pruneRefer q.refer ++ [{ r with live := true }] }).modLineCnt fun c =>
      { c with droppedRefer := bump c.droppedRefer }

/-- The live mark of a waiting report is cleared when the pocket it refers leaves REFERRED (R181). -/
def State.clearLive (pocket : Nat) (serial : Option Nat) (s : State) : State :=
  s.modReport fun q =>
    { q with refer := q.refer.map fun r => if r.pocket = pocket ∧ some r.serial = serial then { r with live := false } else r }

/-- The live marks of all waiting reports are cleared (R181, R189). -/
def Report.clearAllLive (q : Report) : Report := { q with refer := q.refer.map fun r => { r with live := false } }

/-- A LOT.END summary handed over joins the queue of 2; a third discards the oldest (R182). -/
def State.handLotEnd (r : LotEnd) (s : State) : State :=
  if s.report.lotEnd.length < 2 then s.modReport fun q => { q with lotEnd := q.lotEnd ++ [r] }
  else
    (s.modReport fun q => { q with lotEnd := q.lotEnd.drop 1 ++ [r] }).modLineCnt fun c =>
      { c with droppedLotEnd := bump c.droppedLotEnd }

/-! ### Replies (R172) -/

/-- The status of a reply (R172). -/
inductive Status where
  | ok | busy | notReady | badField | locked | tooLate | unknownType | badLength
  deriving DecidableEq, Repr

def Status.code : Status → Nat
  | .ok => 0
  | .busy => 1
  | .notReady => 2
  | .badField => 3
  | .locked => 4
  | .tooLate => 5
  | .unknownType => 6
  | .badLength => 7

/-- A reply carries the request's type plus 80H, its tag, the status and the fields (R166, R172). -/
def replyFrame (typ tag : Byte) (st : Status) (fields : List Byte) : Frame :=
  ⟨typ + 0x80#8, tag, le 1 st.code ++ fields⟩

/-- A reply is placed in the reply slot (R171). -/
def State.place (f : Frame) (s : State) : State := s.modReport fun q => { q with reply := some f }

/-- What an owner's rule makes of a request: its status and the fields that follow it. -/
structure Answer where
  status : Status
  fields : List Byte
  deriving DecidableEq, Repr

def Answer.ok (fields : List Byte) : Answer := ⟨.ok, fields⟩
def Answer.busy : Answer := ⟨.busy, []⟩
def Answer.notReady : Answer := ⟨.notReady, []⟩
/-- BAD_FIELD carries the ordinal of the first field that failed (R172). -/
def Answer.bad (ordinal : Nat) : Answer := ⟨.badField, le 1 ordinal⟩

/-- An owner's answer becomes the reply in the slot. -/
def State.answer (typ tag : Byte) (a : Answer) (s : State) : State := s.place (replyFrame typ tag a.status a.fields)

/-! ### Codings of reply fields (R177; log entries 11, 12, 31 and 32) -/

/-- An optional value: 00H or 01H, then the full width, 0 when absent. -/
def optBytes {α : Type} (width : Nat) (f : α → List Byte) : Option α → List Byte
  | some v => 0x01#8 :: f v
  | none => 0x00#8 :: List.replicate width 0#8

/-- A list: one count byte, then its items. -/
def listBytes {α : Type} (f : α → List Byte) (l : List α) : List Byte := le 1 l.length ++ eachBytes f l

/-! ### The transmitter (R179) -/

/-- A message that waits: the reply, the oldest REFER, an event kind, the oldest LOT.END, the oldest PART. -/
inductive Msg where
  | reply
  | refer
  | event (k : EventKind)
  | lotEnd
  | part
  deriving DecidableEq, Repr

/-- A kind may be taken when it is pending and unmasked (R185). -/
def Report.takeable (r : Report) (k : EventKind) : Bool := (r.event k).isSome && !r.masked k

/-- The messages present, in the order in which the transmitter takes them (R179). -/
def Report.waiting (r : Report) : List Msg :=
  (if r.reply.isSome then [.reply] else []) ++ (if r.refer.isEmpty then [] else [.refer]) ++
    (EventKind.all.filter r.takeable).map .event ++ (if r.lotEnd.isEmpty then [] else [.lotEnd]) ++
    (if r.part.isEmpty then [] else [.part])

/-- The transmitter takes a message: it leaves its slot, queue or pending entry, and its frame is being sent (R179). -/
def Report.take (r : Report) : Msg → Report
  | .reply => { r with tx := r.reply, reply := none }
  | .refer =>
    match r.refer with
    | [] => r
    | m :: ms => { r with tx := some (reportFrame 0xF2#8 m.payload), refer := ms }
  | .event k =>
    match r.event k with
    | none => r
    | some e =>
      { r with tx := some (reportFrame 0xF3#8 (eventPayload k e)), events := r.events.set (k.priority - 1) none }
  | .lotEnd =>
    match r.lotEnd with
    | [] => r
    | m :: ms => { r with tx := some (reportFrame 0xF4#8 m.payload), lotEnd := ms }
  | .part =>
    match r.part with
    | [] => r
    | m :: ms => { r with tx := some (reportFrame 0xF1#8 m.payload), part := ms }

/-- An idle transmitter takes one of the messages that have arrived in one step, at once. Where several arrive together,
either may be taken first (R179): a free choice (log entry 5). -/
def State.takeFrom (arrived : List Msg) (s : State) : State :=
  match s.report.tx with
  | some _ => s
  | none =>
    match arrived with
    | [] => s
    | [m] => s.modReport fun r => r.take m
    | ms => (s.modReport fun r => r.take (ms.getD (s.freeIndex ms.length) .reply)).chosen

/-- The messages that have arrived in a step are judged by the transmitter (R179). Every raise of the step comes before the
taking, so that a kind raised twice in one step is one report with count 2 and the first detail (log entry 35). -/
def State.transmit (s : State) : State := s.takeFrom s.report.waiting

/-- The event kinds of a list of messages, but for the first of them, left out. -/
def topEvent : List Msg → List Msg
  | [] => []
  | .event k :: ms => .event k :: ms.filter fun m => match m with
    | .event _ => false
    | _ => true
  | m :: ms => m :: topEvent ms

/-- The same after a change of the event mask: of several kinds unmasked together, the one of highest priority is judged
(R185). -/
def State.transmitTop (s : State) : State := s.takeFrom (topEvent s.report.waiting)

/-- The end of the frame being sent: the transmitter takes the first message present, or becomes IDLE (R179). -/
def State.frameSent (s : State) : State :=
  match s.report.tx with
  | none => s
  | some _ =>
    match s.report.waiting with
    | [] => s.modReport fun r => { r with tx := none }
    | m :: _ => s.modReport fun r => r.take m

end Sys2Proof.Machine
end

