-- ==== Sys2Proof/Machine/Accounts.lean ====
section
/-! DEFINITION. The chute accounts (R136, R137, R148, R149, R152), the release of places, jets switched off (R147), and the
retirement of lot slots (R113): what the events of other blocks ask of the Chute Unit and the Lot Store. -/

namespace Sys2Proof.Machine

/-! ### Chute states (R137) -/

/-- The derived states of a chute, in the order of R137. -/
inductive ChuteState where
  | unused | full | near | opened
  deriving DecidableEq, Repr

/-- Places taken: fill plus in-flight plus old-box count (R137). -/
def Chute.taken (c : Chute) : Nat := c.fill + c.inFlight + c.oldBox

/-- The derived state (R137). -/
def Chute.state (c : Chute) : ChuteState :=
  match c.cfg with
  | none => .unused
  | some g =>
    if c.taken = g.capacity then .full
    else if g.near ≤ c.taken ∧ c.taken < g.capacity then .near
    else .opened

/-- The event that a change of a chute's derived state raises (R137). -/
def chuteEvent (before after : ChuteState) : Option EventKind :=
  if after = .full ∧ before ≠ .full then some .chuteFull
  else if after = .near ∧ (before = .opened ∨ before = .unused) then some .chuteNear
  else none

/-- An update of chute c's entry, after which its state is judged again (R137). -/
def State.account (c : Nat) (f : Chute → Chute) (s : State) : State :=
  let t := s.modChute c f
  match chuteEvent (s.chute c).state (t.chute c).state with
  | some k => t.raise k (.chute c)
  | none => t

/-! ### Accounts at a finish and at an eject miss -/

/-- A place promised to a DECIDED pocket is released (R149). -/
def State.releasePlace (c : Nat) (s : State) : State :=
  s.account c fun e => { e with inFlight := e.inFlight - 1 }

/-- A part seen gone, or purged, leaves the old-box count if that is above 0; the fill stands (R149). -/
def State.confirmPart (c : Nat) (s : State) : State :=
  s.account c fun e => { e with oldBox := e.oldBox - 1 }

/-- The Chute Unit's part in a finish: what the pocket's chute field holds is released or confirmed (R149). -/
def State.settleAccounts (q : Nat) (s : State) : State :=
  match (s.pocket q).chute with
  | none => s
  | some c =>
    match (s.pocket q).state with
    | .decided => s.releasePlace c
    | .ejected => s.confirmPart c
    | .empty => s
    | .loaded => s
    | .measuring => s
    | .referred => s
    | .held => s

/-- The misses counter of the CHUTE group saturates at 65,535 (R136). -/
def bumpMisses (n : Nat) : Nat := satInc 65535 n

/-- The place of a missed part goes back from the old-box count, or else the fill, to in-flight (R148). -/
def missedPlace (e : Chute) : Chute :=
  if 0 < e.oldBox then
    { e with oldBox := e.oldBox - 1, inFlight := e.inFlight + 1, misses := bumpMisses e.misses }
  else
    { e with fill := e.fill - 1, inFlight := e.inFlight + 1, misses := bumpMisses e.misses }

/-! ### Jets -/

def Chute.pulsing (c : Chute) : Bool := c.jet.isSome

/-- How many jets are IN PULSE. -/
def State.pulsingCount (s : State) : Nat := s.chutes.countP Chute.pulsing

/-- An addition to a counter, saturating (R187). -/
def bumpBy (n more : Nat) : Nat := min counterTop (n + more)

/-- Every jet IN PULSE is switched off and counted as a jet cut (R147). -/
def State.cutJets (s : State) : State :=
  (s.modLineCnt fun c => { c with jetCuts := bumpBy c.jetCuts s.pulsingCount }).modChutes fun l =>
    l.map fun e => { e with jet := none }

/-! ### Retirement of a slot (R113) -/

/-- The LOT.END summary of a slot (R113). A slot that has run holds a definition and an activation number. -/
def State.lotEndOf (i : SlotId) (ending : LotEnding) (s : State) : Option LotEnd :=
  (s.slot i).definition.map fun d =>
    ⟨i, d.lotNumber, d.label, ending, (s.slot i).activation.getD 0, s.cal.working.number, (s.slot i).cnt⟩

/-- A slot that ran becomes FREE: its summary is handed on first (R113). -/
def State.retire (i : SlotId) (ending : LotEnding) (s : State) : State :=
  (match s.lotEndOf i ending with
    | some r => s.handLotEnd r
    | none => s).modSlot i fun _ => .freed

/-- The resident count of a slot falls by 1 at a finish, and a DRAINING slot left with none retires (R108, R113). -/
def State.dropResident (i : SlotId) (s : State) : State :=
  let t := s.modSlot i fun sl => { sl with resident := sl.resident - 1 }
  if (t.slot i).state = .draining ∧ (t.slot i).resident = 0 then t.retire i .drained else t

/-! ### Finishing a pocket (R22) -/

/-- The PART record formed from a pocket record as it stands (R22). -/
def State.partOf (q : Nat) (outcome : Finish) (s : State) : PartRecord :=
  let p := s.pocket q
  { serial := p.serial.getD 0, pocket := q, lotNumber := ((s.definitionOf p).map LotDef.lotNumber).getD 0, lap := p.lap,
    outcome := outcome, decision := p.decision, target := p.target, chute := p.chute, overflow := p.overflow,
    misses := p.misses, dropped := 0, attempts := p.attempts }

/-- The LINE counter of finishes for an outcome advances (R22). -/
def countFinish (outcome : Finish) (c : LineCounters) : LineCounters :=
  match outcome with
  | .sorted => { c with sorted := bump c.sorted }
  | .lost => { c with lost := bump c.lost }
  | .purged => { c with purged := bump c.purged }

/-- The resident count of the slot a pocket names, at its finish. -/
def State.dropResidentOf (slot : Option SlotId) (s : State) : State :=
  match slot with
  | some i => s.dropResident i
  | none => s

/-- A pocket's record ends (R22): the Chute Unit settles its accounts, the PART record is handed over, the slot's resident
count falls, the finish is counted, the record becomes EMPTY, and a waiting REFER report of it is no longer live (R181). -/
def State.finish (q : Nat) (outcome : Finish) (s : State) : State :=
  let p := s.pocket q
  let s1 := s.settleAccounts q
  let s2 := s1.handPart (s1.partOf q outcome)
  let s3 := s2.dropResidentOf p.slot
  let s4 := s3.modLineCnt (countFinish outcome)
  let s5 := s4.modPocket q fun _ => .emptied
  if p.state = .referred then s5.clearLive q p.serial else s5

end Sys2Proof.Machine
end

