-- ==== Sys2Proof/Machine/LineCore.lean ====
section
/-! DEFINITION. The Line Controller's shared moves (02_line_control_and_the_index_handshake.md): entry to STOPPING and
STOPPED, the judgement of the dwell work, LOADOK, and the commit of a pocket with its effect on the line (R142, R40). -/

namespace Sys2Proof.Machine

/-! ### Stopping -/

/-- Entry to STOPPED (R41). -/
def State.enterStopped (s : State) : State :=
  s.modLine fun l =>
    { l with state := .stopped, phase := restPhase s.pins.motion, ready := false, loadOk := false, budget := none,
             stallTimer := none }

/-- A RUN or DRAIN line becomes STOPPING: LOADOK and READY fall, and with no dwell work open it is STOPPED at once
(R39, R40, R41). -/
def State.enterStopping (s : State) : State :=
  let t := s.modLine fun l => { l with state := .stopping, ready := false, loadOk := false, stallTimer := none }
  if s.line.phase = .waiting then t.enterStopped else t

/-- CHUTE_BLOCKED acts on the line (R40). -/
def State.lineBlocked (s : State) : State := if s.line.state.worked then s.enterStopping else s

/-! ### Dwell work (R34) -/

/-- A channel job is running. -/
def State.jobRunning (s : State) : Bool := s.chanA.job.isSome || s.chanB.job.isSome

/-- The dwell work is done: no jet pulse, no job, an empty request set (R34). -/
def State.dwellDone (s : State) : Bool := s.pulsingCount == 0 && !s.jobRunning && s.sched.requests.isEmpty

/-- The stall timer that starts with a rise of READY, if its limit is not 0 (R38). -/
def stallStart (l : LineCtl) : Option Nat := if l.stallLimitMs = 0 then none else some (ms l.stallLimitMs)

/-- READY rises and the stall timer starts (R34, R38). -/
def raiseReady (l : LineCtl) : LineCtl := { l with ready := true, stallTimer := stallStart l }

/-- The dwell work is judged (R34): when it is done in a WORKING phase, the phase becomes WAITING and the budget stops;
in RUN and DRAIN READY rises; in STOPPING the line becomes STOPPED. -/
def State.judgeDwell (s : State) : State :=
  if s.line.phase = .working ∧ s.dwellDone = true then
    let t := s.modLine fun l => { l with phase := .waiting, budget := none }
    match s.line.state with
    | .run => t.modLine raiseReady
    | .drain => t.modLine raiseReady
    | .stopping => t.enterStopped
    | .idle => t
    | .stopped => t
    | .faulted => t
  else s

/-! ### LOADOK (R35) -/

/-- The pocket at LOAD is fit for a part (R35). -/
def State.loadFit (s : State) : Bool :=
  s.line.state == .run && (s.pocket (s.track.pocketAt 0)).state == .empty &&
    (s.activeSlot.isSome || s.pendingSlot.isSome)

/-- The LOADOK judgement (R35): if it passes, LOADOK is asserted and the load-permit memory set (R14). -/
def State.judgeLoadOk (s : State) : State :=
  if s.loadFit then
    (s.modLine fun l => { l with loadOk := true }).modTrack fun t => { t with loadPermit := true }
  else s

/-! ### Commit (R141, R142) -/

/-- Chute c can take a pocket that stands at position pos: configured, not FULL, and ahead of it (R141). -/
def State.canTake (s : State) (c pos : Nat) : Bool :=
  match (s.chute c).cfg with
  | none => false
  | some g => (s.chute c).state != .full && (pos < g.ejectPos || s.track.checkPos < pos)

/-- The pocket is committed to chute c and becomes DECIDED; c's in-flight rises by 1 (R142). -/
def State.commitTo (q c : Nat) (overflow : Bool) (s : State) : State :=
  (s.modPocket q fun p => { p with state := .decided, chute := some c, overflow := overflow }).account c fun e =>
    { e with inFlight := e.inFlight + 1 }

/-- The pocket is held: HELD, no chute, CHUTE_BLOCKED raised with the target, and the line takes it (R142 step 3). -/
def State.holdPocket (q t : Nat) (s : State) : State :=
  ((s.modPocket q fun p => { p with state := .held, chute := none, overflow := false }).raise .chuteBlocked
    (.chute t)).lineBlocked

/-- The overflow-commit counter advances (R142 step 2). -/
def countOverflow (c : LotCounters) : LotCounters := { c with overflow := bump c.overflow }

/-- The target's alternate, if it has one (R142 step 2). -/
def State.alternateOf (s : State) (c : Nat) : Option Nat := (s.chute c).cfg.bind ChuteCfg.alternate

/-- A commit of pocket q to target t: the target, then its alternate, else the pocket is held (R142). -/
def State.commit (q t : Nat) (s : State) : State :=
  let pos := s.track.positionOf q
  if s.canTake t pos then s.commitTo q t false
  else match s.alternateOf t with
    | some a => if s.canTake a pos then (s.commitTo q a true).bumpLotOf q countOverflow else s.holdPocket q t
    | none => s.holdPocket q t

/-- The commit of one HELD pocket is retried with the same target (R144). -/
def State.retryPocket (s : State) (q : Nat) : State :=
  match (s.pocket q).state, (s.pocket q).target with
  | .held, some t => s.commit q t
  | _, _ => s

/-- Every HELD pocket is retried, in pocket-number order (R144). -/
def State.retryHeld (s : State) : State := (List.range s.track.pockets.length).foldl State.retryPocket s

end Sys2Proof.Machine
end

