-- ==== Sys2Proof/Machine/Jobs.lean ====
section
/-! DEFINITION. The end of a job (R67, R70): relays opened, the attempt recorded and charged (R82, R83), the check counted
(R164); the abort of a job; and fault entry, which cuts both jobs (R45, R46). -/

namespace Sys2Proof.Machine

/-! ### Ending a job at the channel -/

/-- The channel's part in every job end: relays open, relay settle timer stopped, no job, job state IDLE
(R67 steps 1 and 5, R70 steps 1, 2 and 4). POL and RANGE hold their values. -/
def Channel.endJob (c : Channel) : Channel :=
  { c with relay := .open, relayTimer := none, job := none, jobState := .idle }

def Sched.clearGrant (ch : Chan) (s : Sched) : Sched :=
  match ch with
  | .A => { s with grantA := none }
  | .B => { s with grantB := none }

/-- A job ends: the channel is cleared and the grant record returns to none (R74, R82). -/
def State.endJob (ch : Chan) (s : State) : State :=
  (s.modChan ch Channel.endJob).modSched (Sched.clearGrant ch)

/-! ### Recording an attempt -/

/-- The CHAN jobs counter under an outcome advances (R82). -/
def countJob (o : JobOutcome) (c : ChanCounters) : ChanCounters :=
  match o with
  | .accepted => { c with accepted := bump c.accepted }
  | .unstable => { c with unstable := bump c.unstable }
  | .contactLost => { c with contactLost := bump c.contactLost }
  | .sourceFault => { c with sourceFault := bump c.sourceFault }
  | .linkError => { c with linkError := bump c.linkError }
  | .stall => { c with stall := bump c.stall }
  | .cut => { c with cut := bump c.cut }

/-- Outcomes that belong to the part or its contacts and use a retry (R83). -/
def JobOutcome.charged : JobOutcome → Bool
  | .unstable => true
  | .contactLost => true
  | .sourceFault => true
  | .accepted => false
  | .linkError => false
  | .stall => false
  | .cut => false

/-- A charged failure decreases the retries left, unless unlimited, and sets exhausted at 0 (R83). -/
def Pocket.charge (p : Pocket) : Pocket :=
  match p.retries with
  | none => p
  | some r => { p with retries := some (r - 1), exhausted := p.exhausted || r - 1 == 0 }

/-- An attempt entry is appended last and charged by its outcome (R82, R83). -/
def Pocket.addAttempt (a : Attempt) (p : Pocket) : Pocket :=
  let p' := { p with attempts := p.attempts ++ [a] }
  if a.outcome.charged then p'.charge else p'

/-- The scheduler records the end of a station job: the attempt at the pocket, the outcome in the CHAN jobs counter (R82). -/
def State.recordAttempt (q : Nat) (a : Attempt) (s : State) : State :=
  (s.modPocket q (Pocket.addAttempt a)).modChan a.chan fun c => { c with cnt := countJob a.outcome c.cnt }

/-- The CHAN checks counter advances at each end of a check job with an outcome (R164). -/
def countCheck (c : ChanCounters) : ChanCounters := { c with checks := bump c.checks }

/-! ### Abort (R70) -/

/-- A running job is aborted with an outcome (R70); without a job nothing happens. Whether the channel is offered to the
scheduler again is the caller's. -/
def State.abortJob (ch : Chan) (o : JobOutcome) (s : State) : State :=
  match (s.chan ch).job with
  | none => s
  | some j =>
    let t := s.endJob ch
    match j.kind with
    | .station i q g => t.recordAttempt q ⟨i, ch, g, o, none, none⟩
    | .check => t.modChan ch fun c => { c with cnt := countCheck c.cnt }

/-- The request set is emptied without a NO TIME count (R86). -/
def State.emptyRequests (s : State) : State := s.modSched fun r => { r with requests := [] }

/-- The end of a dwell's measuring work: the set is emptied and running jobs end CUT (R71, R86). -/
def State.cutDwell (s : State) : State := (s.emptyRequests.abortJob .A .cut).abortJob .B .cut

/-! ### Faults (R45, R46) -/

/-- The Line Controller's own part in fault entry (R45). -/
def faultedLine (motion : Bool) (k : FaultKind) (d : Detail) (l : LineCtl) : LineCtl :=
  { l with state := .faulted, phase := restPhase motion, ready := false, loadOk := false, fault := true, budget := none,
           motionTimer := none, stallTimer := none, firstFault := some (k, d), laterFaults := [] }

/-- Fault entry (R45). -/
def State.faultEntry (k : FaultKind) (d : Detail) (s : State) : State :=
  (((s.modLine (faultedLine s.pins.motion k d)).cutDwell).cutJets).raise k.event d

/-- A later fault joins the set, if not already there (R46). -/
def addLater (k : FaultKind) (l : LineCtl) : LineCtl :=
  if k ∈ l.laterFaults then l else { l with laterFaults := l.laterFaults ++ [k] }

/-- A fault is raised: fault entry in RUN, DRAIN, STOPPING and STOPPED (R45); its event, and in FAULTED the set of later
faults, otherwise (R46). -/
def State.raiseFault (k : FaultKind) (d : Detail) (s : State) : State :=
  match s.line.state with
  | .run => s.faultEntry k d
  | .drain => s.faultEntry k d
  | .stopping => s.faultEntry k d
  | .stopped => s.faultEntry k d
  | .faulted => (s.raise k.event d).modLine (addLater k)
  | .idle => s.raise k.event d

end Sys2Proof.Machine
end

