-- ==== Sys2Proof/Machine/Decision.lean ====
section
/-! DEFINITION. The Decision Unit (07_class_decision_and_the_grade_ladder.md): the judgement of an ACCEPTED result, the
referral, and the decision position. -/

namespace Sys2Proof.Machine

/-! ### Limits, narrowed and widened (R120) -/

/-- d falls in a class. -/
def inClass (d : Int) (c : ClassSpec) : Bool := withinInt c.lower c.upper d

/-- d falls in a class narrowed by G. -/
def inNarrowed (d : Int) (g : Nat) (c : ClassSpec) : Bool := withinInt (c.lower + g) (c.upper - g) d

/-- A class is certainly excluded for d and G. -/
def excluded (d : Int) (g : Nat) (c : ClassSpec) : Bool := d < c.lower - g || c.upper + g < d

/-- The number, from 1, of the first class in table order that passes a test. -/
def firstClass (test : ClassSpec → Bool) (cs : List ClassSpec) : Option Nat := (cs.findIdx? test).map (· + 1)

/-- The class of a number, from 1. -/
def LotDef.classAt (d : LotDef) (j : Nat) : ClassSpec := d.classes.getD (j - 1) ⟨0, 0, 0⟩

/-- The grade of a number, from 1. -/
def LotDef.gradeAt (d : LotDef) (g : Nat) : GradeSpec := d.grades.getD (g - 1) ⟨0, 0⟩

/-! ### What a judgement comes to -/

/-- The judgement of an ACCEPTED result (R122 to R125). -/
inductive Judgement where
  /-- Class j decides. -/
  | cls (j : Nat) (source : Source)
  /-- NO CLASS. -/
  | noClass (source : Source)
  /-- Undecided: measured again at the next grade. -/
  | undecided
  deriving DecidableEq, Repr

/-- The final judgement (R122). -/
def finalJudgement (def_ : LotDef) (d : Int) : Judgement :=
  match firstClass (inClass d) def_.classes with
  | some j => .cls j .final
  | none => .noClass .final

/-- The guarded judgement (R123, R124). -/
def guardedJudgement (def_ : LotDef) (d : Int) (g : Nat) : Judgement :=
  if def_.classes.all (excluded d g) then .noClass .early
  else match firstClass (inNarrowed d g) def_.classes with
    | none => .undecided
    | some j =>
      match def_.mode with
      | .downgrade => .cls j .early
      | .preserve => if (def_.classes.take (j - 1)).all (excluded d g) then .cls j .early else .undecided

/-- The judgement of a result with deviation d and marks at a grade (R119). -/
def judgement (def_ : LotDef) (d : Int) (m : Marks) (grade : Nat) : Judgement :=
  if m.overRange || (def_.gradeAt grade).guard == 0 then finalJudgement def_ d
  else guardedJudgement def_ d (def_.gradeAt grade).guard

/-! ### Lot counters (R135) -/

def countClass (j : Nat) (c : LotCounters) : LotCounters := { c with perClass := c.perClass.modify (j - 1) bump }
def countNoClass (c : LotCounters) : LotCounters := { c with noClass := bump c.noClass }

/-- Early decisions are counted at their grade. -/
def countEarly (source : Source) (grade : Nat) (c : LotCounters) : LotCounters :=
  if source = .early then { c with early := c.early.modify (grade - 1) bump } else c

def countReferred (c : LotCounters) : LotCounters := { c with refMade := bump c.refMade }
def countAnswered (c : LotCounters) : LotCounters := { c with refAnswered := bump c.refAnswered }
def countLate (c : LotCounters) : LotCounters := { c with refLate := bump c.refLate }
def countDefaulted (c : LotCounters) : LotCounters := { c with refDefaulted := bump c.refDefaulted }
def countUnmeasured (c : LotCounters) : LotCounters := { c with unmeasured := bump c.unmeasured }
def countUnfinished (c : LotCounters) : LotCounters := { c with unfinished := bump c.unfinished }
def countFallback (c : LotCounters) : LotCounters := { c with fallback := bump c.fallback }

/-! ### Writing a decision (R121) -/

/-- Decision and target are written, the lot counters advanced, and the commit asked (R121). -/
def State.decide (q : Nat) (dec : Decision) (target : Nat) (count : LotCounters → LotCounters) (s : State) : State :=
  ((s.modPocket q fun p => { p with decision := some dec, target := some target }).bumpLotOf q count).commit q target

/-- The REFER report of a pocket (R127). -/
def State.referOf (q grade : Nat) (d : Int) (s : State) : ReferReport :=
  { serial := (s.pocket q).serial.getD 0, pocket := q, slot := (s.pocket q).slot.getD .s0, grade := grade, deviation := d,
    positionsLeft := s.track.decidePos - s.track.positionOf q, live := true }

/-- A NO CLASS pocket is referred: REFERRED, the decision standing and no target; the report is handed on (R126, R127). -/
def State.refer (q : Nat) (dec : Decision) (grade : Nat) (d : Int) (count : LotCounters → LotCounters)
    (s : State) : State :=
  let t := (s.modPocket q fun p => { p with state := .referred, decision := some dec }).bumpLotOf q count
  (t.handRefer (t.referOf q grade d)).bumpLotOf q countReferred

/-- An undecided result raises the next grade and makes the pocket MEASURING (R125). -/
def State.escalate (q grade : Nat) (s : State) : State :=
  s.modPocket q fun p => { p with state := .measuring, nextGrade := grade + 1 }

/-- A judgement is carried out for pocket q (R121, R125, R126). -/
def State.applyJudgement (q grade : Nat) (d : Int) (def_ : LotDef) (j : Judgement) (s : State) : State :=
  match j with
  | .cls n src =>
    s.decide q ⟨some n, src, some grade⟩ (def_.classAt n).chute (countEarly src grade ∘ countClass n)
  | .noClass src =>
    if def_.referral then s.refer q ⟨none, src, some grade⟩ grade d (countEarly src grade ∘ countNoClass)
    else s.decide q ⟨none, src, some grade⟩ def_.rejectChute (countEarly src grade ∘ countNoClass)
  | .undecided => s.escalate q grade

/-- A pocket whose ACCEPTED result is judged: LOADED or MEASURING with no decision (R119). -/
def Pocket.judged (p : Pocket) : Bool := (p.state == .loaded || p.state == .measuring) && p.decision.isNone

/-- An ACCEPTED result is handed to the Decision Unit (R84, R119). -/
def State.judgeAccepted (q grade : Nat) (d : Int) (m : Marks) (s : State) : State :=
  let p := s.pocket q
  match s.definitionOf p with
  | some def_ => if p.judged then s.applyJudgement q grade d def_ (judgement def_ d m grade) else s
  | none => s

/-! ### The decision position (R131 to R134) -/

/-- A decision's source replaced; class and grade kept (R129, R131). -/
def resource (src : Source) : Option Decision → Option Decision
  | some d => some { d with source := src }
  | none => some ⟨none, src, none⟩

/-- A REFERRED pocket leaves REFERRED with a target: the source replaced, the report no longer live, the commit asked
(R129, R131, R181). -/
def State.answerReferral (q target : Nat) (src : Source) (count : LotCounters → LotCounters) (s : State) : State :=
  (((s.modPocket q fun p => { p with decision := resource src p.decision, target := some target }).clearLive q
    (s.pocket q).serial).bumpLotOf q count).commit q target

/-- The latest ACCEPTED attempt, the last in list order (R133). -/
def Pocket.latestAccepted (p : Pocket) : Option Attempt :=
  p.attempts.reverse.find? fun a => a.outcome == .accepted

/-- CLASSIFY-LAST: the final judgement of the latest ACCEPTED attempt, with source FALLBACK (R133). -/
def State.classifyLast (q : Nat) (def_ : LotDef) (s : State) : State :=
  match (s.pocket q).latestAccepted with
  | none => s
  | some a =>
    match firstClass (inClass (a.deviation.getD 0)) def_.classes with
    | some j =>
      s.decide q ⟨some j, .fallback, some a.grade⟩ (def_.classAt j).chute (countFallback ∘ countClass j)
    | none => s.decide q ⟨none, .fallback, some a.grade⟩ def_.rejectChute (countFallback ∘ countNoClass)

/-- The default of a MEASURING pocket, by the slot's fallback (R133). -/
def State.defaultMeasuring (q : Nat) (def_ : LotDef) (s : State) : State :=
  match def_.fallback with
  | .classifyLast => s.classifyLast q def_
  | .retest => s.decide q ⟨none, .unfinished, none⟩ def_.retestChute countUnfinished

/-- The pocket leaving DECIDE is handed to the decision-position rule (R134). -/
def State.leaveDecide (q : Nat) (s : State) : State :=
  match s.definitionOf (s.pocket q) with
  | none => s
  | some def_ =>
    match (s.pocket q).state with
    | .referred => s.answerReferral q def_.rejectChute .referDefault countDefaulted
    | .loaded => s.decide q ⟨none, .unmeasured, none⟩ def_.retestChute countUnmeasured
    | .measuring => s.defaultMeasuring q def_
    | .empty => s
    | .decided => s
    | .held => s
    | .ejected => s

end Sys2Proof.Machine
end

