-- ==== Sys2Proof/Machine/Scheduler.lean ====
section
/-! DEFINITION. The Station Scheduler (04_measurement_scheduling.md): the request set formed at a settle, the NO TIME drops,
the grant passes and the grant, and the due checks of the Calibration Store (R163). -/

namespace Sys2Proof.Machine

/-! ### Due checks (R163) -/

/-- The due check named for a channel: a check on the ACTIVE range when its trim is absent or its flag set (R163). -/
def State.dueCheck (s : State) (ch : Chan) : Option Nat :=
  match s.activeRange with
  | none => none
  | some r => if (s.cal.trim ch r).isNone || s.cal.flag ch then some r else none

/-! ### Forming the request set (R75, R76) -/

/-- A pocket for which a station raises a request (R75). -/
def Pocket.wants (p : Pocket) (station : Nat) : Bool :=
  (p.state == .loaded || p.state == .measuring) && p.lap == 1 && !p.exhausted &&
    p.attempts.all fun a => a.station != station

/-- The request of station i, 1..n, for the pocket that stands there, if it raises one (R75). -/
def State.stationRequest (s : State) (i : Nat) : Option SchedReq :=
  let q := s.track.pocketAt (s.track.stations.getD (i - 1) 0)
  let p := s.pocket q
  match p.slot, s.definitionOf p with
  | some sl, some d =>
    if p.wants i then some (.station i q sl p.nextGrade (d.gradeAt p.nextGrade).samples d.range) else none
  | _, _ => none

/-- The check request of a channel: its due check, unless it is SUSPECT (R76). -/
def State.checkRequest (s : State) (ch : Chan) : Option SchedReq :=
  if (s.chan ch).service = .suspect then none else (s.dueCheck ch).map (.check ch)

/-- The station numbers 1..n. -/
def Track.stationNumbers (t : Track) : List Nat := (List.range t.stations.length).map (· + 1)

/-- The request set formed at a settle in RUN or DRAIN (R75, R76). -/
def State.formRequests (s : State) : State :=
  s.modSched fun r =>
    { r with requests :=
        s.track.stationNumbers.filterMap s.stationRequest ++ [Chan.A, Chan.B].filterMap s.checkRequest }

/-! ### Expected duration and fit (R77, R78) -/

/-- Expected duration of n samples per polarity on a channel, in microseconds (R77). -/
def Channel.expected (c : Channel) (n : Nat) : Nat :=
  100 * c.relaySettle + (2 * c.settleFrames + 2 * n) * c.framePeriod

/-- The sample count of a request: 64 for a check (R74). -/
def SchedReq.samples : SchedReq → Nat
  | .station _ _ _ _ n _ => n
  | .check _ _ => 64

/-- The channels a request may run on: a check on its own alone (R78). -/
def SchedReq.suits (r : SchedReq) (ch : Chan) : Bool :=
  match r with
  | .station _ _ _ _ _ _ => true
  | .check c _ => c == ch

/-- The time left on the dwell budget, in microseconds. -/
def State.timeLeft (s : State) : Nat := s.line.budget.getD 0

/-- A request fits a channel: it may run there and its expected duration is not greater than the time left (R78). -/
def State.fits (s : State) (ch : Chan) (r : SchedReq) : Bool :=
  r.suits ch && (s.chan ch).expected r.samples ≤ s.timeLeft

/-- A request that is kept: it fits a channel it may run on; a station request one that is not SUSPECT (R78). -/
def State.keeps (s : State) (r : SchedReq) : Bool :=
  match r with
  | .station _ _ _ _ _ _ =>
    (s.chanA.service != .suspect && s.fits .A r) || (s.chanB.service != .suspect && s.fits .B r)
  | .check ch _ => s.fits ch r

/-- The channel a NO TIME drop is counted on: a check's own; for a station the one on which its expected duration is
shorter, or A where the two are equal (R78). -/
def State.dropChannel (s : State) (r : SchedReq) : Chan :=
  match r with
  | .station _ _ _ _ n _ => if s.chanB.expected n < s.chanA.expected n then .B else .A
  | .check ch _ => ch

/-- The CHAN NO TIME counter advances (R78). -/
def countNoTime (c : ChanCounters) : ChanCounters := { c with noTime := bump c.noTime }

/-- One NO TIME drop counted (R78). -/
def State.noTime (s : State) (r : SchedReq) : State :=
  s.modChan (s.dropChannel r) fun c => { c with cnt := countNoTime c.cnt }

/-- The NO TIME drops of a review (R78, R79). -/
def State.dropLate (s : State) : State :=
  ((s.sched.requests.filter fun r => !s.keeps r).foldl State.noTime s).modSched fun q =>
    { q with requests := q.requests.filter s.keeps }

/-! ### Order of a grant pass (R80) -/

/-- The keys of R80, smallest first: own check, stations remaining after the request's, higher grade, lower station. -/
def reqKey (n : Nat) : SchedReq → List Int
  | .check _ _ => [0]
  | .station i _ _ g _ _ => [1, (n : Int) - i, -(g : Int), i]

/-- A key list comes strictly before another. -/
def keyBefore : List Int → List Int → Bool
  | [], [] => false
  | [], _ :: _ => true
  | _ :: _, [] => false
  | a :: as, b :: bs => if a < b then true else if b < a then false else keyBefore as bs

/-- The first of a list of requests in the order of R80. -/
def firstRequest (n : Nat) : List SchedReq → Option SchedReq
  | [] => none
  | r :: rs =>
    match firstRequest n rs with
    | none => some r
    | some b => if keyBefore (reqKey n b) (reqKey n r) then some b else some r

/-! ### Grant (R81, R63) -/

/-- The job record formed at a grant (R63). -/
def newJob (kind : JobKind) (n range : Nat) : Job :=
  { kind := kind, n := n, range := range, phaseCount := 0, sdp := 0, srp := 0, sdn := 0, srn := 0, dutClipped := false,
    refClipped := false, errRun := 0 }

/-- The job a request is granted as, with its relay connection and grant record (R63, R81). -/
def SchedReq.job : SchedReq → Job × Relay × Grant
  | .station i q _ g n r => (newJob (.station i q g) n r, .station i, .station i q g r)
  | .check _ r => (newJob .check 64 r, .check, .check r)

/-- The channel takes a grant: the job record, RANGE, the relay connection, CONNECTING with the relay settle timer (R63). -/
def Channel.connect (j : Job) (relay : Relay) (c : Channel) : Channel :=
  { c with job := some j, range := j.range, relay := relay, jobState := .connecting,
           relayTimer := some (100 * c.relaySettle) }

def Sched.setGrant (ch : Chan) (g : Grant) (s : Sched) : Sched :=
  match ch with
  | .A => { s with grantA := some g }
  | .B => { s with grantB := some g }

/-- A grant removes the request, writes the grant record and hands the channel its job (R81). -/
def State.grant (ch : Chan) (r : SchedReq) (s : State) : State :=
  (s.modSched fun q => Sched.setGrant ch r.job.2.2 { q with requests := q.requests.erase r }).modChan ch
    (Channel.connect r.job.1 r.job.2.1)

/-- A channel that may be granted a job: IN_SERVICE with job state IDLE (R79). -/
def Channel.free (c : Channel) : Bool := c.service == .inService && c.jobState == .idle

/-- A grant pass for a channel: the first request in its order that fits it is granted (R80). -/
def State.grantPass (ch : Chan) (s : State) : State :=
  if (s.chan ch).free then
    match firstRequest s.track.stations.length (s.sched.requests.filter (s.fits ch)) with
    | some r => s.grant ch r
    | none => s
  else s

/-- A review of the request set: nothing on an empty set; else the NO TIME drops, then A's pass, then B's (R79). -/
def State.review (s : State) : State :=
  if s.sched.requests.isEmpty then s else (s.dropLate.grantPass .A).grantPass .B

/-- A review, after which the Line Controller judges the dwell work (R79, R34). -/
def State.offer (s : State) : State := s.review.judgeDwell

/-- A channel's check request leaves the set at its entry to SUSPECT, uncounted (R85). -/
def State.withdrawCheck (ch : Chan) (s : State) : State :=
  s.modSched fun q => { q with requests := q.requests.filter fun r =>
    match r with
    | .station _ _ _ _ _ _ => true
    | .check c _ => c != ch }

end Sys2Proof.Machine
end

