-- ==== Sys2Proof/Machine/Channel.lean ====
section
/-! DEFINITION. The Measurement Channels (03_measurement_channels_and_converter_links.md): the converter frame and its
receiver, the watchdog and resynchronisation, the job, its completion, and the channel requests. -/

namespace Sys2Proof.Machine

/-! ### The converter frame (R53, R177) -/

/-- The content of a whole converter frame: codes, lead flags all set, polarity echo. -/
structure Sample where
  dut : Int
  ref : Int
  leads : Bool
  echo : Polarity
  deriving DecidableEq, Repr

/-- A frame as the receiver takes it (R53). -/
inductive Taken where
  | short
  | long
  | whole (f : Sample)
  deriving DecidableEq, Repr

/-- Bits, most significant first, as a number. -/
def msbNat (bs : List Bool) : Nat := bs.foldl (fun n b => 2 * n + (if b then 1 else 0)) 0

/-- A 24-bit code in two's complement, most significant bit first (R177). -/
def code24 (bs : List Bool) : Int :=
  let n := msbNat bs
  if n < 8388608 then (n : Int) else (n : Int) - 16777216

/-- The fields of the 64 bit periods after a sync (R177). -/
def parseSample (bs : List Bool) : Sample :=
  { dut := code24 (bs.take 24)
    ref := code24 ((bs.drop 24).take 24)
    leads := ((bs.drop 48).take 4).all id
    echo := if bs.getD 52 false then .negative else .positive }

/-- A clipped sample: a code at an end of its scale (section 3.3 of 03). -/
def clipped (code : Int) : Bool := code == -8388608 || code == 8388607

/-! ### The receiver (R53) -/

/-- A sync: a strict receiver's held frame is taken, one with fewer than 64 bits is a short frame; the sync begins the
next frame under the setting now in force (R52, R53). -/
def syncTaken : Receiver → Option Taken
  | .waiting => none
  | .counting _ bits => if bits.length < 64 then some .short else some (.whole (parseSample bits))

/-- A bit: ignored while waiting; with strict off the 64th is taken; with strict on the 65th makes a long frame (R53). -/
def Receiver.bit (b : Bool) : Receiver → Receiver × Option Taken
  | .waiting => (.waiting, none)
  | .counting strict bits =>
    if bits.length < 64 then
      if !strict && bits.length + 1 == 64 then (.waiting, some (.whole (parseSample (bits ++ [b]))))
      else (.counting strict (bits ++ [b]), none)
    else (.waiting, some .long)

/-- One symbol of the converter link at a receiver (R53). -/
def Receiver.symbol (strictNow : Bool) (r : Receiver) : LinkSymbol → Receiver × Option Taken
  | .sync => (.counting strictNow [], syncTaken r)
  | .bit b => r.bit b

/-! ### Judgement of a taken frame (R54) -/

/-- The three kinds of errored frame (R54). -/
inductive FrameError where
  | short | long | polarity
  deriving DecidableEq, Repr

/-- The channel is in a sample phase. -/
def JobState.sampling : JobState → Bool
  | .samplePos => true
  | .sampleNeg => true
  | .idle => false
  | .connecting => false
  | .settlePos => false
  | .settleNeg => false

/-- The frame's error, if it is errored: short, long, or a polarity echo that differs in a sample phase (R54). -/
def Channel.frameError (c : Channel) : Taken → Option FrameError
  | .short => some .short
  | .long => some .long
  | .whole f => if c.jobState.sampling && f.echo != c.pol then some .polarity else none

/-- The CHAN counter of frame errors of a kind advances (R54). -/
def countError (e : FrameError) (c : ChanCounters) : ChanCounters :=
  match e with
  | .short => { c with short := bump c.short }
  | .long => { c with long := bump c.long }
  | .polarity => { c with polarity := bump c.polarity }

def countErrorOpt : Option FrameError → ChanCounters → ChanCounters
  | some e, c => countError e c
  | none, c => c

/-! ### Service states -/

/-- The watchdog restarts with its full limit at every frame taken, while it runs (R55). -/
def Channel.restartWatchdog (c : Channel) : Channel :=
  { c with watchdog := c.watchdog.map fun _ => c.watchdogLimit }

/-- Entry to IN_SERVICE: the run is 0 and the watchdog starts (R55, R56, R60). -/
def Channel.enterService (c : Channel) : Channel :=
  { c with service := .inService, goodRun := 0, watchdog := some c.watchdogLimit }

/-- Entry to STALLED: the watchdog stops, the receiver waits for sync, the run is 0 (R55, R57). -/
def Channel.enterStalled (c : Channel) : Channel :=
  { c with service := .stalled, goodRun := 0, watchdog := none, receiver := .waiting }

/-- NO_CHANNEL is judged at a channel's entry to SUSPECT (R61). -/
def State.judgeNoChannel (ch : Chan) (s : State) : State :=
  if (s.chan (chanOther ch)).service = .suspect ∧ s.line.state.underWay = true then s.raiseFault .noChannel .none else s

/-- Entry to SUSPECT (R58, R85): the source-fault run is 0, the watchdog stops, CHANNEL_SUSPECT is raised, the channel's
check request leaves the set, and NO_CHANNEL is judged. -/
def State.enterSuspect (ch : Chan) (s : State) : State :=
  (((s.modChan ch fun c => { c with service := .suspect, srcRun := 0, goodRun := 0, watchdog := none }).raise
    .channelSuspect (.channel ch)).withdrawCheck ch).judgeNoChannel ch

/-- The source-fault run is judged at the end of a completed job; at 3 the channel enters SUSPECT (R59). -/
def State.judgeSource (ch : Chan) (faulted : Bool) (s : State) : State :=
  let run := if faulted then (s.chan ch).srcRun + 1 else 0
  let t := s.modChan ch fun c => { c with srcRun := run }
  if 3 ≤ run then t.enterSuspect ch else t

/-! ### Completion (R67) -/

/-- The attempt of a completed station job (R82). -/
def resultAttempt (i : Nat) (ch : Chan) (g : Nat) : StationResult → Attempt
  | .sourceFault => ⟨i, ch, g, .sourceFault, none, none⟩
  | .measured o d m => ⟨i, ch, g, o, some d, some m⟩

/-- The Deviation Unit's result of a station job for pocket q, from its inputs as they stand (R87, R88). Without a lot
definition, which an occupied pocket never lacks, there is nothing to measure against. -/
def State.stationResultOf (s : State) (ch : Chan) (q : Nat) (j : Job) : StationResult :=
  match s.definitionOf (s.pocket q) with
  | none => .sourceFault
  | some d => stationResult (s.cal.working.pair j.range).rref d s.temp.record (s.cal.trim ch j.range) j

/-- An ACCEPTED result is handed to the Decision Unit; an UNSTABLE one is not (R84). -/
def State.handResult (q g : Nat) (r : StationResult) (s : State) : State :=
  match r with
  | .measured .accepted d m => s.judgeAccepted q g d m
  | _ => s

/-- The completion of a station job (R67 steps 3 to 5). -/
def State.completeStation (ch : Chan) (i q g : Nat) (r : StationResult) (s : State) : State :=
  ((s.judgeSource ch (r == .sourceFault)).recordAttempt q (resultAttempt i ch g r)).handResult q g r

/-- The trims set of a channel: the entry of range r takes the check deviation and the present k (R161, R164). -/
def Cal.takeTrim (ch : Chan) (r : Nat) (v : Int) (k : Nat) (c : Cal) : Cal :=
  if r = 0 then c else c.setTrims ch ((c.trims ch).set (r - 1) (some ⟨v, k⟩))

/-- The CHAN trims counter advances (R164). -/
def countTrim (c : ChanCounters) : ChanCounters := { c with trims := bump c.trims }

/-- A check within the drift limit: the trim is set, the periodic flag cleared, the trims counter advances (R164). -/
def State.acceptTrim (ch : Chan) (r : Nat) (v : Int) (s : State) : State :=
  (s.modCal fun c => (c.takeTrim ch r v s.track.k).setFlag ch false).modChan ch fun c => { c with cnt := countTrim c.cnt }

/-- The completion of a check job (R102, R164). -/
def State.completeCheck (ch : Chan) (r : Nat) (result : Option Int) (s : State) : State :=
  let t := s.modChan ch fun c => { c with cnt := countCheck c.cnt }
  match result with
  | none => t.judgeSource ch true
  | some v =>
    let u := t.judgeSource ch false
    if v.natAbs ≤ u.shared.driftLimit then u.acceptTrim ch r v else u.enterSuspect ch

/-- The N-th good sample of SAMPLE_NEG completes the job (R67): relays open, the Deviation Unit forms the result, the
result is handed on, and the channel is offered to the scheduler. -/
def State.completeJob (ch : Chan) (j : Job) (s : State) : State :=
  let t := s.endJob ch
  match j.kind with
  | .station i q g => (t.completeStation ch i q g (s.stationResultOf ch q j)).offer
  | .check => (t.completeCheck ch j.range (checkResult (s.cal.working.pair j.range).c j)).offer

/-! ### Phases of a job (R64, R65, R66) -/

/-- Entry to a sample phase: phase count 0, frame error run 0 (R64, R69). -/
def Channel.enterSample (st : JobState) (c : Channel) : Channel :=
  { c with jobState := st, job := c.job.map fun j => { j with phaseCount := 0, errRun := 0 } }

/-- Entry to a settle phase with POL driven, or to its sample phase at once when S is 0 (R64). -/
def Channel.enterSettle (pol : Polarity) (settle sample : JobState) (c : Channel) : Channel :=
  let c' := { c with pol := pol, jobState := settle, job := c.job.map fun j => { j with phaseCount := 0 } }
  if c.settleFrames = 0 then c'.enterSample sample else c'

/-- A frame taken in a settle phase raises the phase count; at S the sample phase is entered (R64). -/
def Channel.settleFrame (sample : JobState) (j : Job) (c : Channel) : Channel :=
  let c' := { c with job := some { j with phaseCount := j.phaseCount + 1 } }
  if c.settleFrames ≤ j.phaseCount + 1 then c'.enterSample sample else c'

/-- A good sample is added to the sums of its polarity (R65). -/
def Job.addSample (positive : Bool) (f : Sample) (j : Job) : Job :=
  let j' := { j with errRun := 0, phaseCount := j.phaseCount + 1, dutClipped := j.dutClipped || clipped f.dut,
                     refClipped := j.refClipped || clipped f.ref }
  if positive then { j' with sdp := j.sdp + f.dut, srp := j.srp + f.ref }
  else { j' with sdn := j.sdn + f.dut, srn := j.srn + f.ref }

/-- An errored frame in a sample phase: the run rises; at 3 the job is aborted LINK ERROR (R69, R70). -/
def State.sampleError (ch : Chan) (j : Job) (s : State) : State :=
  if 3 ≤ j.errRun + 1 then (s.abortJob ch .linkError).offer
  else s.modChan ch fun c => { c with job := some { j with errRun := j.errRun + 1 } }

/-- The end of SAMPLE_POS (R65): SETTLE_NEG with POL negative. -/
def Channel.endPositive (j : Job) (c : Channel) : Channel :=
  ({ c with job := some j }).enterSettle .negative .settleNeg .sampleNeg

/-- A good frame in a sample phase (R65, R68): a clear lead flag aborts CONTACT LOST, else the sample is added; the N-th
ends the phase. -/
def State.goodSample (ch : Chan) (positive : Bool) (f : Sample) (j : Job) (s : State) : State :=
  if f.leads then
    let j' := j.addSample positive f
    if j.n ≤ j'.phaseCount then
      if positive then s.modChan ch (Channel.endPositive j') else s.completeJob ch j'
    else s.modChan ch fun c => { c with job := some j' }
  else (s.abortJob ch .contactLost).offer

/-- A frame taken by a channel that is IN_SERVICE, used as its job state directs (R64, R65). -/
def State.useFrame (ch : Chan) (err : Option FrameError) (f : Taken) (s : State) : State :=
  match (s.chan ch).job with
  | none => s
  | some j =>
    match (s.chan ch).jobState with
    | .idle => s
    | .connecting => s
    | .settlePos => s.modChan ch (Channel.settleFrame .samplePos j)
    | .settleNeg => s.modChan ch (Channel.settleFrame .sampleNeg j)
    | .samplePos =>
      match err, f with
      | none, .whole x => s.goodSample ch true x j
      | _, _ => s.sampleError ch j
    | .sampleNeg =>
      match err, f with
      | none, .whole x => s.goodSample ch false x j
      | _, _ => s.sampleError ch j

/-- A frame taken by a STALLED channel counts toward its return to service (R56). -/
def State.countGood (ch : Chan) (err : Option FrameError) (s : State) : State :=
  if err.isSome then s.modChan ch fun c => { c with goodRun := 0 }
  else if 4 ≤ (s.chan ch).goodRun + 1 then (s.modChan ch Channel.enterService).offer
  else s.modChan ch fun c => { c with goodRun := c.goodRun + 1 }

/-- A frame is taken (R54): errors are counted, the watchdog restarts, and the frame is used as the service state
directs; in SUSPECT nothing more happens (R58). -/
def State.takeFrame (ch : Chan) (f : Taken) (s : State) : State :=
  let err := (s.chan ch).frameError f
  let t := s.modChan ch fun c => { c.restartWatchdog with cnt := countErrorOpt err c.cnt }
  match (s.chan ch).service with
  | .inService => t.useFrame ch err f
  | .stalled => t.countGood ch err
  | .suspect => t

/-- One symbol of a channel's converter link: the receiver moves on, and a frame it takes is judged (R53, R54). -/
def State.linkSymbol (ch : Chan) (s : State) (y : LinkSymbol) : State :=
  let r := (s.chan ch).receiver.symbol (s.chan ch).strict y
  let t := s.modChan ch fun c => { c with receiver := r.1 }
  match r.2 with
  | some f => t.takeFrame ch f
  | none => t

/-- FRAME_TAKEN: what arrives on a channel's converter link, symbol by symbol. -/
def execFrameTaken (ch : Chan) (symbols : List LinkSymbol) (s : State) : Host.Outcome State Fault Refusal :=
  .next (symbols.foldl (State.linkSymbol ch) s).transmit

/-! ### Watchdog and relay settle -/

/-- A running job of a channel that has become STALLED is aborted STALL; its end is a review (R55, R57, R79). -/
def State.stallJob (ch : Chan) (s : State) : State :=
  if (s.chan ch).job.isSome then (s.abortJob ch .stall).offer else s

/-- WATCHDOG_EXPIRY (R55); without a running watchdog there is no expiry. -/
def execWatchdogExpiry (ch : Chan) (s : State) : Host.Outcome State Fault Refusal :=
  .next (if (s.chan ch).watchdog.isSome then
      (((s.modChan ch Channel.enterStalled).raise .channelStall (.channel ch)).stallJob ch).transmit
    else s.transmit)

/-- RELAY_SETTLE_EXPIRY (R64): in any job state but CONNECTING it has no effect. -/
def execRelaySettleExpiry (ch : Chan) (s : State) : Host.Outcome State Fault Refusal :=
  .next (if (s.chan ch).jobState = .connecting then
      (s.modChan ch fun c => ({ c with relayTimer := none }).enterSettle .positive .settlePos .samplePos).transmit
    else s.transmit)

/-! ### Channel requests -/

/-- The ordinals of CHAN.SET (R51). -/
def chanSetBad (r : ChanSetReq) : Option Nat :=
  firstBad [(1, (chanOf r.chan).isSome), (2, within 10 2000 r.framePeriod), (3, within 0 64 r.settleFrames),
    (4, within 5 500 r.relaySettle), (5, within 0 1 r.strict), (6, within 10 10000 r.driftLimit),
    (7, r.interval == 0 || within 50 65535 r.interval)]

/-- A channel's settings installed; a running watchdog restarts with the new frame period (R51, R52). -/
def Channel.install (r : ChanSetReq) (c : Channel) : Channel :=
  Channel.restartWatchdog
    { c with framePeriod := r.framePeriod, settleFrames := r.settleFrames, relaySettle := r.relaySettle,
             strict := r.strict == 1 }

/-- A check interval set to 0 clears both periodic flags (R162). -/
def Cal.intervalSet (k : Nat) (c : Cal) : Cal := if k = 0 then { c with flagA := false, flagB := false } else c

/-- CHAN.SET at the channels (R51, R52). -/
def State.chanSet (r : ChanSetReq) (s : State) : Answer × State :=
  if s.line.state.settable then
    match chanSetBad r, chanOf r.chan with
    | none, some ch =>
      (.ok [], ((s.modChan ch (Channel.install r)).modShared fun _ => ⟨r.driftLimit, r.interval⟩).modCal
        (Cal.intervalSet r.interval))
    | some n, _ => (.bad n, s)
    | none, none => (.bad 1, s)
  else (.busy, s)

def Service.code : Service → Nat
  | .inService => 0
  | .stalled => 1
  | .suspect => 2

def JobState.code : JobState → Nat
  | .idle => 0
  | .connecting => 1
  | .settlePos => 2
  | .samplePos => 3
  | .settleNeg => 4
  | .sampleNeg => 5

/-- A relay connection: none, station 1..6, check resistor, in the order of R50. -/
def Relay.code : Relay → Nat
  | .open => 0
  | .station i => i
  | .check => 7

def Polarity.code : Polarity → Nat
  | .positive => 0
  | .negative => 1

/-- A job's kind with the fields only a STATION job has, each optional (R73). -/
def JobKind.bytes : JobKind → List Byte
  | .station i q g => le 1 0 ++ optBytes 1 (le 1) (some i) ++ optBytes 1 (le 1) (some q) ++ optBytes 1 (le 1) (some g)
  | .check => le 1 1 ++ optBytes 1 (le 1) none ++ optBytes 1 (le 1) none ++ optBytes 1 (le 1) none

/-- A job record without its sums (R73): 12 bytes; N and the phase count take two bytes each (log entry 32). -/
def Job.bytes (j : Job) : List Byte := j.kind.bytes ++ le 2 j.n ++ le 1 j.range ++ le 2 j.phaseCount

/-- The six trims of a channel, each absent or its value (R73, R187). -/
def trimValueBytes (l : List (Option Trim)) : List Byte := eachBytes (optBytes 2 fun t => leSigned 2 t.value) l

/-- The fields of a CHAN.READ reply (R73). The frame error run is a field of the job record (R50); while no job runs it is
sent as 0 (log entry 30). -/
def State.chanFields (s : State) (ch : Chan) : List Byte :=
  let c := s.chan ch
  le 1 c.service.code ++ le 1 c.jobState.code ++ optBytes 12 Job.bytes c.job ++ le 1 c.relay.code ++ le 1 c.pol.code ++
    le 1 c.range ++ le 1 ((c.job.map Job.errRun).getD 0) ++ le 1 c.srcRun ++ le 1 c.goodRun ++
    bitCode c.watchdog.isSome ++ le 2 c.framePeriod ++ le 1 c.settleFrames ++ le 2 c.relaySettle ++ bitCode c.strict ++
    le 2 s.shared.driftLimit ++ le 2 s.shared.interval ++ trimValueBytes (s.cal.trims ch)

/-- CHAN.READ (R73). -/
def State.chanRead (n : Nat) (s : State) : Answer × State :=
  match chanOf n with
  | none => (.bad 1, s)
  | some ch => (.ok (s.chanFields ch), s)

/-- CHAN.RESET (R57). -/
def State.chanReset (n : Nat) (s : State) : Answer × State :=
  match chanOf n with
  | none => (.bad 1, s)
  | some ch =>
    match (s.chan ch).service with
    | .suspect => (.busy, s)
    | .inService => (.ok (le 1 Service.stalled.code), (s.modChan ch Channel.enterStalled).stallJob ch)
    | .stalled => (.ok (le 1 Service.stalled.code), s.modChan ch Channel.enterStalled)

/-- CHAN.RESTORE (R60). -/
def State.chanRestore (n : Nat) (s : State) : Answer × State :=
  match chanOf n with
  | none => (.bad 1, s)
  | some ch =>
    match (s.chan ch).service with
    | .inService => (.busy, s)
    | .stalled => (.busy, s)
    | .suspect =>
      (.ok (le 1 Service.inService.code),
        ((s.modChan ch fun c => { c.enterService with srcRun := 0 }).modCal (Cal.setTrims ch noTrims)).offer)

end Sys2Proof.Machine
end

