-- ==== Sys2Proof/Machine/Calibration.lean ====
section
/-! DEFINITION. The Calibration Store (09_reference_calibration_and_channel_checks.md): the judgement of the stored copy,
CAL.WRITE and its completion, CAL.READ, the periodic check flags; and the temperature record with its staleness timer. -/

namespace Sys2Proof.Machine

/-! ### The table and its check code (R155, R156) -/

/-- The check code of a table: over the six pairs in range order and the number, each in the bytes a payload gives it
(R155, R177; log entry 16). -/
def CalTable.code (t : CalTable) : BitVec 16 := checkCode (eachBytes CalPair.bytes t.pairs ++ le 2 t.number)

/-- Rref of a range passes (R155). -/
def rrefOk (v : Nat) : Bool := within 5000 2000000000 v

/-- C of a range passes (R155). -/
def ratioOk (v : Nat) : Bool := within 50000000 2000000000 v

/-- The judgement of the stored copy (R156). -/
def StoredCal.judged (c : StoredCal) : Bool :=
  c.check == some c.table.code && c.table.pairs.all fun p => rrefOk p.rref && ratioOk p.c

/-! ### CAL.WRITE (R157, R158) -/

/-- The ordinals of CAL.WRITE from a range on: 2r − 1 for Rref and 2r for C (R157). -/
def pairOrdinals : Nat → List CalPair → List (Nat × Bool)
  | _, [] => []
  | r, p :: ps => (2 * r - 1, rrefOk p.rref) :: (2 * r, ratioOk p.c) :: pairOrdinals (r + 1) ps

/-- The most a write takes from acceptance to completion, in microseconds (R158). -/
def calWriteLimit : Nat := 200000

/-- CAL.WRITE at its owner (R157): a refusal is answered at once; an acceptance erases the stored check code and leaves
the request in progress, unanswered. -/
def State.calWrite (tag : Byte) (pairs : List CalPair) (s : State) : Option Answer × State :=
  if s.pins.calen then
    if s.line.state = .idle then
      match firstBad (pairOrdinals 1 pairs) with
      | some n => (some (.bad n), s)
      | none =>
        (none, (s.modCal fun c => { c with stored := { c.stored with check := none } }).modLink fun l =>
          { l with inProgress := some ⟨tag, pairs, calWriteLimit⟩ })
    else (some .busy, s)
  else (some ⟨.locked, []⟩, s)

/-- The table that a write in flight ends with: the number in force plus 1, wrapping from 65,535 to 0 (R158). -/
def Cal.nextTable (c : Cal) (pairs : List CalPair) : CalTable := ⟨pairs, (c.working.number + 1) % 65536⟩

/-- The calibration at the completion of a write (R158). -/
def Cal.complete (t : CalTable) (c : Cal) : Cal :=
  { c with stored := ⟨t, some t.code⟩, working := t, valid := true, trimsA := noTrims, trimsB := noTrims }

/-- The completion of a write in flight, with its reply (R158). -/
def State.completeWrite (w : CalWriting) (s : State) : State :=
  let t := s.cal.nextTable w.pairs
  ((s.modCal (Cal.complete t)).modLink fun l => { l with inProgress := none }).answer 0x21#8 w.tag (.ok (le 2 t.number))

/-- CAL_WRITE_COMPLETION (R158); with no write in flight there is no completion. -/
def execCalWriteCompletion (s : State) : Host.Outcome State Fault Refusal :=
  .next (match s.link.inProgress with
    | some w => (s.completeWrite w).transmit
    | none => s.transmit)

/-! ### CAL.READ (R160) -/

/-- A trim entry: absent, or its value and the index count at which it was set. -/
def trimEntryBytes (t : Option Trim) : List Byte := optBytes 6 (fun e => leSigned 2 e.value ++ le 4 e.index) t

/-- The fields of a CAL.READ reply (R160). A due check is sent as an optional value: a presence byte, then the range, 0 for none
(log entry 33). -/
def State.calFields (s : State) : List Byte :=
  bitCode s.cal.valid ++ le 2 s.cal.working.number ++ eachBytes CalPair.bytes s.cal.working.pairs ++
    eachBytes trimEntryBytes s.cal.trimsA ++ eachBytes trimEntryBytes s.cal.trimsB ++ bitCode s.cal.flagA ++
    bitCode s.cal.flagB ++ optBytes 1 (le 1) (s.dueCheck .A) ++ optBytes 1 (le 1) (s.dueCheck .B)

/-- CAL.READ (R160). -/
def State.calRead (s : State) : Answer × State := (.ok s.calFields, s)

/-! ### The periodic check flags (R162) -/

/-- Both flags judged against K at an index start, with k as it has advanced (R162). -/
def Cal.judgeFlags (interval k : Nat) (c : Cal) : Cal :=
  if interval = 0 then c
  else { c with flagA := c.flagA || k % interval == 0, flagB := c.flagB || k % interval == interval / 2 }

/-! ### Temperature (R174, R175) -/

/-- The value taken: limited to −4,000..12,500 (R174). -/
def clampTemp (v : Int) : Int := if v < -4000 then -4000 else if 12500 < v then 12500 else v

/-- TEMP.SET (R174). -/
def State.tempSet (v : Int) (s : State) : Answer × State :=
  (.ok (leSigned 2 (clampTemp v) ++ bitCode (clampTemp v != v)),
    s.modTemp fun _ => ⟨.current (clampTemp v), true, 30000000⟩)

/-- A record that has aged: CURRENT becomes HELD, NEVER SET stays (R175). -/
def TempRecord.aged : TempRecord → TempRecord
  | .neverSet => .neverSet
  | .current v => .held v
  | .held v => .held v

/-- The staleness timer counts down, or has reached 0 (R175). -/
def State.stalenessLive (s : State) : Bool := s.temp.running && (s.line.state.underWay || s.temp.left == 0)

/-- STALENESS_EXPIRY (R175); a timer that is stopped or held has no expiry. -/
def execStalenessExpiry (s : State) : Host.Outcome State Fault Refusal :=
  .next (if s.stalenessLive then
      ((s.modTemp fun t => ⟨t.record.aged, false, 0⟩).raise .tempStale .none).transmit
    else s.transmit)

end Sys2Proof.Machine
end

