-- ==== Sys2Proof/Machine/Chutes.lean ====
section
/-! DEFINITION. The Chute Unit's own commands (08_chutes_ejection_and_fill_accounting.md): CHUTE.SET, the firing of the
jets, jet completion and BOX.EXCHANGED. -/

namespace Sys2Proof.Machine

/-! ### CHUTE.SET (R138 to R140) -/

/-- Chute numbers 1..20. -/
def chuteNumbers : List Nat := (List.range 20).map (· + 1)

/-- Another configured chute stands at this eject position (R138). -/
def State.positionTaken (s : State) (c pos : Nat) : Bool :=
  chuteNumbers.any fun x => x != c && (s.chute x).cfg.any fun g => g.ejectPos == pos

/-- The alternate field passes (R138): none, or another configured chute. -/
def State.alternateOk (s : State) (c a : Nat) : Bool := a == 0 || (within 1 20 a && a != c && s.configured a)

/-- The ordinals of CHUTE.SET (R138); for REMOVE, ordinals 3 to 7 are not judged. -/
def State.chuteSetBad (s : State) (c action : Nat) (f : ChuteFields) : Option Nat :=
  firstBad ([(1, within 1 20 c), (2, within 0 1 action)] ++
    if action = 1 then [] else
      [(3, s.track.decidePos < f.ejectPos && f.ejectPos < s.track.checkPos && !s.positionTaken c f.ejectPos),
        (4, within 1 65535 f.capacity), (5, within 1 f.capacity f.near), (6, s.alternateOk c f.alternate),
        (7, within 1 100 f.pulse)])

/-- The configuration a CONFIGURE gives. -/
def cfgOf (f : ChuteFields) : ChuteCfg :=
  ⟨f.ejectPos, f.capacity, f.near, if f.alternate = 0 then none else some f.alternate, f.pulse⟩

/-- A CONFIGURE of a configured chute is answered BUSY (R139). -/
def configureBusy (f : ChuteFields) (e : Chute) : Bool :=
  match e.cfg with
  | none => false
  | some g => f.capacity < e.taken || (f.ejectPos != g.ejectPos && 0 < e.inFlight)

/-- The entry after an accepted CONFIGURE (R139). -/
def configuredEntry (f : ChuteFields) (e : Chute) : Chute :=
  match e.cfg with
  | none => { e with cfg := some (cfgOf f), fill := 0, inFlight := 0, oldBox := 0, jet := none }
  | some _ => { e with cfg := some (cfgOf f) }

/-- A lot definition names a chute (R140). -/
def LotDef.names (d : LotDef) (c : Nat) : Bool :=
  d.rejectChute == c || d.retestChute == c || d.classes.any fun k => k.chute == c

/-- A slot that is not FREE names a chute (R140). -/
def LotSlot.names (sl : LotSlot) (c : Nat) : Bool := sl.state != .free && sl.definition.any fun d => d.names c

/-- A REMOVE of a configured chute is answered BUSY (R140). -/
def State.removeBusy (s : State) (c : Nat) : Bool :=
  s.slot0.names c || s.slot1.names c ||
    (chuteNumbers.any fun x => x != c && (s.chute x).cfg.any fun g => g.alternate == some c) ||
    (s.track.pockets.any fun p => p.occupied && (p.target == some c || p.chute == some c)) ||
    0 < (s.chute c).inFlight || 0 < (s.chute c).oldBox

/-- The entry after an accepted REMOVE, or a TRACK.SET: UNUSED, the counters kept (R140, R4, R136). -/
def Chute.cleared (e : Chute) : Chute :=
  { e with cfg := none, fill := 0, inFlight := 0, oldBox := 0, jet := none }

def ChuteState.code : ChuteState → Nat
  | .unused => 0
  | .full => 1
  | .near => 2
  | .opened => 3

/-- A chute's entry in a CHUTE.SET reply (R138): configuration fields, fill, in-flight, old-box count, derived state. The
alternate is present while the chute is configured, and none is then 0 (R136; log entry 12). Fill, in-flight and old-box count
take two bytes (log entry 32). -/
def Chute.fields (e : Chute) : List Byte :=
  bitCode e.cfg.isSome ++ optBytes 1 (fun g => le 1 g.ejectPos) e.cfg ++ optBytes 2 (fun g => le 2 g.capacity) e.cfg ++
    optBytes 2 (fun g => le 2 g.near) e.cfg ++ optBytes 1 (fun g => le 1 (g.alternate.getD 0)) e.cfg ++
    optBytes 2 (fun g => le 2 g.pulseMs) e.cfg ++ le 2 e.fill ++ le 2 e.inFlight ++ le 2 e.oldBox ++ le 1 e.state.code

/-- CONFIGURE of chute c (R139). -/
def State.configureChute (c : Nat) (f : ChuteFields) (s : State) : Answer × State :=
  if configureBusy f (s.chute c) then (⟨.busy, (s.chute c).fields⟩, s)
  else
    let t := s.account c (configuredEntry f)
    (.ok (t.chute c).fields, t)

/-- REMOVE of chute c (R140). -/
def State.removeChute (c : Nat) (s : State) : Answer × State :=
  if s.configured c then
    if s.removeBusy c then (⟨.busy, (s.chute c).fields⟩, s)
    else
      let t := s.account c Chute.cleared
      (.ok (t.chute c).fields, t)
  else (.ok (s.chute c).fields, s)

/-- CHUTE.SET (R138). -/
def State.chuteSet (c action : Nat) (f : ChuteFields) (s : State) : Answer × State :=
  if s.track.p = 0 then (.notReady, s)
  else if s.line.state.settable then
    match s.chuteSetBad c action f with
    | some n => (.bad n, s)
    | none => if action = 1 then s.removeChute c else s.configureChute c f
  else (.busy, s)

/-! ### Firing (R145) -/

/-- Chute c's entry after a firing: the jet is IN PULSE, a place moves from in-flight to fill (R145). -/
def fired (pulseMs : Nat) (e : Chute) : Chute :=
  { e with jet := some (ms pulseMs), inFlight := e.inFlight - 1, fill := e.fill + 1, ejected := bump e.ejected }

/-- The pocket at chute c's eject position is one its jet fires for (R145). -/
def Pocket.firesFor (p : Pocket) (c : Nat) : Bool := p.state == .decided && p.chute == some c && !p.jetFired

/-- One configured chute takes the pocket at its eject position (R145). -/
def State.fireChute (s : State) (c : Nat) : State :=
  match (s.chute c).cfg with
  | none => s
  | some g =>
    let q := s.track.pocketAt g.ejectPos
    if (s.pocket q).firesFor c then
      (s.account c (fired g.pulseMs)).modPocket q fun p => { p with state := .ejected, jetFired := true }
    else s

/-- Each configured chute is taken in turn (R145). -/
def State.fireJets (s : State) : State := chuteNumbers.foldl State.fireChute s

/-! ### Jet completion (R146) -/

/-- JET_COMPLETION: JETc falls and the dwell work is judged again; a jet that is OFF has no completion (R146, R147). -/
def execJetCompletion (c : Nat) (s : State) : Host.Outcome State Fault Refusal :=
  .next (if (s.chute c).pulsing then (s.modChute c fun e => { e with jet := none }).judgeDwell.transmit else s.transmit)

/-! ### BOX.EXCHANGED (R150) -/

/-- E: the occupied pockets that are EJECTED with chute field c (R150). -/
def State.travelling (s : State) (c : Nat) : Nat :=
  s.track.pockets.countP fun p => p.state == .ejected && p.chute == some c

/-- Chute c's entry after its box is exchanged (R150). -/
def exchanged (travelling : Nat) (e : Chute) : Chute :=
  if e.pulsing then { e with fill := 1, oldBox := travelling - 1 } else { e with fill := 0, oldBox := travelling }

/-- The count of the box removed: the fill before, less 1 where the jet was IN PULSE (R150). -/
def removedCount (e : Chute) : Nat := if e.pulsing then e.fill - 1 else e.fill

/-- BOX.EXCHANGED (R150); the three counts of its reply take two bytes each (log entry 32). -/
def State.boxExchanged (c : Nat) (s : State) : Answer × State :=
  if s.chuteOk c then
    let t := s.account c (exchanged (s.travelling c))
    (.ok (le 1 c ++ le 2 (removedCount (s.chute c)) ++ le 2 (t.chute c).fill ++ le 2 (t.chute c).oldBox), t)
  else (.bad 1, s)

end Sys2Proof.Machine
end

