-- ==== Sys2Proof/Machine/Lots.lean ====
section
/-! DEFINITION. The Lot Store (06_lots_and_lot_change_over.md): LOT.LOAD, LOT.ARM, LOT.FREE, LOT.READ, and the change-over
taken within a load. -/

namespace Sys2Proof.Machine

/-! ### LOT.LOAD (R105 to R107) -/

/-- Grade g of the request, 1..4. -/
def lotGrade (r : LotLoadReq) (g : Nat) : GradeSpec := r.grades.getD (g - 1) ⟨0, 0⟩

/-- Class j of the request, 1..16. -/
def lotClass (r : LotLoadReq) (j : Nat) : ClassSpec := r.classes.getD (j - 1) ⟨0, 0, 0⟩

/-- The sample count of grade g passes (R106). -/
def samplesOk (r : LotLoadReq) (g : Nat) : Bool :=
  within 1 512 (lotGrade r g).samples && (g == 1 || (lotGrade r (g - 1)).samples ≤ (lotGrade r g).samples)

/-- The guard of grade g passes (R106): falling strictly, 0 at the last grade and there alone. -/
def guardOk (r : LotLoadReq) (g : Nat) : Bool :=
  within 0 100000 (lotGrade r g).guard && (g == 1 || (lotGrade r g).guard < (lotGrade r (g - 1)).guard) &&
    (if g = r.gradeCount then (lotGrade r g).guard == 0 else (lotGrade r g).guard != 0)

/-- The ordinals of grade g: 13 + 2g and 14 + 2g (R106). -/
def gradeOrdinals (r : LotLoadReq) (g : Nat) : List (Nat × Bool) :=
  [(13 + 2 * g, samplesOk r g), (14 + 2 * g, guardOk r g)]

/-- The ordinals of class j: 21 + 3j, 22 + 3j and 23 + 3j (R106). -/
def classOrdinals (s : State) (r : LotLoadReq) (j : Nat) : List (Nat × Bool) :=
  [(21 + 3 * j, withinInt (-999999) 999999 (lotClass r j).lower),
    (22 + 3 * j, withinInt (-999999) 999999 (lotClass r j).upper && (lotClass r j).lower ≤ (lotClass r j).upper),
    (23 + 3 * j, s.chuteOk (lotClass r j).chute)]

/-- The lot number is not the one the other slot holds while it is not FREE (R106). -/
def State.lotNumberFree (s : State) (i : SlotId) (n : Nat) : Bool :=
  (s.slot i.other).state == .free || !((s.slot i.other).definition.any fun d => d.lotNumber == n)

/-- The label passes: at most 24 characters, each 20H..7EH (R106). -/
def labelOk (r : LotLoadReq) : Bool := r.labelLen ≤ 24 && (r.labelChars.take r.labelLen).all (within 32 126)

/-- Rnom passes: in its range, and within the range window of the range's Rref (R106). -/
def State.rnomOk (s : State) (r : LotLoadReq) : Bool :=
  within 100 20000000000 r.rnom && (s.cal.working.pair r.range).rref ≤ r.rnom * 20 &&
    r.rnom ≤ (s.cal.working.pair r.range).rref * 8

/-- The numbers 1..n. -/
def oneTo (n : Nat) : List Nat := (List.range n).map (· + 1)

/-- The fields of LOT.LOAD judged in ordinal order (R106). -/
def State.lotLoadBad (s : State) (i : SlotId) (r : LotLoadReq) : Option Nat :=
  firstBad <|
    [(2, within 1 99999999 r.lotNumber && s.lotNumberFree i r.lotNumber), (3, labelOk r), (4, within 1 6 r.range),
      (5, s.rnomOk r), (6, withinInt (-5000) 5000 r.tcr), (7, within 0 1000000 r.emfLimit), (8, within 0 7 r.retryLimit),
      (9, s.chuteOk r.rejectChute), (10, s.chuteOk r.retestChute), (11, within 0 1 r.mode), (12, within 0 1 r.fallback),
      (13, within 0 1 r.referral), (14, within 1 4 r.gradeCount)] ++
    (oneTo r.gradeCount).flatMap (gradeOrdinals r) ++ [(23, within 1 16 r.classCount)] ++
    (oneTo r.classCount).flatMap (classOrdinals s r)

/-- The definition a LOT.LOAD gives, with label, grades and classes up to their counts (R107). -/
def lotDefOf (r : LotLoadReq) : LotDef :=
  { lotNumber := r.lotNumber, label := r.labelChars.take r.labelLen, range := r.range, rnom := r.rnom, tcr := r.tcr,
    emfLimit := r.emfLimit, retryLimit := r.retryLimit, rejectChute := r.rejectChute, retestChute := r.retestChute,
    mode := if r.mode = 0 then .preserve else .downgrade, fallback := if r.fallback = 0 then .retest else .classifyLast,
    referral := r.referral == 1, grades := r.grades.take r.gradeCount, classes := r.classes.take r.classCount }

def SlotState.code : SlotState → Nat
  | .free => 0
  | .ready => 1
  | .pending => 2
  | .active => 3
  | .draining => 4

/-- A slot that LOT.LOAD may write: FREE or READY (R105). -/
def SlotState.loadable : SlotState → Bool
  | .free => true
  | .ready => true
  | .pending => false
  | .active => false
  | .draining => false

/-- LOT.LOAD (R105, R107). -/
def State.lotLoad (r : LotLoadReq) (s : State) : Answer × State :=
  if s.track.p = 0 ∨ s.cal.valid = false then (.notReady, s)
  else match slotOf r.slot with
    | none => (.bad 1, s)
    | some i =>
      if (s.slot i).state.loadable then
        match s.lotLoadBad i r with
        | some n => (.bad n, s)
        | none =>
          (.ok (le 1 i.num ++ le 1 SlotState.ready.code), s.modSlot i fun _ => ⟨.ready, some (lotDefOf r), 0, none, .zero⟩)
      else (.busy, s)

/-! ### LOT.ARM (R109) -/

/-- A slot becomes ACTIVE, with the calibration number in force (R103, R109, R111). -/
def LotSlot.activate (number : Nat) (sl : LotSlot) : LotSlot := { sl with state := .active, activation := some number }

/-- A READY slot is armed (R109 step 5). -/
def State.armReady (i : SlotId) (s : State) : Answer × State :=
  match s.activeSlot with
  | none =>
    (.ok (le 1 SlotState.active.code), s.modSlot i (LotSlot.activate s.cal.working.number))
  | some _ => (.ok (le 1 SlotState.pending.code), s.modSlot i fun sl => { sl with state := .pending })

/-- LOT.ARM (R109). -/
def State.lotArm (n : Nat) (s : State) : Answer × State :=
  match slotOf n with
  | none => (.bad 1, s)
  | some i =>
    match (s.slot i).state with
    | .free => (.notReady, s)
    | .pending => (.busy, s)
    | .active => (.busy, s)
    | .draining => (.busy, s)
    | .ready => if (s.slot i.other).state = .pending then (.busy, s) else s.armReady i

/-! ### LOT.FREE (R114) -/

/-- LOT.FREE (R114). -/
def State.lotFree (n : Nat) (s : State) : Answer × State :=
  match slotOf n with
  | none => (.bad 1, s)
  | some i =>
    match (s.slot i).state with
    | .ready => (.ok [], s.modSlot i fun _ => .freed)
    | .pending => (.ok [], s.modSlot i fun _ => .freed)
    | .active =>
      if (s.slot i).resident = 0 ∧ s.line.state.worked = false then (.ok [], s.retire i .freed) else (.busy, s)
    | .draining => (.busy, s)
    | .free => (.busy, s)

/-! ### LOT.READ (R116) -/

def DecisionMode.code : DecisionMode → Nat
  | .preserve => 0
  | .downgrade => 1

def Fallback.code : Fallback → Nat
  | .retest => 0
  | .classifyLast => 1

/-- A whole definition in a LOT.READ reply, in the order of R104; the label is its length byte and its own characters
(R116: up to its count; log entry 31). -/
def LotDef.bytes (d : LotDef) : List Byte :=
  le 4 d.lotNumber ++ listBytes (le 1) d.label ++ le 1 d.range ++ le 8 d.rnom ++ leSigned 2 d.tcr ++ le 4 d.emfLimit ++
    le 1 d.retryLimit ++ le 1 d.rejectChute ++ le 1 d.retestChute ++ le 1 d.mode.code ++ le 1 d.fallback.code ++
    bitCode d.referral ++ listBytes GradeSpec.bytes d.grades ++ listBytes ClassSpec.bytes d.classes

/-- The fields of a LOT.READ reply (R116): for a FREE slot, slot, state and resident count alone. -/
def State.lotFields (s : State) (i : SlotId) : List Byte :=
  le 1 i.num ++ le 1 (s.slot i).state.code ++ le 1 (s.slot i).resident ++
    match (s.slot i).definition with
    | none => []
    | some d => d.bytes ++ optBytes 2 (le 2) (s.slot i).activation

/-- LOT.READ (R116). -/
def State.lotRead (n : Nat) (s : State) : Answer × State :=
  match slotOf n with
  | none => (.bad 1, s)
  | some i => (.ok (s.lotFields i), s)

/-! ### Change-over (R110, R111) -/

/-- The ACTIVE slot leaves ACTIVE at a change-over: FREE with its summary when it has no resident, else DRAINING
(R111 step 1). -/
def State.leaveActive (i : SlotId) (s : State) : State :=
  if (s.slot i).resident = 0 then s.retire i .drained else s.modSlot i fun sl => { sl with state := .draining }

/-- The change-over, taken within the load of pocket q when slot i is PENDING (R111). -/
def State.changeOver (i : SlotId) (q : Nat) (s : State) : State :=
  let t := match s.activeSlot with
    | some a => s.leaveActive a
    | none => s
  (t.modSlot i (LotSlot.activate t.cal.working.number)).raise .lotChange (.pocket q)

/-- The Lot Store is asked for the slot of pocket q's load: it takes the change-over if a slot is PENDING (R110). -/
def State.askSlot (q : Nat) (s : State) : State :=
  match s.pendingSlot with
  | some i => s.changeOver i q
  | none => s

end Sys2Proof.Machine
end

