-- ==== Sys2Proof/Machine/Track.lean ====
section
/-! DEFINITION. The Track Unit (01_turret_track_and_pocket_records.md): TRACK.SET and TRACK.READ, the work at LOAD, CHECK
and DECIDE at an index start, serials, POCKET.READ and POCKET.PURGE. -/

namespace Sys2Proof.Machine

/-! ### TRACK.SET and TRACK.READ (R2 to R6) -/

/-- The position fields of CS1..CSn with their ordinals: each greater than the one before, at most P − 1 (R3). -/
def stationOrdinals (p : Nat) : Nat → Nat → List Nat → List (Nat × Bool)
  | _, _, [] => []
  | ordinal, before, c :: cs => (ordinal, before < c && c ≤ p - 1) :: stationOrdinals p (ordinal + 1) c cs

/-- The fields of TRACK.SET judged in ordinal order (R3). CS1 is at least 1. -/
def trackSetBad (r : TrackSetReq) : Option Nat :=
  firstBad ([(1, within 8 48 r.p), (2, within 1 6 r.stations.length)] ++ stationOrdinals r.p 3 0 r.stations ++
    [(9, r.stations.getLastD 0 < r.decidePos && r.decidePos ≤ r.p - 1),
      (10, r.decidePos < r.checkPos && r.checkPos ≤ r.p - 1)])

/-- The track after a TRACK.SET (R4): the new geometry, P EMPTY records, φ = k mod P, the load-permit memory clear. -/
def Track.install (r : TrackSetReq) (t : Track) : Track :=
  { t with p := r.p, stations := r.stations, decidePos := r.decidePos, checkPos := r.checkPos, phi := t.k % r.p,
           pockets := List.replicate r.p .emptied, loadPermit := false }

/-- The conditions under which TRACK.SET is taken (R2). -/
def State.trackSettable (s : State) : Bool :=
  s.line.state == .idle && s.track.occupiedCount == 0 && s.slot0.state == .free && s.slot1.state == .free

/-- TRACK.SET (R2 to R4). -/
def State.trackSet (r : TrackSetReq) (s : State) : Answer × State :=
  if s.trackSettable then
    match trackSetBad r with
    | some n => (.bad n, s)
    | none => (.ok [], (s.modTrack (Track.install r)).modChutes fun l => l.map Chute.cleared)
  else (.busy, s)

/-- The fields of a TRACK.READ reply (R6): n counts the station positions that follow it. -/
def Track.fields (t : Track) : List Byte :=
  le 1 t.p ++ listBytes (le 1) t.stations ++ le 1 t.decidePos ++ le 1 t.checkPos ++ le 4 t.k ++ le 1 t.phi ++
    le 4 t.nextSerial ++ le 1 t.occupiedCount

/-- TRACK.READ (R6). -/
def State.trackRead (s : State) : Answer × State := (.ok s.track.fields, s)

/-! ### Serials (R16) -/

/-- The value after a serial, wrapping from 4,294,967,295 to 1 (R16). -/
def serialAfter (n : Nat) : Nat := if 4294967295 ≤ n then 1 else n + 1

/-- An occupied pocket holds this serial. -/
def Track.serialHeld (t : Track) (n : Nat) : Bool := t.pockets.any fun p => p.occupied && p.serial == some n

/-- The first value, counting upward from n, that no occupied pocket holds; as many steps as there are pockets suffice
(R16). -/
def Track.freeSerial (t : Track) : Nat → Nat → Nat
  | 0, n => n
  | fuel + 1, n => if t.serialHeld n then t.freeSerial fuel (serialAfter n) else n

/-- The serial the next load takes (R16). -/
def Track.loadSerial (t : Track) : Nat := t.freeSerial t.pockets.length t.nextSerial

/-! ### Work at LOAD (R15 to R18) -/

/-- The record of a load (R15). -/
def loadedPocket (serial : Nat) (i : SlotId) (retryLimit : Nat) : Pocket :=
  { Pocket.emptied with
    state := .loaded, serial := some serial, slot := some i,
    retries := if retryLimit = 0 then none else some retryLimit }

/-- A part is loaded into pocket q with slot i (R15, R16, R108). -/
def State.loadInto (q : Nat) (i : SlotId) (s : State) : State :=
  let n := s.track.loadSerial
  let limit := ((s.slot i).definition.map LotDef.retryLimit).getD 0
  (((s.modPocket q fun _ => loadedPocket n i limit).modTrack fun t => { t with nextSerial := serialAfter n }).modSlot i
    fun sl => { sl with resident := sl.resident + 1 }).modLineCnt fun c => { c with loads := bump c.loads }

/-- A load into pocket q: the Lot Store is asked for the slot; with none ACTIVE the part is foreign (R15, R17, R110). -/
def State.load (q : Nat) (s : State) : State :=
  let t := s.askSlot q
  match t.activeSlot with
  | some i => t.loadInto q i
  | none => t.raiseFault .foreignPart (.pocket q)

/-- The load handling of the pocket leaving LOAD (R15, R17, R18). -/
def State.handleLoad (q : Nat) (sensed : Bool) (s : State) : State :=
  if (s.pocket q).occupied then s
  else match s.track.loadPermit, sensed with
    | true, true => s.load q
    | true, false => s.modLineCnt fun c => { c with loadMisses := bump c.loadMisses }
    | false, true => s.raiseFault .foreignPart (.pocket q)
    | false, false => s

/-! ### Work at CHECK (R19, R20, R148) -/

/-- A pocket goes on to lap 2 with its jet-fired flag clear (R13). -/
def Pocket.secondLap (p : Pocket) : Pocket := { p with lap := 2, jetFired := false }

/-- An eject miss of pocket q, committed to chute c (R20, R148). -/
def State.ejectMiss (q c : Nat) (s : State) : State :=
  let again := (s.pocket q).misses
  let t := (s.modPocket q fun p => { p.secondLap with state := .decided, misses := 1 }).account c missedPlace
  if again = 0 then t else t.raiseFault .jam (.pocket q)

/-- The check handling of the pocket leaving CHECK (R19). -/
def State.handleCheck (q : Nat) (sensed : Bool) (s : State) : State :=
  match (s.pocket q).state, sensed with
  | .empty, true => s.raiseFault .foreignPart (.pocket q)
  | .empty, false => s
  | .ejected, false => s.finish q .sorted
  | .ejected, true => s.ejectMiss q ((s.pocket q).chute.getD 0)
  | .decided, false => (s.raise .partLost (.pocket q)).finish q .lost
  | .decided, true => s.modPocket q Pocket.secondLap
  | .held, false => (s.raise .partLost (.pocket q)).finish q .lost
  | .held, true => s.modPocket q Pocket.secondLap
  | .loaded, _ => s
  | .measuring, _ => s
  | .referred, _ => s

/-! ### The Track Unit at an index start (section 1.4, R7) -/

/-- Load and check handling both have something to do, so that their order is a choice (R111). -/
def State.loadAndCheck (s : State) (loadSense checkSense : Bool) : Bool :=
  (!(s.pocket (s.track.pocketAt 0)).occupied && loadSense) &&
    ((s.pocket (s.track.pocketAt s.track.checkPos)).occupied || checkSense)

/-- Load handling and check handling, in either order (R111: a free choice where both act; log entry 7). -/
def State.handleBoth (loadSense checkSense : Bool) (s : State) : State :=
  let ql := s.track.pocketAt 0
  let qc := s.track.pocketAt s.track.checkPos
  if s.loadAndCheck loadSense checkSense then
    if s.freeIndex 2 = 0 then ((s.handleLoad ql loadSense).handleCheck qc checkSense).chosen
    else ((s.handleCheck qc checkSense).handleLoad ql loadSense).chosen
  else (s.handleLoad ql loadSense).handleCheck qc checkSense

/-- k and φ advance (R7). -/
def Track.advance (t : Track) : Track :=
  { t with k := (t.k + 1) % 4294967296, phi := if t.p = 0 then t.phi else (t.phi + 1) % t.p, loadPermit := false }

/-- The Track Unit's work of an index start (R5, R14, R21): sensors, DECIDE hand-off, advance. -/
def State.trackIndex (loadSense checkSense : Bool) (s : State) : State :=
  if s.track.p = 0 then s.modTrack Track.advance
  else
    let t := s.handleBoth loadSense checkSense
    (t.leaveDecide (t.track.pocketAt t.track.decidePos)).modTrack Track.advance

/-! ### POCKET.READ and POCKET.PURGE (R23, R24) -/

def PocketState.code : PocketState → Nat
  | .empty => 0
  | .loaded => 1
  | .measuring => 2
  | .referred => 3
  | .decided => 4
  | .held => 5
  | .ejected => 6

/-- An attempt in a POCKET.READ reply: deviation and marks optional (R11, R24). -/
def Attempt.bytes (a : Attempt) : List Byte :=
  le 1 a.station ++ le 1 (chanCode a.chan) ++ le 1 a.grade ++ le 1 a.outcome.code ++ optBytes 4 (leSigned 4) a.deviation ++
    optBytes 1 (fun m => le 1 m.code) a.marks

/-- A decision in a POCKET.READ reply (R12, R24). -/
def Decision.bytes (d : Decision) : List Byte := le 1 (clsCode d.cls) ++ le 1 d.source.code ++ optBytes 1 (le 1) d.grade

/-- The fields of R9 after the state, in the order of its table (R24). -/
def Pocket.fields (p : Pocket) : List Byte :=
  le 4 (p.serial.getD 0) ++ le 1 ((p.slot.map SlotId.num).getD 0) ++ le 1 p.lap ++ le 1 p.nextGrade ++
    optBytes 1 (le 1) p.retries ++ bitCode p.exhausted ++ listBytes Attempt.bytes p.attempts ++
    optBytes 4 Decision.bytes p.decision ++ optBytes 1 (le 1) p.target ++ optBytes 1 (le 1) p.chute ++
    bitCode p.overflow ++ le 1 p.misses ++ bitCode p.jetFired

/-- POCKET.READ (R24). -/
def State.pocketRead (q : Nat) (s : State) : Answer × State :=
  if s.track.p = 0 then (.notReady, s)
  else if q < s.track.p then
    (.ok (le 1 q ++ le 1 (s.track.positionOf q) ++ le 1 (s.pocket q).state.code ++
      if (s.pocket q).occupied then (s.pocket q).fields else []), s)
  else (.bad 1, s)

/-- One named pocket is purged, or passed over when EMPTY (R23). -/
def State.purgePocket (s : State) (q : Nat) : State := if (s.pocket q).occupied then s.finish q .purged else s

/-- The pockets POCKET.PURGE names: FFH names ALL (R23, R177). -/
def State.purged (s : State) (n : Nat) : List Nat := if n = 255 then List.range s.track.p else [n]

/-- POCKET.PURGE (R23). -/
def State.pocketPurge (n : Nat) (s : State) : Answer × State :=
  if s.track.p = 0 then (.notReady, s)
  else if s.line.state = .stopped ∨ s.line.state = .faulted then
    if n < s.track.p ∨ n = 255 then
      (.ok (le 1 ((s.purged n).countP fun q => (s.pocket q).occupied)), (s.purged n).foldl State.purgePocket s)
    else (.bad 1, s)
  else (.busy, s)

end Sys2Proof.Machine
end

