-- ==== Sys2Proof/Machine/Line.lean ====
section
/-! DEFINITION. The Line Controller's commands (02_line_control_and_the_index_handshake.md): the index start, the settle,
the three timers, and the LINE requests. -/

namespace Sys2Proof.Machine

/-! ### Index start (R31, R32, R44) -/

/-- The Line Controller's part in an index start (R31). -/
def indexLine (l : LineCtl) : LineCtl :=
  { l with ready := false, loadOk := false, stallTimer := none, budget := none, phase := .moving,
           motionTimer := if l.state.underWay then some (ms l.motionLimitMs) else l.motionTimer }

/-- The lines as an index start finds them: MOTION high; the sensors are sampled unless P is 0 (R5, R14). -/
def Pins.sampled (unconfigured loadSense checkSense : Bool) (p : Pins) : Pins :=
  if unconfigured then { p with motion := true }
  else { p with motion := true, loadSense := loadSense, checkSense := checkSense }

/-- READY is low in RUN, DRAIN or STOPPING: an index start now is an unpermitted index (R32). -/
def LineCtl.unpermitted (l : LineCtl) : Bool := l.state.underWay && !l.ready

/-- An unpermitted index raises its event and is counted (R32). -/
def State.noteUnpermitted (s : State) : State :=
  (s.raise .unpermittedIndex .none).modLineCnt fun c => { c with unpermitted := bump c.unpermitted }

/-- The Line Controller's steps of an index start (R31, R32). -/
def State.indexLineWork (loadSense checkSense : Bool) (s : State) : State :=
  let t := ((s.modPins (Pins.sampled (s.track.p == 0) loadSense checkSense)).modLine indexLine).modLineCnt fun c =>
    { c with indexStarts := bump c.indexStarts }
  if s.line.unpermitted then t.noteUnpermitted else t

/-- In DRAIN with no pocket occupied the line becomes IDLE and the motion timer stops (R44). -/
def State.judgeDrained (s : State) : State :=
  if s.line.state = .drain ∧ s.track.occupiedCount = 0 then
    s.modLine fun l => { l with state := .idle, motionTimer := none }
  else s

/-- The work of an index start: the line, then the jobs, requests and jets it cuts short, then the track, the periodic
check flags with the new k, and the judgement of a drained turret (R31; log entry 6). -/
def State.indexStart (loadSense checkSense : Bool) (s : State) : State :=
  let t := (((s.indexLineWork loadSense checkSense).cutDwell).cutJets).trackIndex loadSense checkSense
  (t.modCal (Cal.judgeFlags t.shared.interval t.track.k)).judgeDrained

/-- INDEX_START: a rise of MOTION (R27, R31). A level already high has no rise (log entry 4). -/
def execIndexStart (loadSense checkSense : Bool) (s : State) : Host.Outcome State Fault Refusal :=
  .next (if s.pins.motion then s.transmit else (s.indexStart loadSense checkSense).transmit)

/-! ### Settle (R33) -/

/-- The phase becomes WORKING and the dwell budget starts with B (R33, R36). -/
def openDwell (l : LineCtl) : LineCtl := { l with phase := .working, budget := some (ms l.budgetMs) }

/-- A settle in RUN or DRAIN (R33): HELD retries, LOADOK, the request set, the firing, the first grants, and the judgement
of the dwell work. -/
def State.workedSettle (s : State) : State :=
  (((s.modLine openDwell).retryHeld.judgeLoadOk.formRequests).fireJets).offer

/-- A settle in IDLE, STOPPED or FAULTED (R33). -/
def restLine (l : LineCtl) : LineCtl := { l with phase := .waiting, ready := false, loadOk := false }

/-- The work of a settle, by line state (R33, R144). -/
def State.settle (s : State) : State :=
  let t := (s.modPins fun p => { p with motion := false }).modLine fun l => { l with motionTimer := none }
  match s.line.state with
  | .run => t.workedSettle
  | .drain => t.workedSettle
  | .stopping => t.enterStopped.retryHeld
  | .idle => (t.modLine restLine).retryHeld
  | .stopped => (t.modLine restLine).retryHeld
  | .faulted => (t.modLine restLine).retryHeld

/-- SETTLE: a fall of MOTION (R27, R33). A level already low has no fall (log entry 4). -/
def execSettle (s : State) : Host.Outcome State Fault Refusal :=
  .next (if s.pins.motion then s.settle.transmit else s.transmit)

/-! ### The three timers (R36 to R38) -/

/-- DWELL_BUDGET_EXPIRY (R36, R86); a stopped budget has no expiry. -/
def execDwellBudgetExpiry (s : State) : Host.Outcome State Fault Refusal :=
  .next (if s.line.budget.isSome then
      ((s.modLine fun l => { l with budget := none }).cutDwell.judgeDwell).transmit
    else s.transmit)

/-- MOTION_TIMER_EXPIRY (R37); a stopped timer has no expiry. -/
def execMotionTimerExpiry (s : State) : Host.Outcome State Fault Refusal :=
  .next (if s.line.motionTimer.isSome then
      ((s.modLine fun l => { l with motionTimer := none }).raiseFault .motionFault .none).transmit
    else s.transmit)

/-- The turret-idle counter advances (R38). -/
def countTurretIdle (c : LineCounters) : LineCounters := { c with turretIdles := bump c.turretIdles }

/-- STALL_TIMER_EXPIRY (R38); a stopped timer has no expiry. -/
def execStallTimerExpiry (s : State) : Host.Outcome State Fault Refusal :=
  .next (if s.line.stallTimer.isSome then
      (((s.modLine fun l => { l with stallTimer := none }).raise .turretIdle .none).modLineCnt countTurretIdle).transmit
    else s.transmit)

/-! ### Line replies (R49) -/

def LineState.code : LineState → Nat
  | .idle => 0
  | .run => 1
  | .drain => 2
  | .stopping => 3
  | .stopped => 4
  | .faulted => 5

def Phase.code : Phase → Nat
  | .moving => 0
  | .working => 1
  | .waiting => 2

/-- The four faults in the order of their table. -/
def FaultKind.all : List FaultKind := [.motionFault, .jam, .foreignPart, .noChannel]

/-- A set of fault kinds as a number (R177). -/
def faultSet (l : List FaultKind) : Nat := setBits (FaultKind.all.map fun k => decide (k ∈ l))

/-- The fault record in a line reply: first kind, its detail, and the set of later kinds, all absent when it is empty
(R49; log entry 27). -/
def LineCtl.faultBytes (l : LineCtl) : List Byte :=
  optBytes 1 (fun f => le 1 f.1.event.priority) l.firstFault ++ optBytes 1 (fun f => le 1 f.2.code) l.firstFault ++
    optBytes 1 (fun _ => le 1 (faultSet l.laterFaults)) l.firstFault

/-- The line reply fields (R49). -/
def LineCtl.fields (l : LineCtl) : List Byte :=
  le 1 l.state.code ++ le 1 l.phase.code ++ bitCode l.ready ++ bitCode l.loadOk ++ l.faultBytes ++ le 2 l.budgetMs ++
    le 2 l.motionLimitMs ++ le 2 l.stallLimitMs

/-- An answer to a LINE request: the ordinal of a BAD_FIELD, then the line reply fields as the line stands, then what the
owner's rule adds (R49, R172; log entry 13). -/
def State.lineReply (st : Status) (ordinal extra : List Byte) (s : State) : Answer × State :=
  (⟨st, ordinal ++ s.line.fields ++ extra⟩, s)

def State.lineOk (s : State) : Answer × State := s.lineReply .ok [] []
def State.lineBusy (s : State) : Answer × State := s.lineReply .busy [] []
def State.lineNotReady (failed : Nat) (s : State) : Answer × State := s.lineReply .notReady [] (le 1 failed)

/-! ### Entry to RUN or DRAIN (R30) -/

/-- READY is asserted if the line is still RUN or DRAIN, and the pocket at LOAD is judged for LOADOK (R30). -/
def State.readyAtRest (s : State) : State :=
  if s.line.state.worked then (s.modLine raiseReady).judgeLoadOk else s

/-- Entry to RUN or DRAIN (R30). -/
def State.enterRun (target : LineState) (s : State) : State :=
  let t := s.modLine fun l =>
    { l with state := target, phase := restPhase s.pins.motion,
             motionTimer := if s.pins.motion then some (ms l.motionLimitMs) else l.motionTimer }
  let u := if s.line.state = .stopped then t.retryHeld else t
  if s.pins.motion then u else u.readyAtRest

/-! ### LINE.START (R28, R29) -/

/-- The five conditions, in the order of their table: track, chute, lot, calibration, channel (R28). -/
def State.startConditions (s : State) : List Bool :=
  [s.track.p != 0, s.chutes.any fun c => c.cfg.isSome, s.activeSlot.isSome || s.pendingSlot.isSome, s.cal.valid,
    s.chanA.service == .inService || s.chanB.service == .inService]

/-- The set of conditions that failed (R28). -/
def State.startFailed (s : State) : Nat := setBits (s.startConditions.map not)

/-- The ordinals of LINE.START (R28). -/
def lineStartBad (b m t : Nat) : Option Nat :=
  firstBad [(1, within 5 1000 b), (2, within 20 5000 m), (3, t == 0 || within 100 60000 t)]

/-- LINE.START (R28, R29, R30). -/
def State.lineStart (b m t : Nat) (s : State) : Answer × State :=
  if s.line.state = .idle then
    if s.startFailed = 0 then
      match lineStartBad b m t with
      | some n => s.lineReply .badField (le 1 n) []
      | none =>
        ((s.modLine fun l => { l with budgetMs := b, motionLimitMs := m, stallLimitMs := t }).enterRun .run).lineOk
    else s.lineNotReady s.startFailed
  else s.lineBusy

/-! ### LINE.STOP, LINE.RESUME, LINE.DRAIN, LINE.CLEAR (R39, R42, R43, R47) -/

/-- LINE.STOP (R39). -/
def State.lineStop (s : State) : Answer × State :=
  match s.line.state with
  | .run => s.enterStopping.lineOk
  | .drain => s.enterStopping.lineOk
  | .stopping => s.lineOk
  | .stopped => s.lineOk
  | .idle => s.lineBusy
  | .faulted => s.lineBusy

/-- Both channels are SUSPECT (R42, R43). -/
def State.bothSuspect (s : State) : Bool := s.chanA.service == .suspect && s.chanB.service == .suspect

/-- The channel condition as a set of failed conditions (R49). -/
def channelFailed : Nat := setBits [false, false, false, false, true]

/-- LINE.RESUME (R42). -/
def State.lineResume (s : State) : Answer × State :=
  if s.line.state = .stopped then
    if s.bothSuspect then s.lineNotReady channelFailed else (s.enterRun .run).lineOk
  else s.lineBusy

/-- LINE.DRAIN (R43). -/
def State.lineDrain (s : State) : Answer × State :=
  match s.line.state with
  | .run => (s.modLine fun l => { l with state := .drain, loadOk := false }).lineOk
  | .stopped => if s.bothSuspect then s.lineNotReady channelFailed else (s.enterRun .drain).lineOk
  | .drain => s.lineOk
  | .idle => s.lineBusy
  | .stopping => s.lineBusy
  | .faulted => s.lineBusy

/-- FAULTED is cleared (R47). -/
def clearFault (l : LineCtl) : LineCtl :=
  { l with state := .stopped, fault := false, firstFault := none, laterFaults := [] }

/-- LINE.CLEAR (R47). -/
def State.lineClear (s : State) : Answer × State :=
  match s.line.state with
  | .faulted => (s.modLine clearFault).lineOk
  | .stopped =>
    if s.track.occupiedCount = 0 then
      ((s.modLine fun l => { l with state := .idle }).modTrack fun t => { t with loadPermit := false }).lineOk
    else s.lineBusy
  | .idle => s.lineBusy
  | .run => s.lineBusy
  | .drain => s.lineBusy
  | .stopping => s.lineBusy

/-! ### LINE.RESET (R48, R26, R72, R117, R154, R161, R162, R187, R189) -/

/-- The Line Controller after LINE.RESET (R48). -/
def resetLine (motion : Bool) (l : LineCtl) : LineCtl :=
  { l with state := .idle, phase := restPhase motion, ready := false, loadOk := false, fault := false, budget := none,
           motionTimer := none, stallTimer := none, firstFault := none, laterFaults := [] }

/-- The Track Unit after LINE.RESET (R26). -/
def Track.lineReset (t : Track) : Track :=
  { t with k := 0, phi := 0, pockets := t.pockets.map fun _ => .emptied, nextSerial := 1, loadPermit := false }

/-- A channel after LINE.RESET: a running job is discarded (R72); its counters are zeroed (R187). -/
def Channel.lineReset (c : Channel) : Channel := { c.endJob with srcRun := 0, cnt := .zero }

/-- A chute after LINE.RESET (R154). -/
def Chute.lineReset (e : Chute) : Chute :=
  { e with fill := 0, inFlight := 0, oldBox := 0, jet := none, ejected := 0, misses := 0 }

/-- The Calibration Store after LINE.RESET (R161, R162). -/
def Cal.lineReset (c : Cal) : Cal :=
  { c with trimsA := noTrims, trimsB := noTrims, flagA := false, flagB := false }

/-- LINE.RESET at every block (R48). -/
def State.resetAll (s : State) : State :=
  { s with
    line := resetLine s.pins.motion s.line
    track := s.track.lineReset
    chanA := s.chanA.lineReset
    chanB := s.chanB.lineReset
    sched := ⟨[], none, none⟩
    slot0 := .freed
    slot1 := .freed
    chutes := s.chutes.map Chute.lineReset
    cal := s.cal.lineReset
    lineCnt := .zero
    linkCnt := ⟨0, 0, 0⟩
    report := s.report.clearAllLive }

/-- LINE.RESET (R48): the reply carries the number of pocket records discarded. -/
def State.lineReset (s : State) : Answer × State := s.resetAll.lineReply .ok [] (le 1 s.track.occupiedCount)

end Sys2Proof.Machine
end

