-- ==== Sys2Proof/Machine/Counters.lean ====
section
/-! DEFINITION. The counter groups with COUNT.READ, EVENT.MASK (11_reports_events_and_counters.md), and IDENT, which the
Link Port answers itself (R173). -/

namespace Sys2Proof.Machine

/-! ### COUNT.READ (R187, R188) -/

/-- A counter group at an index (R187). -/
inductive Group where
  | line
  | lot (i : SlotId)
  | chute (c : Nat)
  | chan (ch : Chan)
  | link
  deriving DecidableEq, Repr

/-- The group a pair of bytes names, none where ordinal 1 or 2 fails (R177, R188). -/
def groupOf (group index : Nat) : Option Group :=
  match group with
  | 0 => if index = 0 then some .line else none
  | 1 => (slotOf index).map .lot
  | 2 => if within 1 20 index then some (.chute index) else none
  | 3 => (chanOf index).map .chan
  | 4 => if index = 0 then some .link else none
  | _ => none

/-- The ordinals of COUNT.READ (R188). -/
def countReadBad (group index clear : Nat) : Option Nat :=
  firstBad [(1, within 0 4 group), (2, (groupOf group index).isSome), (3, within 0 1 clear)]

/-- The LINE counters in the order of R187. -/
def LineCounters.list (c : LineCounters) : List Nat :=
  [c.indexStarts, c.unpermitted, c.turretIdles, c.loads, c.loadMisses, c.sorted, c.lost, c.purged, c.droppedPart,
    c.droppedRefer, c.droppedLotEnd, c.jetCuts]

/-- The CHAN counters in the order of R187. -/
def ChanCounters.list (c : ChanCounters) : List Nat :=
  [c.accepted, c.unstable, c.contactLost, c.sourceFault, c.linkError, c.stall, c.cut, c.noTime, c.short, c.long,
    c.polarity, c.checks, c.trims]

/-- The LINK counters in the order of R187. -/
def LinkCounters.list (c : LinkCounters) : List Nat := [c.badFrames, c.overflows, c.unknownTypes]

/-- Every counter of a group, then the values of state it carries (R187, R188). -/
def State.groupFields (s : State) : Group → List Byte
  | .line => eachBytes (le 4) s.lineCnt.list ++ le 1 s.line.state.code ++ le 1 s.track.occupiedCount
  | .lot i => eachBytes (le 4) (s.slot i).cnt.list ++ le 1 (s.slot i).state.code ++ le 1 (s.slot i).resident
  | .chute c =>
    le 4 (s.chute c).ejected ++ le 2 (s.chute c).misses ++ bitCode (s.chute c).cfg.isSome ++
      optBytes 2 (fun g => le 2 g.capacity) (s.chute c).cfg ++ le 2 (s.chute c).fill ++ le 2 (s.chute c).inFlight ++
      le 2 (s.chute c).oldBox ++ le 1 (s.chute c).state.code
  | .chan ch =>
    eachBytes (le 4) (s.chan ch).cnt.list ++ le 1 (s.chan ch).service.code ++ trimValueBytes (s.cal.trims ch)
  | .link => eachBytes (le 4) s.linkCnt.list

/-- Every counter of a group set to 0; the state values are not touched (R188). -/
def State.clearGroup (s : State) : Group → State
  | .line => s.modLineCnt fun _ => .zero
  | .lot i => s.modSlot i fun sl => { sl with cnt := .zero }
  | .chute c => s.modChute c fun e => { e with ejected := 0, misses := 0 }
  | .chan ch => s.modChan ch fun c => { c with cnt := .zero }
  | .link => s.modLinkCnt fun _ => ⟨0, 0, 0⟩

/-- COUNT.READ (R188). -/
def State.countRead (group index clear : Nat) (s : State) : Answer × State :=
  match countReadBad group index clear, groupOf group index with
  | some n, _ => (.bad n, s)
  | none, some g => (.ok (s.groupFields g), if clear = 1 then s.clearGroup g else s)
  | none, none => (.bad 2, s)

/-! ### EVENT.MASK (R186) -/

/-- The set of kinds pending (R186). -/
def Report.pendingSet (r : Report) : Nat := setBits (EventKind.all.map fun k => (r.event k).isSome)

/-- EVENT.MASK (R186). The set of pending kinds is formed before an IDLE transmitter takes a kind that the new mask unmasks, so it
holds that kind (log entry 34). -/
def State.eventMask (mask : Nat) (s : State) : Answer × State :=
  if mask < 16384 then
    (.ok (le 2 mask ++ le 2 s.report.pendingSet), s.modReport fun r => { r with mask := BitVec.ofNat 14 mask })
  else (.bad 1, s)

/-! ### IDENT (R173) -/

/-- The six characters NK-612. -/
def partName : List Byte := [0x4E#8, 0x4B#8, 0x2D#8, 0x36#8, 0x31#8, 0x32#8]

/-- The fields of an IDENT reply (R173). -/
def State.identFields (s : State) : List Byte :=
  partName ++ le 1 1 ++ le 4 s.link.speed ++ bitCode s.cal.valid ++ le 2 s.cal.working.number ++ le 1 s.track.p

/-- IDENT (R173). -/
def State.ident (s : State) : Answer × State := (.ok s.identFields, s)

end Sys2Proof.Machine
end

