-- ==== Sys2Proof/Machine/Verdict.lean ====
section
/-! DEFINITION. VERDICT (section 7.7 of 07_class_decision_and_the_grade_ladder.md). -/

namespace Sys2Proof.Machine

/-- The ordinals of VERDICT: a serial other than 0; a chute that is configured, 80H for REJECT or 81H for RETEST
(R128, R177). -/
def State.verdictBad (s : State) (serial choice : Nat) : Option Nat :=
  firstBad [(1, serial != 0), (2, s.chuteOk choice || choice == 128 || choice == 129)]

/-- The first pocket, in number order, that passes a test. -/
def State.findPocket (s : State) (test : Pocket → Bool) : Option Nat := s.track.pockets.findIdx? test

/-- The REFERRED pocket that holds a serial (R128). -/
def State.referredWith (s : State) (serial : Nat) : Option Nat :=
  s.findPocket fun p => p.state == .referred && p.serial == some serial

/-- The occupied pocket that holds a serial (R130). -/
def State.occupiedWith (s : State) (serial : Nat) : Option Nat :=
  s.findPocket fun p => p.occupied && p.serial == some serial

/-- The target a choice gives (R129). -/
def verdictTarget (d : LotDef) (choice : Nat) : Nat :=
  if choice = 128 then d.rejectChute else if choice = 129 then d.retestChute else choice

/-- The reply of a verdict applied to pocket q: its number, its state and, when DECIDED, the chute committed (R129). -/
def State.verdictFields (s : State) (q : Nat) : List Byte :=
  le 1 q ++ le 1 (s.pocket q).state.code ++
    optBytes 1 (le 1) (if (s.pocket q).state = .decided then (s.pocket q).chute else none)

/-- A verdict applied to the REFERRED pocket q (R129). -/
def State.applyVerdict (q choice : Nat) (s : State) : Answer × State :=
  let target := ((s.definitionOf (s.pocket q)).map fun d => verdictTarget d choice).getD choice
  let t := s.answerReferral q target .verdict countAnswered
  (.ok (t.verdictFields q), t)

/-- The decision source of a pocket, if it is decided. -/
def Pocket.source (p : Pocket) : Option Source := p.decision.map Decision.source

/-- The fields of a TOO_LATE reply: pocket, state and decision source, none of them when no occupied pocket holds the
serial (R130). -/
def State.tooLateFields (s : State) (q : Option Nat) : List Byte :=
  optBytes 1 (le 1) q ++ optBytes 1 (fun n => le 1 (s.pocket n).state.code) q ++
    optBytes 1 (fun c => le 1 c.code) (q.bind fun n => (s.pocket n).source)

/-- A verdict whose serial no REFERRED pocket holds (R130): counted late where its pocket was defaulted. -/
def State.lateVerdict (serial : Nat) (s : State) : Answer × State :=
  let q := s.occupiedWith serial
  (⟨.tooLate, s.tooLateFields q⟩,
    match q with
    | some n => if (s.pocket n).source = some .referDefault then s.bumpLotOf n countLate else s
    | none => s)

/-- VERDICT (R128). -/
def State.verdict (serial choice : Nat) (s : State) : Answer × State :=
  if s.track.p = 0 then (.notReady, s)
  else match s.verdictBad serial choice with
    | some n => (.bad n, s)
    | none =>
      match s.referredWith serial with
      | some q => s.applyVerdict q choice
      | none => s.lateVerdict serial

end Sys2Proof.Machine
end

