-- ==== Sys2Proof/Machine/Link.lean ====
section
/-! DEFINITION. The Link Port (10_link_framing_and_requests.md): the serial receiver, the receive buffer, the taking of
requests, the end of a transmission, and one meaning for each request of the opcode table. -/

namespace Sys2Proof.Machine

/-! ### The receiver (R168, R169) -/

/-- The gap timer, and the pause that ends a run of discarded bytes, pass 5 ms (R168, R169; log entry 22). -/
def gapLimit : Nat := 5001

/-- The bad-frame counter advances (R168, R169). -/
def State.countBadFrame (s : State) : State := s.modLinkCnt fun c => { c with badFrames := bump c.badFrames }

def State.setReceiver (r : LinkReceiver) (s : State) : State := s.modLink fun l => { l with receiver := r }

/-- A frame is given up (R169). -/
def State.giveUp (s : State) : State := (s.setReceiver (.hunting none)).countBadFrame

/-- A whole frame joins the buffer, or is discarded and counted while 4 wait (R170). -/
def State.bufferFrame (f : Frame) (s : State) : State :=
  if s.link.buffer.length < 4 then s.modLink fun l => { l with buffer := l.buffer ++ [f] }
  else s.modLinkCnt fun c => { c with overflows := bump c.overflows }

/-- The payload length that the collected bytes of a frame give (R166). -/
def collectedLength (bs : List Byte) : Nat := leNat ((bs.drop 1).take 2)

/-- The check bytes of a frame collected whole agree with the code formed over it (R167, R169). -/
def checkAgrees (bs : List Byte) : Bool :=
  leNat (bs.drop (bs.length - 2)) == (checkCode ((bs.drop 1).take (bs.length - 3))).toNat

/-- The frame that collected bytes spell (R166). -/
def collectedFrame (bs : List Byte) : Frame :=
  ⟨bs.getD 3 0#8, bs.getD 4 0#8, (bs.drop 5).take (bs.length - 7)⟩

/-- What the bytes collected come to (R169). -/
inductive Collected where
  | more
  | bad
  | whole (f : Frame)
  deriving DecidableEq, Repr

/-- The judgement of the bytes collected so far (R169): the length at its second byte, the check at its second byte. -/
def judgeCollected (bs : List Byte) : Collected :=
  if bs.length < 3 then .more
  else if 500 < collectedLength bs then .bad
  else if bs.length < collectedLength bs + 7 then .more
  else if checkAgrees bs then .whole (collectedFrame bs)
  else .bad

/-- A byte in HUNTING (R168). -/
def State.huntByte (run : Option Nat) (b : LinkByte) (s : State) : State :=
  if b.whole && b.value == 0x5A#8 then
    (if run.isSome then s.countBadFrame else s).setReceiver (.inFrame [b.value] gapLimit)
  else s.setReceiver (.hunting (some gapLimit))

/-- A byte IN FRAME (R169). -/
def State.frameByte (collected : List Byte) (b : LinkByte) (s : State) : State :=
  if b.whole then
    match judgeCollected (collected ++ [b.value]) with
    | .more => s.setReceiver (.inFrame (collected ++ [b.value]) gapLimit)
    | .bad => s.giveUp
    | .whole f => (s.setReceiver (.hunting none)).bufferFrame f
  else s.giveUp

/-- One byte at the serial receiver. -/
def State.linkByte (s : State) (b : LinkByte) : State :=
  match s.link.receiver with
  | .hunting run => s.huntByte run b
  | .inFrame collected _ => s.frameByte collected b

/-- LINK_FRAME_RECEIVED: bytes arrive, one after the other, with no pause between them (R168 to R170). -/
def execLinkFrameReceived (bytes : List LinkByte) (s : State) : Host.Outcome State Fault Refusal :=
  .next (bytes.foldl State.linkByte s).transmit

/-- GAP_EXPIRY (R169); in HUNTING no gap timer runs. -/
def execGapExpiry (s : State) : Host.Outcome State Fault Refusal :=
  .next (match s.link.receiver with
    | .inFrame _ _ => s.giveUp.transmit
    | .hunting _ => s.transmit)

/-- HUNTING_PAUSE (R168): a pause ends an open run of discarded bytes. -/
def execHuntingPause (s : State) : Host.Outcome State Fault Refusal :=
  .next (match s.link.receiver with
    | .hunting (some _) => s.giveUp.transmit
    | .hunting none => s.transmit
    | .inFrame _ _ => s.transmit)

/-! ### Requests at their owners (R171) -/

/-- The Link Port may take a request: none is in progress and the reply slot is empty (R171). -/
def State.linkFree (s : State) : Bool := s.link.inProgress.isNone && s.report.reply.isNone

/-- The owner's rule for each request but CAL.WRITE, which alone may leave its request in progress. -/
def State.owner (r : Request) (s : State) : Answer × State :=
  match r with
  | .ident => s.ident
  | .trackSet r => s.trackSet r
  | .trackRead => s.trackRead
  | .chuteSet c a f => s.chuteSet c a f
  | .chanSet r => s.chanSet r
  | .chanRead c => s.chanRead c
  | .chanReset c => s.chanReset c
  | .chanRestore c => s.chanRestore c
  | .lotLoad r => s.lotLoad r
  | .lotArm i => s.lotArm i
  | .lotFree i => s.lotFree i
  | .lotRead i => s.lotRead i
  | .lineStart b m t => s.lineStart b m t
  | .lineStop => s.lineStop
  | .lineDrain => s.lineDrain
  | .lineResume => s.lineResume
  | .lineClear => s.lineClear
  | .lineReset => s.lineReset
  | .pocketRead q => s.pocketRead q
  | .pocketPurge q => s.pocketPurge q
  | .verdict n c => s.verdict n c
  | .boxExchanged c => s.boxExchanged c
  | .tempSet v => s.tempSet v
  | .calRead => s.calRead
  | .calWrite _ => (.busy, s)
  | .countRead g i c => s.countRead g i c
  | .eventMask m => s.eventMask m

/-- An owner's answer becomes the reply to a request (R171, R172). -/
def State.reply (tag : Byte) (r : Request) (a : Answer × State) : State := a.2.answer r.typeCode tag a.1

/-- An answer that may be still to come: none while a CAL.WRITE stays in progress (R158, R171). -/
def State.replyIf (tag : Byte) (r : Request) (a : Option Answer × State) : State :=
  match a.1 with
  | some x => a.2.answer r.typeCode tag x
  | none => a.2

/-- A request handed to its owner, and answered (R171 step 4). -/
def State.handle (tag : Byte) (r : Request) (s : State) : State :=
  match r with
  | .calWrite ps => State.replyIf tag r (s.calWrite tag ps)
  | _ => State.reply tag r (s.owner r)

/-- The unknown-type counter advances (R171). -/
def State.countUnknown (s : State) : State := s.modLinkCnt fun c => { c with unknownTypes := bump c.unknownTypes }

/-- A frame taken is judged (R171). A BAD_LENGTH reply carries no further payload, for a LINE type too (log entry 29). -/
def State.judgeFrame (f : Frame) (s : State) : State :=
  match f.parse with
  | .discarded => s.countUnknown
  | .unknownType => s.countUnknown.place (replyFrame f.typ f.tag .unknownType [])
  | .badLength => s.place (replyFrame f.typ f.tag .badLength [])
  | .request r => s.handle f.tag r

/-- CALEN as it stands when a request is taken (R157). -/
def State.sampleCalen (b : Bool) (s : State) : State := s.modPins fun p => { p with calen := b }

/-- The oldest frame leaves the buffer and is judged (R170, R171). -/
def State.takeFrameOf (calen : Bool) (s : State) : State :=
  match s.link.buffer with
  | [] => s
  | f :: rest => ((s.sampleCalen calen).modLink fun l => { l with buffer := rest }).judgeFrame f

/-- The oldest frame is an EVENT.MASK. -/
def State.maskWaits (s : State) : Bool :=
  match s.link.buffer with
  | [] => false
  | f :: _ =>
    match f.parse with
    | .request (.eventMask _) => true
    | _ => false

/-- REQUEST_TAKEN (R171): the oldest frame is taken when no request is in progress and the reply slot is empty. -/
def execRequestTaken (calen : Bool) (s : State) : Host.Outcome State Fault Refusal :=
  .next (if s.linkFree then
      (if s.maskWaits then (s.takeFrameOf calen).transmitTop else (s.takeFrameOf calen).transmit)
    else s.transmit)

/-- TRANSMIT_END (R179). -/
def execTransmitEnd (s : State) : Host.Outcome State Fault Refusal := .next s.frameSent

/-! ### The request rows (log entry 1) -/

/-- A request arriving whole is taken at once: the Link Port may take one, and none waits before it (R171). -/
def State.takesAtOnce (s : State) : Bool := s.linkFree && s.link.buffer.isEmpty

/-- A request arriving whole: its owner answers it at once when the Link Port may take it and none waits before it; else
its frame joins the receive buffer (R170, R171). -/
def State.ask (tag : Byte) (r : Request) (owner : State → Answer × State) (s : State) : State :=
  if s.takesAtOnce then State.reply tag r (owner s) else s.bufferFrame (r.frame tag)

/-- IDENT (R173). -/
def execIdent (tag : Byte) (s : State) : Host.Outcome State Fault Refusal :=
  .next (s.ask tag .ident State.ident).transmit

/-- TRACK.SET (R2 to R4). -/
def execTrackSet (tag : Byte) (r : TrackSetReq) (s : State) : Host.Outcome State Fault Refusal :=
  .next (s.ask tag (.trackSet r) (State.trackSet r)).transmit

/-- TRACK.READ (R6). -/
def execTrackRead (tag : Byte) (s : State) : Host.Outcome State Fault Refusal :=
  .next (s.ask tag .trackRead State.trackRead).transmit

/-- CHUTE.SET with action CONFIGURE (R138, R139). -/
def execChuteConfigure (tag : Byte) (c : Nat) (f : ChuteFields) (s : State) : Host.Outcome State Fault Refusal :=
  .next (s.ask tag (.chuteSet c 0 f) (State.chuteSet c 0 f)).transmit

/-- CHUTE.SET with action REMOVE (R138, R140); its other fields are not judged and are sent as 0. -/
def execChuteRemove (tag : Byte) (c : Nat) (s : State) : Host.Outcome State Fault Refusal :=
  .next (s.ask tag (.chuteSet c 1 ⟨0, 0, 0, 0, 0⟩) (State.chuteSet c 1 ⟨0, 0, 0, 0, 0⟩)).transmit

/-- CHAN.SET (R51, R52). -/
def execChanSet (tag : Byte) (r : ChanSetReq) (s : State) : Host.Outcome State Fault Refusal :=
  .next (s.ask tag (.chanSet r) (State.chanSet r)).transmit

/-- CHAN.READ (R73). -/
def execChanRead (tag : Byte) (c : Nat) (s : State) : Host.Outcome State Fault Refusal :=
  .next (s.ask tag (.chanRead c) (State.chanRead c)).transmit

/-- CHAN.RESET (R57). -/
def execChanReset (tag : Byte) (c : Nat) (s : State) : Host.Outcome State Fault Refusal :=
  .next (s.ask tag (.chanReset c) (State.chanReset c)).transmit

/-- CHAN.RESTORE (R60). -/
def execChanRestore (tag : Byte) (c : Nat) (s : State) : Host.Outcome State Fault Refusal :=
  .next (s.ask tag (.chanRestore c) (State.chanRestore c)).transmit

/-- LOT.LOAD (R105 to R107). -/
def execLotLoad (tag : Byte) (r : LotLoadReq) (s : State) : Host.Outcome State Fault Refusal :=
  .next (s.ask tag (.lotLoad r) (State.lotLoad r)).transmit

/-- LOT.ARM (R109). -/
def execLotArm (tag : Byte) (i : Nat) (s : State) : Host.Outcome State Fault Refusal :=
  .next (s.ask tag (.lotArm i) (State.lotArm i)).transmit

/-- LOT.FREE (R114). -/
def execLotFree (tag : Byte) (i : Nat) (s : State) : Host.Outcome State Fault Refusal :=
  .next (s.ask tag (.lotFree i) (State.lotFree i)).transmit

/-- LOT.READ (R116). -/
def execLotRead (tag : Byte) (i : Nat) (s : State) : Host.Outcome State Fault Refusal :=
  .next (s.ask tag (.lotRead i) (State.lotRead i)).transmit

/-- LINE.START (R28 to R30). -/
def execLineStart (tag : Byte) (b m t : Nat) (s : State) : Host.Outcome State Fault Refusal :=
  .next (s.ask tag (.lineStart b m t) (State.lineStart b m t)).transmit

/-- LINE.STOP (R39). -/
def execLineStop (tag : Byte) (s : State) : Host.Outcome State Fault Refusal :=
  .next (s.ask tag .lineStop State.lineStop).transmit

/-- LINE.DRAIN (R43). -/
def execLineDrain (tag : Byte) (s : State) : Host.Outcome State Fault Refusal :=
  .next (s.ask tag .lineDrain State.lineDrain).transmit

/-- LINE.RESUME (R42). -/
def execLineResume (tag : Byte) (s : State) : Host.Outcome State Fault Refusal :=
  .next (s.ask tag .lineResume State.lineResume).transmit

/-- LINE.CLEAR (R47). -/
def execLineClear (tag : Byte) (s : State) : Host.Outcome State Fault Refusal :=
  .next (s.ask tag .lineClear State.lineClear).transmit

/-- LINE.RESET (R48). -/
def execLineReset (tag : Byte) (s : State) : Host.Outcome State Fault Refusal :=
  .next (s.ask tag .lineReset State.lineReset).transmit

/-- POCKET.READ (R24). -/
def execPocketRead (tag : Byte) (q : Nat) (s : State) : Host.Outcome State Fault Refusal :=
  .next (s.ask tag (.pocketRead q) (State.pocketRead q)).transmit

/-- POCKET.PURGE (R23). -/
def execPocketPurge (tag : Byte) (q : Nat) (s : State) : Host.Outcome State Fault Refusal :=
  .next (s.ask tag (.pocketPurge q) (State.pocketPurge q)).transmit

/-- VERDICT (R128 to R130). -/
def execVerdict (tag : Byte) (serial choice : Nat) (s : State) : Host.Outcome State Fault Refusal :=
  .next (s.ask tag (.verdict serial choice) (State.verdict serial choice)).transmit

/-- BOX.EXCHANGED (R150, R151). -/
def execBoxExchanged (tag : Byte) (c : Nat) (s : State) : Host.Outcome State Fault Refusal :=
  .next (s.ask tag (.boxExchanged c) (State.boxExchanged c)).transmit

/-- TEMP.SET (R174). -/
def execTempSet (tag : Byte) (v : Int) (s : State) : Host.Outcome State Fault Refusal :=
  .next (s.ask tag (.tempSet v) (State.tempSet v)).transmit

/-- CAL.READ (R160). -/
def execCalRead (tag : Byte) (s : State) : Host.Outcome State Fault Refusal :=
  .next (s.ask tag .calRead State.calRead).transmit

/-- CAL.WRITE (R157, R158), with CALEN as it stands when the request is taken; a request that joins the buffer is taken
later, with CALEN as it stands then. -/
def execCalWrite (tag : Byte) (pairs : List CalPair) (calen : Bool) (s : State) : Host.Outcome State Fault Refusal :=
  .next (if s.takesAtOnce then
      (State.replyIf tag (.calWrite pairs) ((s.sampleCalen calen).calWrite tag pairs)).transmit
    else (s.bufferFrame ((Request.calWrite pairs).frame tag)).transmit)

/-- COUNT.READ (R188). -/
def execCountRead (tag : Byte) (g i c : Nat) (s : State) : Host.Outcome State Fault Refusal :=
  .next (s.ask tag (.countRead g i c) (State.countRead g i c)).transmit

/-- EVENT.MASK (R186). -/
def execEventMask (tag : Byte) (m : Nat) (s : State) : Host.Outcome State Fault Refusal :=
  .next (s.ask tag (.eventMask m) (State.eventMask m)).transmitTop

end Sys2Proof.Machine
end

