-- ==== Sys2Proof/Machine/Clock.lean ====
section
/-! DEFINITION. What the part does when no command waits: an event that has come due is queued, or one microsecond passes
(log entries 2 and 18). -/

namespace Sys2Proof.Machine

/-- A command that is due when a condition holds. -/
def dueIf (b : Bool) (c : Instr) : List Instr := if b then [c] else []

/-- A running timer has reached 0. -/
def expired (t : Option Nat) : Bool := t == some 0

/-- The expiries due at a channel (R55, R64). -/
def Channel.due (ch : Chan) (c : Channel) : List Instr :=
  dueIf (expired c.watchdog) (.watchdogExpiry ch) ++ dueIf (expired c.relayTimer) (.relaySettleExpiry ch)

/-- The expiries due at the line (R36, R37, R38). -/
def LineCtl.due (l : LineCtl) : List Instr :=
  dueIf (expired l.budget) .dwellBudgetExpiry ++ dueIf (expired l.motionTimer) .motionTimerExpiry ++
    dueIf (expired l.stallTimer) .stallTimerExpiry

/-- The jets whose pulse has run out (R146). -/
def State.jetsDue (s : State) : List Instr :=
  (chuteNumbers.filter fun c => expired (s.chute c).jet).map .jetCompletion

/-- The expiry due at the serial receiver (R168, R169). -/
def LinkReceiver.due : LinkReceiver → List Instr
  | .hunting run => dueIf (expired run) .huntingPause
  | .inFrame _ gap => dueIf (gap == 0) .gapExpiry

/-- A write in flight has come to its limit (R158). -/
def State.writeDue (s : State) : Bool := s.link.inProgress.any fun w => w.left == 0

/-- The commands that the part itself is due to take (R171 for the request). -/
def State.due (s : State) : List Instr :=
  dueIf (s.linkFree && !s.link.buffer.isEmpty) (.requestTaken s.pins.calen) ++ s.chanA.due .A ++ s.chanB.due .B ++
    s.line.due ++ s.jetsDue ++ dueIf (s.temp.running && s.temp.left == 0) .stalenessExpiry ++ s.link.receiver.due ++
    dueIf s.writeDue .calWriteCompletion

/-- A running timer counts down by 1 µs. -/
def tickTimer (t : Option Nat) : Option Nat := t.map (· - 1)

def Channel.tick (c : Channel) : Channel :=
  { c with watchdog := tickTimer c.watchdog, relayTimer := tickTimer c.relayTimer }

def LineCtl.tick (l : LineCtl) : LineCtl :=
  { l with budget := tickTimer l.budget, motionTimer := tickTimer l.motionTimer, stallTimer := tickTimer l.stallTimer }

def Chute.tick (e : Chute) : Chute := { e with jet := tickTimer e.jet }

/-- The staleness timer counts only while it runs and the line is RUN, DRAIN or STOPPING (R175). -/
def Temp.tick (counting : Bool) (t : Temp) : Temp := if t.running && counting then { t with left := t.left - 1 } else t

def LinkReceiver.tick : LinkReceiver → LinkReceiver
  | .hunting run => .hunting (tickTimer run)
  | .inFrame collected gap => .inFrame collected (gap - 1)

def Link.tick (l : Link) : Link :=
  { l with receiver := l.receiver.tick, inProgress := l.inProgress.map fun w => { w with left := w.left - 1 } }

/-- One microsecond passes. -/
def State.tick (s : State) : State :=
  { s with
    chanA := s.chanA.tick
    chanB := s.chanB.tick
    line := s.line.tick
    chutes := s.chutes.map Chute.tick
    temp := s.temp.tick s.line.state.underWay
    link := s.link.tick }

/-- No command waits: one of the commands that are due is queued, a free choice where several are, or 1 µs passes. -/
def State.idle (s : State) : State :=
  match s.due with
  | [] => s.tick
  | [c] => { s with pending := [c] }
  | c :: cs => ({ s with pending := [(c :: cs).getD (s.freeIndex (cs.length + 1)) c] }).chosen

end Sys2Proof.Machine
end

