-- ==== Sys2Proof/Machine/Reset.lean ====
section
/-! DEFINITION. POWER_ON_RESET: power-on and RESETn, which act on every block alike (R25, R27, R50, R103, R117, R136, R156,
R165, R175, R176, R178); the stored calibration copy alone outlives them. -/

namespace Sys2Proof.Machine

/-- A number each bit of which is the old one's where the mask has a 1, and the new one's elsewhere. -/
def mixBits (mask : BitVec 64) (old new : Nat) : Nat :=
  ((BitVec.ofNat 64 old &&& mask) ||| (BitVec.ofNat 64 new &&& ~~~mask)).toNat

/-- Pairs part-written: each bit of each value old or new, by the i-th mask on (R159; log entry 8). -/
def mixPairs (mask : Nat → BitVec 64) : Nat → List CalPair → List CalPair → List CalPair
  | _, _, [] => []
  | i, old, p :: ps =>
    let o := old.headD ⟨0, 0⟩
    ⟨mixBits (mask i) o.rref p.rref, mixBits (mask (i + 1)) o.c p.c⟩ :: mixPairs mask (i + 2) (old.drop 1) ps

/-- The stored copy when power is lost or RESETn falls with a CAL.WRITE in flight: no check code matches, and the entries
and the number may be old, new or partly each (R159). -/
def interruptedCopy (mask : Nat → BitVec 64) (old new : CalTable) : StoredCal :=
  ⟨⟨mixPairs mask 0 old.pairs new.pairs, mixBits (mask 12) old.number new.number⟩, none⟩

/-- The stored copy as power-on finds it (R156, R159). -/
def State.storedAtReset (s : State) : StoredCal :=
  match s.link.inProgress with
  | none => s.cal.stored
  | some w => interruptedCopy (Config.unwrittenBits s.choices) s.cal.stored.table (s.cal.nextTable w.pairs)

/-- POWER_ON_RESET (R25): every block at its power-on values, the stored copy judged (R156), the lines as they stand. -/
def execPowerOnReset (motion baud1 baud0 : Bool) (s : State) : Host.Outcome State Fault Refusal :=
  .next (State.poweredOn { s.pins with motion := motion, baud1 := baud1, baud0 := baud0 } s.storedAtReset
    s.storedAtReset.judged (if s.link.inProgress.isSome then s.choices + 1 else s.choices) s.pending)

end Sys2Proof.Machine
end

