-- ==== Sys2Proof/Machine/Dispatch.lean ====
section
/-! DEFINITION. exec: one arm per command. -/

namespace Sys2Proof.Machine

def exec (i : Instr) (s : State) : Host.Outcome State Fault Refusal :=
  match i with
  | .powerOnReset motion baud1 baud0 => Sys2Proof.Machine.execPowerOnReset motion baud1 baud0 s
  | .indexStart loadSense checkSense => Sys2Proof.Machine.execIndexStart loadSense checkSense s
  | .settle => Sys2Proof.Machine.execSettle s
  | .frameTaken ch symbols => Sys2Proof.Machine.execFrameTaken ch symbols s
  | .watchdogExpiry ch => Sys2Proof.Machine.execWatchdogExpiry ch s
  | .relaySettleExpiry ch => Sys2Proof.Machine.execRelaySettleExpiry ch s
  | .dwellBudgetExpiry => Sys2Proof.Machine.execDwellBudgetExpiry s
  | .motionTimerExpiry => Sys2Proof.Machine.execMotionTimerExpiry s
  | .stallTimerExpiry => Sys2Proof.Machine.execStallTimerExpiry s
  | .jetCompletion chute => Sys2Proof.Machine.execJetCompletion chute s
  | .stalenessExpiry => Sys2Proof.Machine.execStalenessExpiry s
  | .linkFrameReceived bytes => Sys2Proof.Machine.execLinkFrameReceived bytes s
  | .gapExpiry => Sys2Proof.Machine.execGapExpiry s
  | .huntingPause => Sys2Proof.Machine.execHuntingPause s
  | .requestTaken calen => Sys2Proof.Machine.execRequestTaken calen s
  | .transmitEnd => Sys2Proof.Machine.execTransmitEnd s
  | .ident tag => Sys2Proof.Machine.execIdent tag s
  | .trackSet tag req => Sys2Proof.Machine.execTrackSet tag req s
  | .trackRead tag => Sys2Proof.Machine.execTrackRead tag s
  | .chuteConfigure tag chute fields => Sys2Proof.Machine.execChuteConfigure tag chute fields s
  | .chuteRemove tag chute => Sys2Proof.Machine.execChuteRemove tag chute s
  | .chanSet tag req => Sys2Proof.Machine.execChanSet tag req s
  | .chanRead tag chan => Sys2Proof.Machine.execChanRead tag chan s
  | .chanReset tag chan => Sys2Proof.Machine.execChanReset tag chan s
  | .chanRestore tag chan => Sys2Proof.Machine.execChanRestore tag chan s
  | .lotLoad tag req => Sys2Proof.Machine.execLotLoad tag req s
  | .lotArm tag slot => Sys2Proof.Machine.execLotArm tag slot s
  | .lotFree tag slot => Sys2Proof.Machine.execLotFree tag slot s
  | .lotRead tag slot => Sys2Proof.Machine.execLotRead tag slot s
  | .lineStart tag b m t => Sys2Proof.Machine.execLineStart tag b m t s
  | .lineStop tag => Sys2Proof.Machine.execLineStop tag s
  | .lineDrain tag => Sys2Proof.Machine.execLineDrain tag s
  | .lineResume tag => Sys2Proof.Machine.execLineResume tag s
  | .lineClear tag => Sys2Proof.Machine.execLineClear tag s
  | .lineReset tag => Sys2Proof.Machine.execLineReset tag s
  | .pocketRead tag pocket => Sys2Proof.Machine.execPocketRead tag pocket s
  | .pocketPurge tag pocket => Sys2Proof.Machine.execPocketPurge tag pocket s
  | .verdict tag serial choice => Sys2Proof.Machine.execVerdict tag serial choice s
  | .boxExchanged tag chute => Sys2Proof.Machine.execBoxExchanged tag chute s
  | .tempSet tag centi => Sys2Proof.Machine.execTempSet tag centi s
  | .calRead tag => Sys2Proof.Machine.execCalRead tag s
  | .calWrite tag pairs calen => Sys2Proof.Machine.execCalWrite tag pairs calen s
  | .calWriteCompletion => Sys2Proof.Machine.execCalWriteCompletion s
  | .countRead tag group index clear => Sys2Proof.Machine.execCountRead tag group index clear s
  | .eventMask tag mask => Sys2Proof.Machine.execEventMask tag mask s

end Sys2Proof.Machine
end

