-- ==== Sys2Proof/Safety.lean ====
section
/-! DEFINITION. What holds of the part in every state that a run reaches: the invariants that the manual's prose lays down
over all commands, in the terms the claims use. -/

namespace Sys2Proof.Machine

/-! ### Shape -/

/-- The tables have their lengths and the turret phase its range (R1, R7, R9, R136, R184). -/
def ShapeInv (s : State) : Prop :=
  s.track.pockets.length = s.track.p ∧ s.track.p ≤ 48 ∧ (s.track.p ≠ 0 → s.track.phi < s.track.p) ∧
    s.chutes.length = 20 ∧ s.report.events.length = 14

/-! ### Line and handshake -/

/-- READY is asserted in phase WAITING of RUN and DRAIN and nowhere else; FAULT is asserted in FAULTED and nowhere else;
LOADOK only in RUN, with the load-permit memory set; MOVING is the phase of a high MOTION; WORKING occurs only in RUN, DRAIN
and STOPPING, and STOPPING does not wait (R14, R27, R35, R41, R45). -/
def HandshakeInv (s : State) : Prop :=
  s.line.ready = (s.line.state.worked && s.line.phase == .waiting) ∧
  s.line.fault = (s.line.state == .faulted) ∧
  (s.line.loadOk = true → s.line.state = .run ∧ s.track.loadPermit = true) ∧
  (s.line.phase = .moving ↔ s.pins.motion = true) ∧
  (s.line.phase = .working → s.line.state.underWay = true) ∧
  (s.line.state = .stopping → s.line.phase ≠ .waiting)

/-- The fault record is held in FAULTED and nowhere else (R45 to R49). -/
def FaultInv (s : State) : Prop :=
  s.line.firstFault.isSome = (s.line.state == .faulted) ∧ (s.line.state ≠ .faulted → s.line.laterFaults = [])

/-- The budget runs only in WORKING, the stall timer only while READY is asserted, the motion timer through MOVING in RUN,
DRAIN and STOPPING (R36, R37, R38). -/
def TimerInv (s : State) : Prop :=
  (s.line.budget.isSome = true → s.line.phase = .working) ∧
  (s.line.stallTimer.isSome = true → s.line.ready = true) ∧
  s.line.motionTimer.isSome = (s.line.state.underWay && s.line.phase == .moving)

/-- The Line Controller's invariant. -/
def LineInv (s : State) : Prop := HandshakeInv s ∧ FaultInv s ∧ TimerInv s

/-! ### Channels -/

/-- What a grant record and a relay connection are while a job runs (R63, R74, R81). -/
def Job.relay (j : Job) : Relay :=
  match j.kind with
  | .station i _ _ => .station i
  | .check => .check

def Job.grant (j : Job) : Grant :=
  match j.kind with
  | .station i q g => .station i q g j.range
  | .check => .check j.range

def Sched.grantOf (s : Sched) : Chan → Option Grant
  | .A => s.grantA
  | .B => s.grantB

/-- A channel's invariant: the watchdog runs while IN_SERVICE alone; a job runs in a job state other than IDLE, IN_SERVICE
alone, with the relay connection, range and grant record of that job; the relay settle timer runs while CONNECTING; the runs
stay below the values that end them (R50, R55, R56, R58, R59, R62, R63, R74). -/
def ChannelInv (c : Channel) (g : Option Grant) : Prop :=
  c.watchdog.isSome = (c.service == .inService) ∧
  c.job.isSome = (c.jobState != .idle) ∧
  (c.job.isSome = true → c.service = .inService) ∧
  c.relay = (c.job.map Job.relay).getD .open ∧
  (∀ j ∈ c.job, c.range = j.range) ∧
  g = c.job.map Job.grant ∧
  c.relayTimer.isSome = (c.jobState == .connecting) ∧
  (c.service ≠ .stalled → c.goodRun = 0) ∧ c.goodRun < 4 ∧ c.srcRun < 3

/-- Both channels (R50). -/
def ChannelsInv (s : State) : Prop := ChannelInv s.chanA s.sched.grantA ∧ ChannelInv s.chanB s.sched.grantB

/-! ### Dwell work -/

/-- Jobs run, requests wait and jets pulse in a WORKING phase alone, and a WORKING phase has work open (R34, R41). -/
def DwellInv (s : State) : Prop :=
  (s.line.phase ≠ .working → s.dwellDone = true) ∧ (s.line.phase = .working → s.dwellDone = false)

/-! ### Geometry and pockets -/

/-- A configured track has 8 to 48 pockets and 1 to 6 stations, and LOAD, the stations, DECIDE and CHECK stand in rising
order (R1, R3). -/
def GeometryInv (s : State) : Prop :=
  s.track.p ≠ 0 → 8 ≤ s.track.p ∧ s.track.p ≤ 48 ∧ s.track.stations ≠ [] ∧ s.track.stations.length ≤ 6 ∧
    (0 :: (s.track.stations ++ [s.track.decidePos, s.track.checkPos])).Pairwise (· < ·) ∧ s.track.checkPos < s.track.p

/-- DECIDED, HELD or EJECTED. -/
def PocketState.targeted (x : PocketState) : Prop := x = .decided ∨ x = .held ∨ x = .ejected

/-- A pocket record: an EMPTY one holds the EMPTY values, an occupied one a serial and a slot; the decision, target and chute
are present as its state says; a MEASURING pocket has an ACCEPTED attempt; lap 2 is for pockets with a target (R9, R10, R12,
R13, R133). -/
def PocketInv (p : Pocket) : Prop :=
  (p.state = .empty → p = .emptied) ∧ (p.state ≠ .empty → p.serial.isSome = true ∧ p.slot.isSome = true) ∧
  (p.lap = 1 ∨ p.lap = 2) ∧ p.misses ≤ 1 ∧
  (p.state = .loaded ∨ p.state = .measuring → p.lap = 1 ∧ p.decision = none ∧ p.target = none ∧ p.chute = none) ∧
  (p.state = .measuring → ∃ a ∈ p.attempts, a.outcome = .accepted) ∧
  (p.state = .referred → p.lap = 1 ∧ p.decision.isSome = true ∧ p.target = none ∧ p.chute = none) ∧
  (p.state.targeted → p.decision.isSome = true ∧ p.target.isSome = true) ∧
  (p.state = .held → p.chute = none) ∧ (p.state = .decided ∨ p.state = .ejected → p.chute.isSome = true)

/-- Every occupied pocket past DECIDE, and every pocket on lap 2 at any position, is DECIDED, HELD or EJECTED, and has a
decision and a target (R134). -/
def PassedInv (s : State) : Prop :=
  ∀ q < s.track.pockets.length, (s.pocket q).occupied = true →
    (s.track.decidePos < s.track.positionOf q ∨ (s.pocket q).lap = 2) →
    (s.pocket q).state.targeted ∧ (s.pocket q).decision.isSome = true ∧ (s.pocket q).target.isSome = true

/-- Every station job that runs and every station request that waits names an occupied pocket (R8, R75). -/
def WorkInv (s : State) : Prop :=
  (∀ ch, ∀ j ∈ (s.chan ch).job, ∀ i q g, j.kind = .station i q g → (s.pocket q).occupied = true) ∧
  (∀ i q sl g n r, SchedReq.station i q sl g n r ∈ s.sched.requests → (s.pocket q).occupied = true)

/-- The Track Unit's invariant. -/
def PocketsInv (s : State) : Prop :=
  GeometryInv s ∧ (∀ p ∈ s.track.pockets, PocketInv p) ∧ PassedInv s ∧ WorkInv s

/-- No two occupied pockets hold the same serial (R16). -/
def SerialInv (s : State) : Prop :=
  ∀ q < s.track.pockets.length, ∀ r < s.track.pockets.length, (s.pocket q).occupied = true → (s.pocket r).occupied = true →
    (s.pocket q).serial = (s.pocket r).serial → q = r

/-! ### Lots -/

/-- How many occupied pockets belong to a slot. -/
def State.residents (s : State) (i : SlotId) : Nat :=
  s.track.pockets.countP fun p => p.occupied && p.slot == some i

/-- A slot's invariant: its resident count is the number of occupied pockets whose lot slot it is; FREE, READY and PENDING
slots have none and a DRAINING slot at least one; a definition is held unless FREE (R103, R108). -/
def SlotInv (s : State) (i : SlotId) : Prop :=
  (s.slot i).resident = s.residents i ∧
  ((s.slot i).state = .free ∨ (s.slot i).state = .ready ∨ (s.slot i).state = .pending → (s.slot i).resident = 0) ∧
  ((s.slot i).state = .draining → 1 ≤ (s.slot i).resident) ∧
  (s.slot i).definition.isSome = ((s.slot i).state != .free)

/-- At most one slot is ACTIVE and at most one PENDING (R108). -/
def OneActive (s : State) : Prop :=
  ¬(s.slot0.state = .active ∧ s.slot1.state = .active) ∧ ¬(s.slot0.state = .pending ∧ s.slot1.state = .pending)

def LotsInv (s : State) : Prop := SlotInv s .s0 ∧ SlotInv s .s1 ∧ OneActive s

/-! ### Chutes -/

/-- How many DECIDED pockets are committed to chute c. -/
def State.promised (s : State) (c : Nat) : Nat :=
  s.track.pockets.countP fun p => p.state == .decided && p.chute == some c

/-- Chute c's accounts: in-flight equals the DECIDED pockets committed to it; fill and old-box count cover the EJECTED
ones; the places taken do not exceed the capacity; an unconfigured chute holds nothing (R136, R152, R153). -/
def ChuteInv (s : State) (c : Nat) : Prop :=
  (s.chute c).inFlight = s.promised c ∧
  s.travelling c ≤ (s.chute c).fill + (s.chute c).oldBox ∧
  (∀ g ∈ (s.chute c).cfg, (s.chute c).taken ≤ g.capacity) ∧
  ((s.chute c).cfg = none → (s.chute c).taken = 0 ∧ (s.chute c).jet = none) ∧
  ((s.chute c).pulsing = true → 1 ≤ s.travelling c)

def ChutesInv (s : State) : Prop := ∀ c, 1 ≤ c → c ≤ 20 → ChuteInv s c

/-! ### Link Port and Report Queue -/

/-- The buffer and the queues keep to their sizes (R170, R181, R182, R183). -/
def QueueInv (s : State) : Prop :=
  s.link.buffer.length ≤ 4 ∧ s.report.refer.length ≤ 48 ∧ s.report.lotEnd.length ≤ 2 ∧ s.report.part.length ≤ 64

/-- Nothing that may be sent waits while the transmitter is IDLE (R179). -/
def TransmitInv (s : State) : Prop := s.report.tx = none → s.report.waiting = []

/-! ### Replies -/

/-- A reply stands in the reply slot or is being sent (R171, R179). -/
def State.answered (s : State) (f : Frame) : Prop := s.report.reply = some f ∨ s.report.tx = some f

/-- The Report Queue once a reply has been placed where nothing else waited: an IDLE transmitter takes it at once; behind a
frame being sent it waits in the reply slot (R180). -/
def Report.afterReply (f : Frame) (r : Report) : Report :=
  if r.tx = none then { r with tx := some f } else { r with reply := some f }

/-- The part with a reply placed, all else as it was. -/
def State.replied (f : Frame) (s : State) : State := { s with report := s.report.afterReply f }

/-- The Link Port takes a request at once: none is in progress, the reply slot is empty and no frame waits (R171); and
nothing that may be sent waits while the transmitter is IDLE (R179). -/
def State.taking (s : State) : Prop := s.takesAtOnce = true ∧ TransmitInv s

/-! ### Layouts of replies and reports (R177) -/

/-- The bytes of a row of fields, each its width in bytes and its value, low byte first. -/
def layout (fields : List (Nat × Nat)) : List Byte := fields.flatMap fun f => le f.1 f.2

/-- A signed value in two's complement of w bytes. -/
def twos (w : Nat) (v : Int) : Nat := (v % (256 ^ w : Nat)).toNat

/-- A flag: clear 00H, set 01H. -/
def flag (b : Bool) : Nat := if b then 1 else 0

/-- An optional value of w bytes: the byte that says whether it is present, then the value, 0 when absent. -/
def optRow (w : Nat) (v : Option Nat) : List (Nat × Nat) := [(1, flag v.isSome), (w, v.getD 0)]

/-- The code of a named value: its place, from 00H upward, in the order in which its rule lists the values. -/
def codeIn {α : Type} [DecidableEq α] (values : List α) (x : α) : Nat := values.idxOf x

/-- A channel byte. -/
def chanByte (ch : Chan) : Nat := codeIn [Chan.A, .B] ch

/-- A slot byte. -/
def slotByte (i : SlotId) : Nat := codeIn [SlotId.s0, .s1] i

/-- A pocket's state in replies (R9). -/
def pocketStateByte (x : PocketState) : Nat :=
  codeIn [PocketState.empty, .loaded, .measuring, .referred, .decided, .held, .ejected] x

/-- Decision sources and attempt outcomes, coded from 01H in the PART record. -/
def sourceByte (x : Source) : Nat :=
  1 + codeIn [Source.early, .final, .fallback, .verdict, .referDefault, .unmeasured, .unfinished] x

def outcomeByte (o : JobOutcome) : Nat :=
  1 + codeIn [JobOutcome.accepted, .unstable, .contactLost, .sourceFault, .linkError, .stall, .cut] o

/-- Marks: bit 0 OVER-RANGE, bit 1 UNTRIMMED, bit 2 TEMP-NOT-CURRENT. -/
def marksByte (m : Marks) : Nat := flag m.overRange + 2 * flag m.untrimmed + 4 * flag m.tempNotCurrent

/-- A decision's class: 01H to 10H, or 11H for NO CLASS. -/
def classByte (c : Option Nat) : Nat := c.getD 0x11

/-- The REFER report: 12 bytes. -/
def referLayout (r : ReferReport) : List Byte :=
  layout [(4, r.serial), (1, r.pocket), (1, slotByte r.slot), (1, r.grade), (4, twos 4 r.deviation), (1, r.positionsLeft)]

/-- An event kind's priority: its place, from 1, in the event table (R184). -/
def kindByte (k : EventKind) : Nat :=
  1 + codeIn [EventKind.motionFault, .jam, .foreignPart, .noChannel, .chuteBlocked, .channelSuspect, .channelStall, .partLost,
    .unpermittedIndex, .chuteFull, .chuteNear, .lotChange, .turretIdle, .tempStale] k

/-- The detail of an event: a pocket, a chute, a channel, or 00H. -/
def detailByte : Detail → Nat
  | .none => 0
  | .pocket q => q
  | .chute c => c
  | .channel ch => chanByte ch

/-- The EVENT report: 8 bytes. -/
def eventLayout (k : EventKind) (e : PendingEvent) : List Byte :=
  layout [(1, kindByte k), (2, e.count), (1, detailByte e.detail), (4, e.index)]

/-- The LOT.END summary: 151 bytes (R113). -/
def lotEndLayout (r : LotEnd) : List Byte :=
  layout ([(1, slotByte r.slot), (4, r.lotNumber), (1, r.label.length)] ++ r.label.map (fun c => (1, c)) ++
    List.replicate (24 - r.label.length) (1, 0) ++
    [(1, if r.ending = .drained then 0x01 else 0x02), (2, r.activation), (2, r.number)] ++
    (r.cnt.perClass ++ [r.cnt.noClass, r.cnt.unmeasured, r.cnt.unfinished, r.cnt.fallback, r.cnt.refMade, r.cnt.refAnswered,
      r.cnt.refLate, r.cnt.refDefaulted] ++ r.cnt.early ++ [r.cnt.overflow]).map fun n => (4, n))

/-- The PART record: 21 bytes, and 9 for each attempt (R22). -/
def partLayout (r : PartRecord) : List Byte :=
  layout ([(4, r.serial), (1, r.pocket), (4, r.lotNumber), (1, r.lap),
      (1, 1 + codeIn [Finish.sorted, .lost, .purged] r.outcome),
      (1, (r.decision.map fun d => classByte d.cls).getD 0), (1, (r.decision.map fun d => sourceByte d.source).getD 0),
      (1, (r.decision.bind Decision.grade).getD 0), (1, r.target.getD 0), (1, r.chute.getD 0), (1, flag r.overflow),
      (1, r.misses), (2, r.dropped), (1, r.attempts.length)] ++
    r.attempts.flatMap fun a => [(1, a.station), (1, chanByte a.chan), (1, a.grade), (1, outcomeByte a.outcome),
      (4, twos 4 (a.deviation.getD 0)), (1, (a.marks.map marksByte).getD 0)])

/-- A trim as CHAN.READ carries it: absent, or a value. -/
def trimRow (t : Option Trim) : List (Nat × Nat) := optRow 2 (t.map fun v => twos 2 v.value)

/-- The record of a running job in a CHAN.READ reply, an optional group of 12 bytes: kind, station, pocket, grade, N, range
and phase count; station, pocket and grade are absent in a CHECK job (R73). -/
def jobRow (j : Option Job) : List (Nat × Nat) :=
  match j with
  | none => [(1, 0), (12, 0)]
  | some j =>
    (1, 1) ::
      (match j.kind with
        | .station i q g => [(1, 0)] ++ optRow 1 (some i) ++ optRow 1 (some q) ++ optRow 1 (some g)
        | .check => [(1, 1)] ++ optRow 1 none ++ optRow 1 none ++ optRow 1 none) ++
      [(2, j.n), (1, j.range), (2, j.phaseCount)]

/-- The fields of a CHAN.READ reply (R73). -/
def chanReadLayout (s : State) (ch : Chan) : List Byte :=
  layout ([(1, codeIn [Service.inService, .stalled, .suspect] (s.chan ch).service),
      (1, codeIn [JobState.idle, .connecting, .settlePos, .samplePos, .settleNeg, .sampleNeg] (s.chan ch).jobState)] ++
    jobRow (s.chan ch).job ++
    [(1, match (s.chan ch).relay with
        | .open => 0
        | .station i => i
        | .check => 7),
      (1, codeIn [Polarity.positive, .negative] (s.chan ch).pol), (1, (s.chan ch).range),
      (1, ((s.chan ch).job.map Job.errRun).getD 0), (1, (s.chan ch).srcRun), (1, (s.chan ch).goodRun),
      (1, flag (s.chan ch).watchdog.isSome), (2, (s.chan ch).framePeriod), (1, (s.chan ch).settleFrames),
      (2, (s.chan ch).relaySettle), (1, flag (s.chan ch).strict), (2, s.shared.driftLimit), (2, s.shared.interval)] ++
    (s.cal.trims ch).flatMap trimRow)

/-- The fields of an occupied pocket in a POCKET.READ reply, after its state, in the order of R9. -/
def pocketReadLayout (p : Pocket) : List Byte :=
  layout ([(4, p.serial.getD 0), (1, (p.slot.map slotByte).getD 0), (1, p.lap), (1, p.nextGrade)] ++ optRow 1 p.retries ++
    [(1, flag p.exhausted), (1, p.attempts.length)] ++
    (p.attempts.flatMap fun a => [(1, a.station), (1, chanByte a.chan), (1, a.grade), (1, outcomeByte a.outcome)] ++
      optRow 4 (a.deviation.map (twos 4)) ++ optRow 1 (a.marks.map marksByte)) ++
    (match p.decision with
      | none => [(1, 0), (4, 0)]
      | some d => [(1, 1), (1, classByte d.cls), (1, sourceByte d.source)] ++ optRow 1 d.grade) ++
    optRow 1 p.target ++ optRow 1 p.chute ++ [(1, flag p.overflow), (1, p.misses), (1, flag p.jetFired)])

/-- A definition in a LOT.READ reply, in the order of R104, and the activation calibration number (R116). -/
def lotReadLayout (d : LotDef) (activation : Option Nat) : List Byte :=
  layout ([(4, d.lotNumber), (1, d.label.length)] ++ d.label.map (fun c => (1, c)) ++
    [(1, d.range), (8, d.rnom), (2, twos 2 d.tcr), (4, d.emfLimit), (1, d.retryLimit), (1, d.rejectChute),
      (1, d.retestChute), (1, codeIn [DecisionMode.preserve, .downgrade] d.mode),
      (1, codeIn [Fallback.retest, .classifyLast] d.fallback), (1, flag d.referral), (1, d.grades.length)] ++
    (d.grades.flatMap fun g => [(2, g.samples), (4, g.guard)]) ++ [(1, d.classes.length)] ++
    (d.classes.flatMap fun c => [(4, twos 4 c.lower), (4, twos 4 c.upper), (1, c.chute)]) ++ optRow 2 activation)

/-- The check that a settle taken now would name for a channel: on the ACTIVE range, when its trim is absent or its flag set
(R163). -/
def State.checkDue (s : State) (ch : Chan) (r : Nat) : Prop :=
  ∃ i d, s.activeSlot = some i ∧ (s.slot i).definition = some d ∧ d.range = r ∧ (s.cal.trim ch r = none ∨ s.cal.flag ch = true)

/-- The fields of a CAL.READ reply, where the due checks are as given (R160). -/
def calReadLayout (c : Cal) (dueA dueB : Option Nat) : List Byte :=
  layout ([(1, flag c.valid), (2, c.working.number)] ++ (c.working.pairs.flatMap fun p => [(8, p.rref), (4, p.c)]) ++
    ((c.trimsA ++ c.trimsB).flatMap fun t =>
      match t with
      | none => [(1, 0), (6, 0)]
      | some v => [(1, 1), (2, twos 2 v.value), (4, v.index)]) ++
    [(1, flag c.flagA), (1, flag c.flagB)] ++ optRow 1 dueA ++ optRow 1 dueB)

/-! ### Events -/

/-- Between s and t a kind is raised once with a detail, where its entry cannot be sent at once: it becomes pending with
count 1, the detail and the index count, or its count advances and the rest is kept (R184). -/
def State.notes (s t : State) (k : EventKind) (d : Detail) : Prop :=
  s.report.events.length = 14 → s.report.tx ≠ none ∨ s.report.masked k = true →
    (s.report.event k = none → t.report.event k = some ⟨1, d, s.track.k⟩) ∧
    (∀ e, s.report.event k = some e → t.report.event k = some { e with count := satInc 65535 e.count })

/-- The same for a kind that alone is raised: an IDLE transmitter sends it at once when it is unmasked (R179, R184, R185). -/
def State.sends (s t : State) (k : EventKind) (d : Detail) : Prop :=
  s.notes t k d ∧
  (s.report.events.length = 14 → s.report.tx = none → s.report.masked k = false →
    t.report.tx = some ⟨0xF3#8, 0x00#8, eventLayout k ⟨1, d, s.track.k⟩⟩ ∧ t.report.event k = none)

/-! ### The fields of the requests, by ordinal -/

/-- The first ordinal whose field fails, where ok says which pass (R172). -/
def firstFails (ok : Nat → Prop) (n : Nat) : Prop := ¬ok n ∧ ∀ m, m < n → ok m

/-- The fields of TRACK.SET (R3). -/
def trackPasses (r : TrackSetReq) (n : Nat) : Prop :=
  (n = 1 → 8 ≤ r.p ∧ r.p ≤ 48) ∧ (n = 2 → 1 ≤ r.stations.length ∧ r.stations.length ≤ 6) ∧
  (∀ i, i < r.stations.length → n = 3 + i →
    (0 :: r.stations).getD i 0 < r.stations.getD i 0 ∧ r.stations.getD i 0 ≤ r.p - 1) ∧
  (n = 9 → (0 :: r.stations).getD r.stations.length 0 < r.decidePos ∧ r.decidePos ≤ r.p - 1) ∧
  (n = 10 → r.decidePos < r.checkPos ∧ r.checkPos ≤ r.p - 1)

/-- The fields of CHUTE.SET for a CONFIGURE (R138). -/
def chutePasses (f : ChuteFields) (s : State) (c n : Nat) : Prop :=
  (n = 1 → 1 ≤ c ∧ c ≤ 20) ∧
  (n = 3 → s.track.decidePos < f.ejectPos ∧ f.ejectPos < s.track.checkPos ∧
    ∀ x g, x ≠ c → 1 ≤ x → x ≤ 20 → (s.chute x).cfg = some g → g.ejectPos ≠ f.ejectPos) ∧
  (n = 4 → 1 ≤ f.capacity ∧ f.capacity ≤ 65535) ∧ (n = 5 → 1 ≤ f.near ∧ f.near ≤ f.capacity) ∧
  (n = 6 → f.alternate = 0 ∨
    (1 ≤ f.alternate ∧ f.alternate ≤ 20 ∧ f.alternate ≠ c ∧ (s.chute f.alternate).cfg ≠ none)) ∧
  (n = 7 → 1 ≤ f.pulse ∧ f.pulse ≤ 100)

/-- The fields of CHAN.SET (R51). -/
def chanPasses (r : ChanSetReq) (n : Nat) : Prop :=
  (n = 1 → r.chan ≤ 1) ∧ (n = 2 → 10 ≤ r.framePeriod ∧ r.framePeriod ≤ 2000) ∧ (n = 3 → r.settleFrames ≤ 64) ∧
  (n = 4 → 5 ≤ r.relaySettle ∧ r.relaySettle ≤ 500) ∧ (n = 5 → r.strict ≤ 1) ∧
  (n = 6 → 10 ≤ r.driftLimit ∧ r.driftLimit ≤ 10000) ∧
  (n = 7 → r.interval = 0 ∨ (50 ≤ r.interval ∧ r.interval ≤ 65535))

/-- The fields of LINE.START (R28). -/
def startPasses (b m t n : Nat) : Prop :=
  (n = 1 → 5 ≤ b ∧ b ≤ 1000) ∧ (n = 2 → 20 ≤ m ∧ m ≤ 5000) ∧ (n = 3 → t = 0 ∨ (100 ≤ t ∧ t ≤ 60000))

/-- The values of CAL.WRITE, range r first (R157). -/
def pairsPass (pairs : List CalPair) (n : Nat) : Prop :=
  ∀ r, r < 6 →
    (n = 2 * r + 1 → 5000 ≤ (pairs.getD r ⟨0, 0⟩).rref ∧ (pairs.getD r ⟨0, 0⟩).rref ≤ 2000000000) ∧
    (n = 2 * r + 2 → 50000000 ≤ (pairs.getD r ⟨0, 0⟩).c ∧ (pairs.getD r ⟨0, 0⟩).c ≤ 2000000000)

/-- A chute that a LOT.LOAD may name (R106). -/
def State.namable (s : State) (c : Nat) : Prop := 1 ≤ c ∧ c ≤ 20 ∧ (s.chute c).cfg ≠ none

/-- The fields of LOT.LOAD for slot i that stand before the grades (R106). -/
def lotHeadPasses (r : LotLoadReq) (s : State) (i : SlotId) (n : Nat) : Prop :=
  (n = 2 → (1 ≤ r.lotNumber ∧ r.lotNumber ≤ 99999999) ∧ ((s.slot i.other).state = .free ∨
    ∀ d, (s.slot i.other).definition = some d → d.lotNumber ≠ r.lotNumber)) ∧
  (n = 3 → r.labelLen ≤ 24 ∧ ∀ x ∈ r.labelChars.take r.labelLen, 0x20 ≤ x ∧ x ≤ 0x7E) ∧
  (n = 4 → 1 ≤ r.range ∧ r.range ≤ 6) ∧
  (n = 5 → (100 ≤ r.rnom ∧ r.rnom ≤ 20000000000) ∧ (s.cal.working.pair r.range).rref ≤ r.rnom * 20 ∧
    r.rnom ≤ (s.cal.working.pair r.range).rref * 8) ∧
  (n = 6 → -5000 ≤ r.tcr ∧ r.tcr ≤ 5000) ∧ (n = 7 → r.emfLimit ≤ 1000000) ∧ (n = 8 → r.retryLimit ≤ 7) ∧
  (n = 9 → s.namable r.rejectChute) ∧ (n = 10 → s.namable r.retestChute) ∧ (n = 11 → r.mode ≤ 1) ∧
  (n = 12 → r.fallback ≤ 1) ∧ (n = 13 → r.referral ≤ 1) ∧ (n = 14 → 1 ≤ r.gradeCount ∧ r.gradeCount ≤ 4)

/-- The grades and classes of LOT.LOAD up to their counts (R106). -/
def lotTablesPass (r : LotLoadReq) (s : State) (n : Nat) : Prop :=
  (∀ g, 1 ≤ g → g ≤ r.gradeCount →
    (n = 13 + 2 * g → (1 ≤ (lotGrade r g).samples ∧ (lotGrade r g).samples ≤ 512) ∧
      (1 < g → (lotGrade r (g - 1)).samples ≤ (lotGrade r g).samples)) ∧
    (n = 14 + 2 * g → (lotGrade r g).guard ≤ 100000 ∧ (1 < g → (lotGrade r g).guard < (lotGrade r (g - 1)).guard) ∧
      ((lotGrade r g).guard = 0 ↔ g = r.gradeCount))) ∧
  (n = 23 → 1 ≤ r.classCount ∧ r.classCount ≤ 16) ∧
  (∀ j, 1 ≤ j → j ≤ r.classCount →
    (n = 21 + 3 * j → -999999 ≤ (lotClass r j).lower ∧ (lotClass r j).lower ≤ 999999) ∧
    (n = 22 + 3 * j → (-999999 ≤ (lotClass r j).upper ∧ (lotClass r j).upper ≤ 999999) ∧ (lotClass r j).lower ≤ (lotClass r j).upper) ∧
    (n = 23 + 3 * j → s.namable (lotClass r j).chute))

/-- The fields of LOT.LOAD for slot i (R106). -/
def lotPasses (r : LotLoadReq) (s : State) (i : SlotId) (n : Nat) : Prop :=
  lotHeadPasses r s i n ∧ lotTablesPass r s n

/-- The request types of R177 with one payload length each: all but TRACK.SET. -/
def lengthTable : List (Nat × Nat) :=
  [(0x01, 0), (0x03, 0), (0x04, 10), (0x05, 11), (0x06, 1), (0x07, 1), (0x08, 1), (0x09, 221), (0x0A, 1), (0x0B, 1),
    (0x0C, 1), (0x10, 6), (0x11, 0), (0x12, 0), (0x13, 0), (0x14, 0), (0x15, 0), (0x18, 1), (0x19, 1), (0x1A, 5),
    (0x1B, 1), (0x1C, 2), (0x20, 0), (0x21, 72), (0x24, 3), (0x25, 2)]

/-! ### Terms the statements use -/

/-- What arrives on a converter link makes the channel take one whole frame of these bits, and leaves its receiver so: with
strict off, a sync and the 64 bits; with strict on, the sync after them (R52, R53). -/
def Channel.takes (c : Channel) (symbols : List LinkSymbol) (bits : List Bool) (after : Receiver) : Prop :=
  bits.length = 64 ∧
  ((c.strict = false ∧ c.receiver = .waiting ∧ symbols = .sync :: bits.map .bit ∧ after = .waiting) ∨
    (c.receiver = .counting true bits ∧ symbols = [.sync] ∧ after = .counting c.strict []))

/-- The same for a frame of a wrong length, with the CHAN counters after it: a short frame ended by a sync, or the 65th bit of a
strict frame (R53, R54). -/
def Channel.missizes (c : Channel) (symbols : List LinkSymbol) (after : Receiver) (cnt : ChanCounters) : Prop :=
  (∃ st bits, c.receiver = .counting st bits ∧ bits.length < 64 ∧ symbols = [.sync] ∧ after = .counting c.strict [] ∧
    cnt = { c.cnt with short := satInc 4294967295 c.cnt.short }) ∨
  (∃ bits b, c.receiver = .counting true bits ∧ bits.length = 64 ∧ symbols = [.bit b] ∧ after = .waiting ∧
    cnt = { c.cnt with long := satInc 4294967295 c.cnt.long })

/-- The same for one errored frame in a sample phase: one of a wrong length, or a whole frame whose polarity echo differs from
POL (R54). -/
def Channel.errs (c : Channel) (symbols : List LinkSymbol) (after : Receiver) (cnt : ChanCounters) : Prop :=
  c.missizes symbols after cnt ∨
  (∃ bits, c.takes symbols bits after ∧ (parseSample bits).echo ≠ c.pol ∧
    cnt = { c.cnt with polarity := satInc 4294967295 c.cnt.polarity })

/-- What the judgement of an ACCEPTED result with deviation v makes of its pocket, whose record p1 holds the attempt, and of the
counters of its slot (R84, R119 to R126). -/
def State.judgedTo (s t : State) (q g : Nat) (i : SlotId) (d : LotDef) (v : Int) (m : Marks) (p1 : Pocket) : Prop :=
  (judgement d v m g = .undecided →
    t.pocket q = { p1 with state := .measuring, nextGrade := g + 1 } ∧ t.slot i = s.slot i) ∧
  (∀ k src c, judgement d v m g = .cls k src → c = (d.classAt k).chute → s.canTake c (s.track.positionOf q) = true →
    t.pocket q = { p1 with
      state := .decided, decision := some ⟨some k, src, some g⟩, target := some c, chute := some c, overflow := false } ∧
    (t.chute c).inFlight = (s.chute c).inFlight + 1 ∧
    (t.slot i).cnt = { (s.slot i).cnt with
      perClass := (s.slot i).cnt.perClass.modify (k - 1) (satInc 4294967295)
      early := if src = .early then (s.slot i).cnt.early.modify (g - 1) (satInc 4294967295) else (s.slot i).cnt.early }) ∧
  (∀ src cnt, judgement d v m g = .noClass src → cnt = { (s.slot i).cnt with
      noClass := satInc 4294967295 (s.slot i).cnt.noClass
      early := if src = .early then (s.slot i).cnt.early.modify (g - 1) (satInc 4294967295) else (s.slot i).cnt.early } →
    (d.referral = true →
      t.pocket q = { p1 with state := .referred, decision := some ⟨none, src, some g⟩ } ∧
      (t.slot i).cnt = { cnt with refMade := satInc 4294967295 cnt.refMade } ∧
      (s.report.tx ≠ none → s.report.refer.length < 48 → t.report.refer = s.report.refer ++
        [⟨p1.serial.getD 0, q, i, g, v, s.track.decidePos - s.track.positionOf q, true⟩])) ∧
    (d.referral = false → s.canTake d.rejectChute (s.track.positionOf q) = true →
      t.pocket q = { p1 with
        state := .decided, decision := some ⟨none, src, some g⟩, target := some d.rejectChute,
        chute := some d.rejectChute, overflow := false } ∧
      (t.slot i).cnt = cnt))

/-- The completion of a station job on channel ch, whose record with its last sample is j and whose channel is c once the job is
gone: the attempt at the pocket the job names, the source-fault run and the counters (R59, R67, R82, R84). -/
def State.completedAt (s t : State) (ch : Chan) (c : Channel) (j : Job) (i q g : Nat) : Prop :=
  ∀ sl d r, q < s.track.pockets.length → (s.pocket q).slot = some sl → (s.slot sl).definition = some d →
    r = stationResult (s.cal.working.pair j.range).rref d s.temp.record (s.cal.trim ch j.range) j →
    (r = .sourceFault → c.srcRun < 2 →
      t.pocket q = (s.pocket q).addAttempt ⟨i, ch, g, .sourceFault, none, none⟩ ∧
      (∀ x, x ≠ q → t.pocket x = s.pocket x) ∧
      (s.sched.requests = [] → t.chan ch = { c with
        srcRun := c.srcRun + 1, cnt := { c.cnt with sourceFault := satInc 4294967295 c.cnt.sourceFault } })) ∧
    (r = .sourceFault → 2 ≤ c.srcRun →
      (t.chan ch).service = .suspect ∧ (t.chan ch).srcRun = 0 ∧ (t.chan ch).watchdog = none ∧
      s.notes t .channelSuspect (.channel ch) ∧
      ((s.chan (chanOther ch)).job = none →
        t.pocket q = (s.pocket q).addAttempt ⟨i, ch, g, .sourceFault, none, none⟩)) ∧
    (∀ o v m a, r = .measured o v m → a = ⟨i, ch, g, o, some v, some m⟩ →
      (∀ x, x ≠ q → t.pocket x = s.pocket x) ∧
      (s.sched.requests = [] → t.chan ch = { c with
        srcRun := 0
        cnt := if o = .unstable then { c.cnt with unstable := satInc 4294967295 c.cnt.unstable }
          else { c.cnt with accepted := satInc 4294967295 c.cnt.accepted } }) ∧
      (o = .unstable → t.pocket q = (s.pocket q).addAttempt a) ∧
      (o = .accepted → (s.pocket q).state = .loaded ∨ (s.pocket q).state = .measuring → (s.pocket q).decision = none →
        s.judgedTo t q g sl d v m { s.pocket q with attempts := (s.pocket q).attempts ++ [a] }))

/-- Between s and t pocket q, of slot i with definition d, finished with an outcome: its PART record joined the queue, which had
room, the record is EMPTY, the resident count lower; a DRAINING slot left with none retired, its summary handed on (R22, R113,
R183). -/
def State.finishes (s t : State) (q : Nat) (i : SlotId) (d : LotDef) (o : Finish) : Prop :=
  t.pocket q = .emptied ∧ (∀ r, r ≠ q → t.pocket r = s.pocket r) ∧
  t.report.part = s.report.part ++
    [{ serial := (s.pocket q).serial.getD 0, pocket := q, lotNumber := d.lotNumber, lap := (s.pocket q).lap,
       outcome := o, decision := (s.pocket q).decision, target := (s.pocket q).target, chute := (s.pocket q).chute,
       overflow := (s.pocket q).overflow, misses := (s.pocket q).misses, dropped := s.report.dropped,
       attempts := (s.pocket q).attempts }] ∧
  t.report.dropped = 0 ∧ t.slot i.other = s.slot i.other ∧
  ((s.slot i).state ≠ .draining ∨ 1 < (s.slot i).resident →
    t.slot i = { s.slot i with resident := (s.slot i).resident - 1 } ∧ t.report.lotEnd = s.report.lotEnd) ∧
  ((s.slot i).state = .draining → (s.slot i).resident ≤ 1 →
    t.slot i = .freed ∧
    (s.report.lotEnd.length < 2 → t.report.lotEnd = s.report.lotEnd ++
      [⟨i, d.lotNumber, d.label, .drained, (s.slot i).activation.getD 0, s.cal.working.number, (s.slot i).cnt⟩]))

/-- Between s and t the fault FOREIGN_PART is raised for pocket q (R17, R19, R45, R46): a line that runs, drains, stops or is
stopped becomes FAULTED by it, in FAULTED it is a later fault, in IDLE it is an event alone; the event names the pocket. -/
def State.foreign (s t : State) (q : Nat) : Prop :=
  (s.line.state.underWay = true ∨ s.line.state = .stopped → t.line.state = .faulted ∧ t.line.fault = true ∧
    t.line.firstFault = some (.foreignPart, .pocket q) ∧ t.line.laterFaults = []) ∧
  (s.line.state = .faulted → t.line.state = .faulted ∧ t.line.firstFault = s.line.firstFault ∧
    ∀ k, k ∈ t.line.laterFaults ↔ k = .foreignPart ∨ k ∈ s.line.laterFaults) ∧
  (s.line.state = .idle → t.line.state = .idle ∧ t.line.firstFault = s.line.firstFault) ∧
  s.notes t .foreignPart (.pocket q)

/-- Between s and t no part is loaded and no record changes: pockets, next serial, loads and slots stand (R15, R17 to R19). -/
def State.loadsNone (s t : State) : Prop :=
  t.track.pockets = s.track.pockets ∧ t.track.nextSerial = s.track.nextSerial ∧ t.lineCnt.loads = s.lineCnt.loads ∧
    t.slot0 = s.slot0 ∧ t.slot1 = s.slot1

/-- The HELD pockets in pocket-number order, each with its target. -/
def State.heldTargets (s : State) : List (Nat × Nat) :=
  (List.range s.track.pockets.length).filterMap fun q =>
    if (s.pocket q).state = .held then (s.pocket q).target.map fun c => (q, c) else none

/-- The retry of every HELD pocket (R144): each is committed to its target, in pocket-number order, whether or not an earlier
one has failed. -/
def State.retried (s : State) : State := s.heldTargets.foldl (fun t h => t.commit h.1 h.2) s

/-- Between s and t one more place of chute c is taken, and the report is as s's but for the event that its new state raises: CHUTE_FULL
when it becomes FULL, CHUTE_NEAR when it becomes NEAR from OPEN (R137). -/
def State.raisesChute (s t : State) (c : Nat) : Prop :=
  ∀ g taken, (s.chute c).cfg = some g → taken = (s.chute c).fill + (s.chute c).inFlight + (s.chute c).oldBox →
    (taken + 1 = g.capacity → t.report = (s.raise .chuteFull (.chute c)).report) ∧
    (taken < g.near → g.near ≤ taken + 1 → taken + 1 < g.capacity → t.report = (s.raise .chuteNear (.chute c)).report) ∧
    (taken + 1 ≠ g.capacity → ¬(taken < g.near ∧ g.near ≤ taken + 1 ∧ taken + 1 < g.capacity) → t.report = s.report)

/-- What bars the removal of a configured chute (R140): a lot in a slot that is not FREE names it, another configured chute has it
as alternate, an occupied pocket has it as target or chute, or it has places in flight or an old-box count. -/
def State.removalBarred (s : State) (c : Nat) : Prop :=
  (∃ i d, (s.slot i).state ≠ .free ∧ (s.slot i).definition = some d ∧
    (d.rejectChute = c ∨ d.retestChute = c ∨ ∃ k ∈ d.classes, k.chute = c)) ∨
  (∃ x g, 1 ≤ x ∧ x ≤ 20 ∧ x ≠ c ∧ (s.chute x).cfg = some g ∧ g.alternate = some c) ∨
  (∃ p ∈ s.track.pockets, p.state ≠ .empty ∧ (p.target = some c ∨ p.chute = some c)) ∨
  0 < (s.chute c).inFlight ∨ 0 < (s.chute c).oldBox

/-- The record that a load makes (R15). -/
def justLoaded (serial : Nat) (i : SlotId) (retries : Option Nat) : Pocket :=
  { state := .loaded, serial := some serial, slot := some i, lap := 1, nextGrade := 1, retries := retries,
    exhausted := false, attempts := [], decision := none, target := none, chute := none, overflow := false, misses := 0,
    jetFired := false }

/-- Which of two requests comes first in a pass (R80): the channel's own check; else fewer stations remaining after it;
else the higher grade; else the lower station. -/
def comesFirst (n : Nat) : SchedReq → SchedReq → Prop
  | .check _ _, .station _ _ _ _ _ _ => True
  | .station i _ _ g _ _, .station i' _ _ g' _ _ =>
    n - i < n - i' ∨ (n - i = n - i' ∧ (g' < g ∨ (g = g' ∧ i < i')))
  | _, _ => False

/-- The expected duration of n samples per polarity on a channel, in microseconds (R77). -/
def duration (c : Channel) (n : Nat) : Nat := 100 * c.relaySettle + (2 * c.settleFrames + 2 * n) * c.framePeriod

/-- A request has a NO TIME drop counted on channel ch (R78), with the time left on the budget: a check on its own channel alone;
a station request that is too long for each channel that is not SUSPECT, on the channel where its duration is shorter, A where
the two are equal. -/
def State.lateOn (s : State) (ch : Chan) (left : Nat) : SchedReq → Bool
  | .check c _ => c == ch && left < duration (s.chan c) 64
  | .station _ _ _ _ n _ =>
    (s.chanA.service == .suspect || left < duration s.chanA n) && (s.chanB.service == .suspect || left < duration s.chanB n) &&
      ch == if duration s.chanB n < duration s.chanA n then .B else .A

/-- n bits of a value, most significant first. -/
def msbBits : Nat → Nat → List Bool
  | 0, _ => []
  | n + 1, v => decide (v / 2 ^ n % 2 = 1) :: msbBits n v

/-- The 64 bit periods of a converter frame (R177). -/
def converterBits (dut ref : Int) (leads : Bool × Bool × Bool × Bool) (echo : Bool) (rest : List Bool) :
    List Bool :=
  msbBits 24 (dut % 16777216).toNat ++ msbBits 24 (ref % 16777216).toNat ++
    [leads.1, leads.2.1, leads.2.2.1, leads.2.2.2, echo] ++ rest

end Sys2Proof.Machine
end

