-- ==== Sys2Proof/Certificates/Slice0/Obligations.lean ====
section
/-! DEFINITION. The statements about the NK-612, for the provers. -/

open Sys2Proof Sys2Proof.Machine

/-! ### The queue of commands -/

/-- The command at the front of the queue is run by exec, on the state with the queue's rest. -/
def Obligations.StepRunsFrontCommand : Prop :=
  ∀ (c : Instr) (s : State), step { s with pending := c :: s.pending } = exec c s

/-- Every command answers a next state, in every state, and leaves the queue alone. That it answers in states that no run
reaches too is the model's choice (log entry 17), and so is that POWER_ON_RESET and every other command leaves the queue as it was
(log entry 21). -/
def Obligations.EveryCommandCompletes : Prop :=
  ∀ (c : Instr) (s : State), ∃ t, exec c s = .next t ∧ t.pending = s.pending

/-- Each of these pieces of state is written by the commands named with it and by no other: line speed; input lines; track
geometry; index count; turret phase; next serial; calibration tables; temperature record; shared channel settings; event mask;
chute configurations; lot definitions; channel settings; timing settings; the CAL.WRITE in flight. REQUEST_TAKEN stands beside
each request, since it hands one over. That the input lines are kept as last sampled, so that five commands alone write them, is
the model's choice (log entry 14). -/
def Obligations.OnlyTheirCommandsWrite : Prop :=
  ∀ (c : Instr) (s t : State), exec c s = .next t →
    (match c with
      | .powerOnReset _ _ _ => True
      | _ => t.link.speed = s.link.speed) ∧
    (match c with
      | .powerOnReset _ _ _ | .indexStart _ _ | .settle | .requestTaken _ | .calWrite _ _ _ => True
      | _ => t.pins = s.pins) ∧
    (match c with
      | .powerOnReset _ _ _ | .requestTaken _ | .trackSet _ _ => True
      | _ => t.track.p = s.track.p ∧ t.track.stations = s.track.stations ∧ t.track.decidePos = s.track.decidePos ∧
        t.track.checkPos = s.track.checkPos) ∧
    (match c with
      | .powerOnReset _ _ _ | .requestTaken _ | .indexStart _ _ | .lineReset _ => True
      | _ => t.track.k = s.track.k ∧ t.track.nextSerial = s.track.nextSerial) ∧
    (match c with
      | .powerOnReset _ _ _ | .requestTaken _ | .indexStart _ _ | .lineReset _ | .trackSet _ _ => True
      | _ => t.track.phi = s.track.phi) ∧
    (match c with
      | .powerOnReset _ _ _ | .requestTaken _ | .calWrite _ _ _ | .calWriteCompletion => True
      | _ => t.cal.stored = s.cal.stored ∧ t.cal.working = s.cal.working ∧ t.cal.valid = s.cal.valid ∧
        t.link.inProgress = s.link.inProgress) ∧
    (match c with
      | .powerOnReset _ _ _ | .requestTaken _ | .tempSet _ _ | .stalenessExpiry => True
      | _ => t.temp = s.temp) ∧
    (match c with
      | .powerOnReset _ _ _ | .requestTaken _ | .chanSet _ _ => True
      | _ => t.shared = s.shared ∧ ∀ ch, (t.chan ch).framePeriod = (s.chan ch).framePeriod ∧
        (t.chan ch).settleFrames = (s.chan ch).settleFrames ∧ (t.chan ch).relaySettle = (s.chan ch).relaySettle ∧
        (t.chan ch).strict = (s.chan ch).strict) ∧
    (match c with
      | .powerOnReset _ _ _ | .requestTaken _ | .eventMask _ _ => True
      | _ => t.report.mask = s.report.mask) ∧
    (match c with
      | .powerOnReset _ _ _ | .requestTaken _ | .trackSet _ _ | .chuteConfigure _ _ _ | .chuteRemove _ _ => True
      | _ => ∀ n, (t.chute n).cfg = (s.chute n).cfg) ∧
    (match c with
      | .powerOnReset _ _ _ | .requestTaken _ | .indexStart _ _ | .lineReset _ | .lotLoad _ _ | .lotFree _ _ |
        .pocketPurge _ _ => True
      | _ => t.slot0.definition = s.slot0.definition ∧ t.slot1.definition = s.slot1.definition) ∧
    (match c with
      | .powerOnReset _ _ _ | .requestTaken _ | .lineStart _ _ _ _ => True
      | _ => t.line.budgetMs = s.line.budgetMs ∧ t.line.motionLimitMs = s.line.motionLimitMs ∧
        t.line.stallLimitMs = s.line.stallLimitMs)

/-! ### Power-on -/

/-- POWER_ON_RESET (R25, R27, R50, R103, R136, R156, R159, R165, R175, R176, R178): with no CAL.WRITE in flight every block
takes its power-on values, and the stored copy is kept, read into the working copy and judged; with one in flight the table
found is invalid, whatever the entries hold.
The model's own choices in it: the bytes under the stored check code and their order, absent positions held as 0, times in µs,
an erased check code held as none (log entries 16, 21, 24, 28). -/
def Obligations.PowerOnValues : Prop :=
  (∀ (motion b1 b0 : Bool) (s : State), s.link.inProgress = none →
    exec (.powerOnReset motion b1 b0) s = .next
      { pins := { s.pins with motion := motion, baud1 := b1, baud0 := b0 }
        track := ⟨0, [], 0, 0, 0, 0, [], 1, false⟩
        line := ⟨.idle, if motion then .moving else .waiting, false, false, false, none, none, none, 20, 250, 0, none, []⟩
        lineCnt := ⟨0, 0, 0, 0, 0, 0, 0, 0, 0, 0, 0, 0⟩
        chanA := ⟨.stalled, .idle, none, .open, .positive, 1, 0, none, none, 0, .waiting, 100, 4, 20, false, .zero⟩
        chanB := ⟨.stalled, .idle, none, .open, .positive, 1, 0, none, none, 0, .waiting, 100, 4, 20, false, .zero⟩
        shared := ⟨200, 0⟩
        sched := ⟨[], none, none⟩
        slot0 := ⟨.free, none, 0, none, .zero⟩
        slot1 := ⟨.free, none, 0, none, .zero⟩
        chutes := List.replicate 20 ⟨none, 0, 0, 0, none, 0, 0⟩
        cal :=
          ⟨s.cal.stored, s.cal.stored.table,
            s.cal.stored.check == some (checkCode (eachBytes CalPair.bytes s.cal.stored.table.pairs ++
              le 2 s.cal.stored.table.number)) &&
            s.cal.stored.table.pairs.all fun p =>
              (5000 ≤ p.rref && p.rref ≤ 2000000000) && (50000000 ≤ p.c && p.c ≤ 2000000000),
            List.replicate 6 none, List.replicate 6 none, false, false⟩
        temp := ⟨.neverSet, true, 30000000⟩
        link := ⟨if b1 then (if b0 then 2000000 else 921600) else (if b0 then 460800 else 115200), .hunting none, [], none⟩
        linkCnt := ⟨0, 0, 0⟩
        report := ⟨none, [], List.replicate 14 none, 0#14, [], [], 0, none⟩
        choices := s.choices
        pending := s.pending }) ∧
  (∀ (motion b1 b0 : Bool) (s : State), s.link.inProgress ≠ none →
    ∃ t, exec (.powerOnReset motion b1 b0) s = .next t ∧ t.cal.valid = false ∧ t.cal.stored.check = none ∧
      t.cal.working = t.cal.stored.table ∧ t.link.inProgress = none ∧ t.report.reply = none ∧ t.report.tx = none)

/-- R25: the track after power-on and RESETn, and that index starts before TRACK.SET only advance k. -/
def Obligations.TrackUnconfiguredAtPowerOn : Prop :=
  (∀ (motion b1 b0 : Bool) (s : State), ∃ t, exec (.powerOnReset motion b1 b0) s = .next t ∧
    t.track.p = 0 ∧ t.track.stations = [] ∧ t.track.decidePos = 0 ∧ t.track.checkPos = 0 ∧ t.track.pockets = [] ∧
    t.track.k = 0 ∧ t.track.phi = 0 ∧ t.track.nextSerial = 1 ∧ t.track.loadPermit = false) ∧
  (∀ (ls cs : Bool) (n : Nat) (s : State), s.pins.motion = false → s.track = { Track.powerOn with k := n } →
    ∃ t, exec (.indexStart ls cs) s = .next t ∧ t.track = { Track.powerOn with k := (n + 1) % 4294967296 })

/-! ### Invariants that every step keeps -/

/-- Every invariant holds right after reset.
State.reset rests on log entries 9 and 10. -/
def Obligations.ResetMeetsInvariants : Prop :=
  ShapeInv State.reset ∧ LineInv State.reset ∧ DwellInv State.reset ∧ ChannelsInv State.reset ∧ LotsInv State.reset ∧
    ChutesInv State.reset ∧ SerialInv State.reset ∧ PocketsInv State.reset ∧ QueueInv State.reset ∧ TransmitInv State.reset

/-- READY, LOADOK, FAULT, the phase, the timers and the dwell work agree with the line state and MOTION, whatever command
comes and whatever time passes (R27, R34 to R38, R41, R45). -/
def Obligations.LineInvariantKept : Prop :=
  ∀ s t : State, LineInv s → DwellInv s → step s = .next t → LineInv t ∧ DwellInv t

/-- Service state, job state, job, relay, range, timers, runs and grant record of each channel agree (R50, R55 to R59, R62,
R63, R74). -/
def Obligations.ChannelInvariantKept : Prop :=
  ∀ s t : State, ChannelsInv s → step s = .next t → ChannelsInv t

/-- Resident counts count the occupied pockets, at most one slot is ACTIVE and at most one PENDING (R108). -/
def Obligations.LotInvariantKept : Prop :=
  ∀ s t : State, ShapeInv s → LotsInv s → step s = .next t → ShapeInv t ∧ LotsInv t

/-- In-flight counts the DECIDED pockets, fill and old-box count cover the EJECTED ones, and the places taken stay within
the capacity (R136, R152, R153). -/
def Obligations.ChuteAccountsKept : Prop :=
  ∀ s t : State, ShapeInv s → LineInv s → DwellInv s → ChutesInv s → step s = .next t → ChutesInv t

/-- No two occupied pockets hold the same serial (R16); every pocket record agrees with its state, no pocket past DECIDE or
on lap 2 is LOADED, MEASURING or REFERRED, the positions stand in rising order, and jobs and requests name occupied pockets
(R3, R9 to R13, R133, R134). -/
def Obligations.SerialsStayDistinct : Prop :=
  (∀ s t : State, ShapeInv s → SerialInv s → step s = .next t → SerialInv t) ∧
  (∀ s t : State, ShapeInv s → LineInv s → DwellInv s → LotsInv s → PocketsInv s → step s = .next t → PocketsInv t)

/-- The receive buffer and the REFER, LOT.END and PART queues keep to their sizes, and nothing that may be sent waits while the
transmitter is IDLE (R170, R179, R181, R182, R183). -/
def Obligations.QueuesKept : Prop :=
  ∀ s t : State, QueueInv s → TransmitInv s → step s = .next t → QueueInv t ∧ TransmitInv t

/-! ### The index start -/

/-- INDEX_START, in every line state (R7, R31, R32, R71, R82, R86, R147, R162, R164): READY and LOADOK fall, the budget and
stall timers stop, the phase is MOVING, the motion timer runs in RUN, DRAIN and STOPPING; a running job ends CUT, counted, its
attempt recorded at the pocket it named; requests end, and jets, each counted as a jet cut; an unpermitted index is counted and
raised; k and the phase advance, the load-permit memory is cleared, the periodic check flags are judged on the new k. With
MOTION already high there is no rise (log entry 4). That the event carries k as before the advance is log entry 6. -/
def Obligations.IndexStartWork : Prop :=
  ∀ (ls cs : Bool) (s : State),
    (s.pins.motion = true → TransmitInv s → exec (.indexStart ls cs) s = .next s) ∧
    (s.pins.motion = false → ∃ t, exec (.indexStart ls cs) s = .next t ∧
      t.pins.motion = true ∧ t.line.phase = .moving ∧ t.line.ready = false ∧ t.line.loadOk = false ∧
      t.line.budget = none ∧ t.line.stallTimer = none ∧
      (t.line.state.underWay = true → t.line.motionTimer = some (1000 * s.line.motionLimitMs)) ∧
      t.lineCnt.indexStarts = satInc 4294967295 s.lineCnt.indexStarts ∧
      t.lineCnt.unpermitted =
        (if s.line.state.underWay && !s.line.ready then satInc 4294967295 s.lineCnt.unpermitted
          else s.lineCnt.unpermitted) ∧
      ((s.line.state.underWay && !s.line.ready) = true → s.notes t .unpermittedIndex .none) ∧
      ((s.line.state.underWay && !s.line.ready) = false →
        s.report.tx ≠ none ∨ s.report.masked .unpermittedIndex = true →
        t.report.event .unpermittedIndex = s.report.event .unpermittedIndex) ∧
      t.chanA.job = none ∧ t.chanB.job = none ∧ t.sched.requests = [] ∧ (∀ e ∈ t.chutes, e.jet = none) ∧
      (∀ ch, (t.chan ch).cnt = match (s.chan ch).job.map Job.kind with
        | none => (s.chan ch).cnt
        | some (.station _ _ _) => { (s.chan ch).cnt with cut := satInc 4294967295 (s.chan ch).cnt.cut }
        | some .check => { (s.chan ch).cnt with checks := satInc 4294967295 (s.chan ch).cnt.checks }) ∧
      (∀ ch j i q g, (s.chan ch).job = some j → j.kind = .station i q g → q < s.track.pockets.length →
        (∀ j' i' g', (s.chan (chanOther ch)).job = some j' → j'.kind ≠ .station i' q g') →
        (s.track.p = 0 ∨ ∀ pos ∈ [0, s.track.decidePos, s.track.checkPos], q ≠ s.track.pocketAt pos) →
        t.pocket q = { s.pocket q with attempts := (s.pocket q).attempts ++ [⟨i, ch, g, .cut, none, none⟩] }) ∧
      t.lineCnt.jetCuts = min 4294967295 (s.lineCnt.jetCuts + s.chutes.countP fun e => e.jet.isSome) ∧
      t.track.k = (s.track.k + 1) % 4294967296 ∧
      (s.track.p ≠ 0 → t.track.phi = (s.track.phi + 1) % s.track.p) ∧ t.track.loadPermit = false ∧
      t.track.p = s.track.p ∧ t.track.stations = s.track.stations ∧ t.track.decidePos = s.track.decidePos ∧
      t.track.checkPos = s.track.checkPos ∧ t.shared = s.shared ∧ t.temp = s.temp ∧ t.link = s.link ∧
      t.linkCnt = s.linkCnt ∧
      t.cal = { s.cal with
        flagA := s.cal.flagA || (s.shared.interval != 0 && (s.track.k + 1) % 4294967296 % s.shared.interval == 0)
        flagB := s.cal.flagB ||
          (s.shared.interval != 0 && (s.track.k + 1) % 4294967296 % s.shared.interval == s.shared.interval / 2) })

/-- The load handling at an index start (R15 to R18, R108), with DECIDE and CHECK EMPTY. A pocket on lap 2 at LOAD is passed over,
LOADSENSE not judged. An EMPTY one with the load-permit memory set takes a part present as a record in the ACTIVE slot; a part
absent is a load miss. With the memory clear and no part nothing happens. A part present with the memory clear, or with no slot
ACTIVE or PENDING, is a FOREIGN_PART, and so is a part at CHECK in an EMPTY pocket (R19): the pocket stays EMPTY, no serial, resident
or load is counted, and the line takes the fault.
That the event carries k as before the advance is log entry 6. -/
def Obligations.IndexLoadsPart : Prop :=
  ∀ (s : State), ShapeInv s → DwellInv s → s.pins.motion = false → s.line.phase = .waiting →
    s.track.p ≠ 0 → 0 < s.track.decidePos → s.track.decidePos < s.track.p → s.track.checkPos < s.track.p →
    (∀ pos ∈ [s.track.decidePos, s.track.checkPos], (s.pocket (s.track.pocketAt pos)).state = .empty) →
    ((s.pocket (s.track.pocketAt 0)).state ≠ .empty →
      ∀ ls, ∃ t, exec (.indexStart ls false) s = .next t ∧ s.loadsNone t ∧ t.lineCnt.loadMisses = s.lineCnt.loadMisses ∧
        t.line.state = s.line.state ∧ t.line.firstFault = s.line.firstFault ∧ t.line.laterFaults = s.line.laterFaults) ∧
    ((s.pocket (s.track.pocketAt 0)).state = .empty →
      (∀ i d, s.track.loadPermit = true → s.activeSlot = some i → s.pendingSlot = none → (s.slot i).definition = some d →
        ∃ t, exec (.indexStart true false) s = .next t ∧
          t.pocket (s.track.pocketAt 0) =
            justLoaded s.track.loadSerial i (if d.retryLimit = 0 then none else some d.retryLimit) ∧
          ((∀ p ∈ s.track.pockets, p.occupied = true → p.serial ≠ some s.track.nextSerial) →
            s.track.loadSerial = s.track.nextSerial) ∧
          (∀ r, r ≠ s.track.pocketAt 0 → t.pocket r = s.pocket r) ∧
          t.track.nextSerial = (if 4294967295 ≤ s.track.loadSerial then 1 else s.track.loadSerial + 1) ∧
          t.slot i = { s.slot i with resident := (s.slot i).resident + 1 } ∧ t.slot i.other = s.slot i.other ∧
          t.lineCnt.loads = satInc 4294967295 s.lineCnt.loads ∧ t.chutes = s.chutes ∧ t.line.state = s.line.state) ∧
      (∃ t, exec (.indexStart false false) s = .next t ∧ s.loadsNone t ∧ t.track.loadPermit = false ∧
        t.lineCnt.loadMisses =
          (if s.track.loadPermit then satInc 4294967295 s.lineCnt.loadMisses else s.lineCnt.loadMisses) ∧
        t.line.firstFault = s.line.firstFault ∧ t.line.laterFaults = s.line.laterFaults ∧
        (t.line.state = .faulted → s.line.state = .faulted)) ∧
      (s.track.loadPermit = false ∨ (s.activeSlot = none ∧ s.pendingSlot = none) →
        ∃ t, exec (.indexStart true false) s = .next t ∧ s.loadsNone t ∧ t.lineCnt.loadMisses = s.lineCnt.loadMisses ∧
          s.foreign t (s.track.pocketAt 0)) ∧
      (∃ t, exec (.indexStart false true) s = .next t ∧ s.loadsNone t ∧ s.foreign t (s.track.pocketAt s.track.checkPos)))

/-- The check handling of an occupied pocket at an index start (R19, R22, R113, R149, R183). EJECTED and gone: finish SORTED.
DECIDED or HELD and gone: PART_LOST and finish LOST, a DECIDED one giving back its place. A finish hands the PART record to the
queue with the dropped count, empties the record, lowers the resident count, and retires a DRAINING slot left with none, its
summary handed on. DECIDED or HELD and present: lap 2, the jet-fired flag clear, nothing else.
That the event carries k as before the advance is log entry 6. -/
def Obligations.IndexFinishesSorted : Prop :=
  ∀ (s : State) (q : Nat) (i : SlotId) (d : LotDef) (f : Frame), ShapeInv s → DwellInv s → s.pins.motion = false →
    s.line.phase = .waiting → s.track.p ≠ 0 → s.track.decidePos < s.track.checkPos →
    s.track.checkPos < s.track.p → 0 < s.track.checkPos →
    q = s.track.pocketAt s.track.checkPos → (s.pocket q).slot = some i → (s.slot i).definition = some d →
    (∀ pos ∈ [0, s.track.decidePos], (s.pocket (s.track.pocketAt pos)).state = .empty) →
    s.report.part.length < 64 → s.report.tx = some f →
    (∀ c, (s.pocket q).state = .ejected → (s.pocket q).chute = some c →
      ∃ t, exec (.indexStart false false) s = .next t ∧ s.finishes t q i d .sorted ∧
        t.lineCnt.sorted = satInc 4294967295 s.lineCnt.sorted ∧ ((s.chute c).oldBox = 0 → t.chutes = s.chutes) ∧
        (1 ≤ c → t.chutes = s.chutes.modify (c - 1) fun e => { e with oldBox := e.oldBox - 1 })) ∧
    (∀ c, (s.pocket q).state = .decided → (s.pocket q).chute = some c → 1 ≤ c →
      ∃ t, exec (.indexStart false false) s = .next t ∧ s.finishes t q i d .lost ∧ s.notes t .partLost (.pocket q) ∧
        t.lineCnt.lost = satInc 4294967295 s.lineCnt.lost ∧
        t.chutes = s.chutes.modify (c - 1) fun e => { e with inFlight := e.inFlight - 1 }) ∧
    ((s.pocket q).state = .held → (s.pocket q).chute = none →
      ∃ t, exec (.indexStart false false) s = .next t ∧ s.finishes t q i d .lost ∧ s.notes t .partLost (.pocket q) ∧
        t.lineCnt.lost = satInc 4294967295 s.lineCnt.lost ∧ t.chutes = s.chutes) ∧
    ((s.pocket q).state = .decided ∨ (s.pocket q).state = .held →
      ∃ t, exec (.indexStart false true) s = .next t ∧ t.pocket q = { s.pocket q with lap := 2, jetFired := false } ∧
        (∀ r, r ≠ q → t.pocket r = s.pocket r) ∧ t.report.part = s.report.part ∧ t.report.lotEnd = s.report.lotEnd ∧
        t.slot0 = s.slot0 ∧ t.slot1 = s.slot1 ∧ t.chutes = s.chutes ∧ t.line.state = s.line.state)

/-- An eject miss at CHECK (R20, R148): the place goes back to in-flight, from the old-box count first; a second miss of one
pocket raises JAM, which takes a RUN, DRAIN, STOPPING or STOPPED line to FAULTED. -/
def Obligations.EjectMissAndJam : Prop :=
  ∀ (s : State) (q c : Nat), q < s.track.pockets.length → 1 ≤ c → c ≤ s.chutes.length → (s.pocket q).state = .ejected →
    (s.pocket q).chute = some c → ∀ t, t = s.handleCheck q true →
    (t.chute c).inFlight = (s.chute c).inFlight + 1 ∧
    (t.chute c).oldBox = (s.chute c).oldBox - 1 ∧
    (t.chute c).fill = (if 0 < (s.chute c).oldBox then (s.chute c).fill else (s.chute c).fill - 1) ∧
    (t.chute c).misses = satInc 65535 (s.chute c).misses ∧ (t.chute c).ejected = (s.chute c).ejected ∧
    (t.chute c).cfg = (s.chute c).cfg ∧ (∀ x, x ≠ c → (t.chute x).fill = (s.chute x).fill ∧
      (t.chute x).inFlight = (s.chute x).inFlight ∧ (t.chute x).oldBox = (s.chute x).oldBox) ∧
    ((s.pocket q).misses = 0 → t.line = s.line ∧
      t.pocket q = { s.pocket q with state := .decided, lap := 2, jetFired := false, misses := 1 }) ∧
    ((s.pocket q).misses ≠ 0 → (s.line.state.underWay = true ∨ s.line.state = .stopped) →
      t.line.state = .faulted ∧ t.line.fault = true ∧ t.line.firstFault = some (.jam, .pocket q) ∧
      (t.pocket q).state = .decided ∧ (t.pocket q).chute = some c ∧ (t.pocket q).misses = 1)

/-- R44: in DRAIN, an index start after whose work no pocket is occupied makes the line IDLE and stops the motion timer, the
phase staying MOVING: with the track empty before it, or with the last pocket at CHECK, DECIDED, HELD or EJECTED, found gone and
finished in it. Only a fault raised in it makes the line FAULTED instead. With a pocket occupied after its work, the line is not
IDLE. -/
def Obligations.DrainEndsAtEmptyTrack : Prop :=
  ∀ (ls cs : Bool) (s : State), s.pins.motion = false → s.line.state = .drain →
    (s.track.occupiedCount = 0 → ls = false → cs = false → ∃ t, exec (.indexStart ls cs) s = .next t ∧
      t.line.state = .idle ∧ t.line.motionTimer = none ∧ t.line.phase = .moving ∧ t.track.occupiedCount = 0) ∧
    (∀ q, s.track.p ≠ 0 → q = s.track.pocketAt s.track.checkPos → (s.pocket q).state.targeted →
      (∀ r, r ≠ q → (s.pocket r).state = .empty) → ls = false → cs = false → ∃ t, exec (.indexStart ls cs) s = .next t ∧
      t.line.state = .idle ∧ t.line.motionTimer = none ∧ t.line.phase = .moving ∧ t.track.occupiedCount = 0) ∧
    (∀ t, exec (.indexStart ls cs) s = .next t → (t.track.occupiedCount ≠ 0 → t.line.state ≠ .idle) ∧
      (t.track.occupiedCount = 0 → t.line.state = .idle ∨ t.line.state = .faulted))

/-! ### The settle -/

/-- SETTLE. Outside RUN and DRAIN with no HELD pocket (R33, R41): a STOPPING line becomes STOPPED; in IDLE, STOPPED and
FAULTED the phase becomes WAITING. In RUN or DRAIN, where no pocket waits to be measured, retried or fired and no check is due
(R33, R34, R35, R38): the dwell work is done at once, READY rises, the stall timer starts, and in RUN with the pocket at LOAD
EMPTY and a slot ACTIVE or PENDING, LOADOK is asserted with the load-permit memory set. In every line state each HELD pocket is
retried with its target (R144), in RUN and DRAIN in WORKING, before the firing: a pocket then DECIDED may be fired at once, and one
still HELD has made the line STOPPING, or STOPPED where no work is open (R40, R41). With MOTION already low there is no fall
(log entry 4). -/
def Obligations.SettleTaken : Prop :=
  (∀ s : State, TransmitInv s →
    (s.pins.motion = false → exec .settle s = .next s) ∧
    (s.pins.motion = true → (∀ p ∈ s.track.pockets, p.state ≠ .held) →
      (s.line.state = .stopping → exec .settle s = .next
        { s with
          pins := { s.pins with motion := false }
          line := { s.line with
            state := .stopped, phase := .waiting, ready := false, loadOk := false, budget := none, motionTimer := none,
            stallTimer := none } }) ∧
      (s.line.state = .idle ∨ s.line.state = .stopped ∨ s.line.state = .faulted → exec .settle s = .next
        { s with
          pins := { s.pins with motion := false }
          line := { s.line with phase := .waiting, ready := false, loadOk := false, motionTimer := none } }))) ∧
  (∀ s : State, TransmitInv s → DwellInv s → s.pins.motion = true → s.line.phase = .moving → s.line.state.worked = true →
    (∀ p ∈ s.track.pockets, p.state = .empty ∨ p.state = .referred ∨ p.state = .ejected) →
    s.dueCheck .A = none → s.dueCheck .B = none →
    ∃ t, exec .settle s = .next t ∧ t.pins = { s.pins with motion := false } ∧ t.line.state = s.line.state ∧
      t.line.phase = .waiting ∧ t.line.ready = true ∧ t.line.budget = none ∧ t.line.motionTimer = none ∧
      t.line.stallTimer = (if s.line.stallLimitMs = 0 then none else some (1000 * s.line.stallLimitMs)) ∧
      t.line.loadOk = (s.line.loadOk || s.loadFit) ∧ t.track = { s.track with loadPermit := s.track.loadPermit || s.loadFit } ∧
      t.chanA = s.chanA ∧ t.chanB = s.chanB ∧ t.chutes = s.chutes ∧ t.slot0 = s.slot0 ∧ t.slot1 = s.slot1 ∧
      t.report = s.report) ∧
  (∀ (s : State) (f : Frame), s.report.tx = some f → s.pins.motion = true →
    (s.line.state = .stopping → exec .settle s = .next (State.retried
      { s with
        pins := { s.pins with motion := false }
        line := { s.line with
          state := .stopped, phase := .waiting, ready := false, loadOk := false, budget := none, motionTimer := none,
          stallTimer := none } })) ∧
    (s.line.state = .idle ∨ s.line.state = .stopped ∨ s.line.state = .faulted → exec .settle s = .next (State.retried
      { s with
        pins := { s.pins with motion := false }
        line := { s.line with phase := .waiting, ready := false, loadOk := false, motionTimer := none } })) ∧
    (s.line.state.worked = true → ∀ r : State, r = State.retried
        { s with
          pins := { s.pins with motion := false }
          line := { s.line with phase := .working, motionTimer := none, budget := some (1000 * s.line.budgetMs) } } →
      ∃ t, exec .settle s = .next t ∧
        (∀ q, (r.pocket q).state ≠ .decided → t.pocket q = r.pocket q) ∧
        (∀ q, (r.pocket q).state = .decided → t.pocket q = r.pocket q ∨
          t.pocket q = { r.pocket q with state := .ejected, jetFired := true }) ∧
        t.slot0 = r.slot0 ∧ t.slot1 = r.slot1 ∧ t.report.event .chuteBlocked = r.report.event .chuteBlocked ∧
        ((∀ q, (s.pocket q).state = .held → (r.pocket q).state ≠ .held) → t.line.state = s.line.state) ∧
        (∀ q c, (s.pocket q).state = .held → (s.pocket q).target = some c → (r.pocket q).state = .held →
          (t.line.state = .stopping ∨ t.line.state = .stopped) ∧ t.line.ready = false ∧ t.line.loadOk = false)))

/-- R75, R76: the station requests and check requests of the set formed at a settle, and no others. -/
def Obligations.RequestSetFormed : Prop :=
  ∀ s : State,
    (∀ (i q : Nat) (sl : SlotId) (g n r : Nat),
      .station i q sl g n r ∈ s.formRequests.sched.requests ↔
        1 ≤ i ∧ i ≤ s.track.stations.length ∧ q = s.track.pocketAt (s.track.stations.getD (i - 1) 0) ∧
        ((s.pocket q).state = .loaded ∨ (s.pocket q).state = .measuring) ∧ (s.pocket q).lap = 1 ∧
        (s.pocket q).exhausted = false ∧ (∀ a ∈ (s.pocket q).attempts, a.station ≠ i) ∧
        (s.pocket q).slot = some sl ∧ g = (s.pocket q).nextGrade ∧
        ∃ d, (s.slot sl).definition = some d ∧ n = (d.gradeAt g).samples ∧ r = d.range) ∧
    (∀ (ch : Chan) (r : Nat),
      .check ch r ∈ s.formRequests.sched.requests ↔
        (s.chan ch).service ≠ .suspect ∧ ∃ i d, s.activeSlot = some i ∧ (s.slot i).definition = some d ∧ d.range = r ∧
          (s.cal.trim ch r = none ∨ s.cal.flag ch = true))

/-- R77 to R81, R63. A request fits a channel when its expected duration there is not greater than the time left on the budget, a
check its own channel alone. A review of a set that is not empty drops each station request that fits no channel that is not
SUSPECT and each check that does not fit its channel, counting each NO TIME on one channel, and then makes A's pass and B's. A
grant pass of a free channel hands it a fitting request that no other fitting request comes before, as a job in CONNECTING, and
removes it from the set; with none fitting, or a channel not free, nothing happens. -/
def Obligations.GrantsInOrder : Prop :=
  (∀ (ch : Chan) (s : State),
    (∀ i q sl g n r, s.fits ch (.station i q sl g n r) = true ↔ duration (s.chan ch) n ≤ s.line.budget.getD 0) ∧
    (∀ c r, s.fits ch (.check c r) = true ↔ c = ch ∧ duration (s.chan ch) 64 ≤ s.line.budget.getD 0)) ∧
  (∀ (s : State) (left : Nat), s.line.budget.getD 0 = left → s.chanA.cnt.noTime ≤ 4294967295 → s.chanB.cnt.noTime ≤ 4294967295 →
    s.dropLate = { s with
      sched := { s.sched with
        requests := s.sched.requests.filter fun r => !s.lateOn .A left r && !s.lateOn .B left r }
      chanA := { s.chanA with cnt := { s.chanA.cnt with
        noTime := min 4294967295 (s.chanA.cnt.noTime + s.sched.requests.countP (s.lateOn .A left)) } }
      chanB := { s.chanB with cnt := { s.chanB.cnt with
        noTime := min 4294967295 (s.chanB.cnt.noTime + s.sched.requests.countP (s.lateOn .B left)) } } } ∧
    (s.sched.requests = [] → s.review = s) ∧
    (s.sched.requests ≠ [] → s.review = (s.dropLate.grantPass .A).grantPass .B)) ∧
  (∀ (ch : Chan) (s : State),
    (∀ i q sl g n r, .station i q sl g n r ∈ s.sched.requests → i ≤ s.track.stations.length) →
    ((¬((s.chan ch).service = .inService ∧ (s.chan ch).jobState = .idle) ∨
        ∀ r ∈ s.sched.requests, s.fits ch r = false) → s.grantPass ch = s) ∧
    ((s.chan ch).service = .inService → (s.chan ch).jobState = .idle →
      (∃ r ∈ s.sched.requests, s.fits ch r = true) →
      ∃ r ∈ s.sched.requests, s.fits ch r = true ∧
        (∀ x ∈ s.sched.requests, s.fits ch x = true → ¬comesFirst s.track.stations.length x r) ∧
        (s.grantPass ch).sched.requests = s.sched.requests.erase r ∧
        ((s.grantPass ch).chan ch).jobState = .connecting ∧
        ((s.grantPass ch).chan ch).relayTimer = some (100 * (s.chan ch).relaySettle) ∧
        ((s.grantPass ch).chan ch).pol = (s.chan ch).pol ∧
        ((s.grantPass ch).chan (chanOther ch)) = s.chan (chanOther ch) ∧
        (∀ i q sl g n rg, r = .station i q sl g n rg →
          ((s.grantPass ch).chan ch).job =
            some ⟨.station i q g, n, rg, 0, 0, 0, 0, 0, false, false, 0⟩ ∧
          ((s.grantPass ch).chan ch).relay = .station i ∧ ((s.grantPass ch).chan ch).range = rg) ∧
        (∀ c rg, r = .check c rg →
          c = ch ∧ ((s.grantPass ch).chan ch).job = some ⟨.check, 64, rg, 0, 0, 0, 0, 0, false, false, 0⟩ ∧
          ((s.grantPass ch).chan ch).relay = .check ∧ ((s.grantPass ch).chan ch).range = rg)))

/-! ### Channels -/

/-- The converter frame layout (R177): codes in two's complement, most significant bit first, four lead flags and the
polarity echo; the last 11 bits are not judged. -/
def Obligations.ConverterFrameRead : Prop :=
  ∀ (dut ref : Int) (leads : Bool × Bool × Bool × Bool) (echo : Bool) (rest : List Bool),
    -8388608 ≤ dut → dut ≤ 8388607 → -8388608 ≤ ref → ref ≤ 8388607 → rest.length = 11 →
    (converterBits dut ref leads echo rest).length = 64 ∧
    parseSample (converterBits dut ref leads echo rest) =
      ⟨dut, ref, leads.1 && leads.2.1 && leads.2.2.1 && leads.2.2.2, if echo then .negative else .positive⟩

/-- What a channel does with a good frame, with strict frame length off and on (R52 to R56, R64, R65, R67, R82, R84). In a
settle phase it raises the phase count, and the S-th enters the sample phase. In a sample phase the codes are added to the sums
of the phase, the clipped flags and the phase count follow, the error run is 0; the N-th of SAMPLE_POS enters SETTLE_NEG, or
with S 0 SAMPLE_NEG, with POL negative. Each restarts the watchdog; nothing else changes. The N-th of SAMPLE_NEG completes the
job: relays open, no job, the outcome counted, the attempt recorded and charged; a source fault counts toward SUSPECT; an
ACCEPTED result is judged: undecided the pocket is MEASURING at the next grade, a class is decided and committed, NO CLASS is
referred or goes to the reject chute; a check within the drift limit sets the trim. In CONNECTING, with no job running, and in
SUSPECT it is used for nothing but a running watchdog (R58, R63, R81). In STALLED it raises the good-frame run, and the fourth
returns the channel to IN_SERVICE.
That the command carries the link symbols is the model's choice (log entry 15). -/
def Obligations.GoodSampleAdded : Prop :=
  ∀ (ch : Chan) (s : State) (bits : List Bool) (symbols : List LinkSymbol) (after : Receiver) (f : Sample) (c : Channel),
    TransmitInv s → (s.chan ch).takes symbols bits after → parseSample bits = f →
    c = { s.chan ch with
      receiver := after, watchdog := (s.chan ch).watchdog.map fun _ => 8 * (s.chan ch).framePeriod } →
    (∀ (j : Job) (p : Bool) (j1 : Job), c.service = .inService → c.job = some j → p = (c.jobState == .samplePos) →
      j1 = { j with
        sdp := if p then j.sdp + f.dut else j.sdp, srp := if p then j.srp + f.ref else j.srp,
        sdn := if p then j.sdn else j.sdn + f.dut, srn := if p then j.srn else j.srn + f.ref,
        phaseCount := j.phaseCount + 1, errRun := 0,
        dutClipped := j.dutClipped || (f.dut == -8388608 || f.dut == 8388607),
        refClipped := j.refClipped || (f.ref == -8388608 || f.ref == 8388607) } →
      (c.jobState = .settlePos ∨ c.jobState = .settleNeg →
        exec (.frameTaken ch symbols) s = .next (s.modChan ch fun _ =>
          if c.settleFrames ≤ j.phaseCount + 1 then
            { c with
              jobState := if c.jobState = .settlePos then .samplePos else .sampleNeg
              job := some { j with phaseCount := 0, errRun := 0 } }
          else { c with job := some { j with phaseCount := j.phaseCount + 1 } })) ∧
      (f.leads = true → f.echo = c.pol →
        (c.jobState = .samplePos ∨ c.jobState = .sampleNeg → j.phaseCount + 1 < j.n →
          exec (.frameTaken ch symbols) s = .next (s.modChan ch fun _ => { c with job := some j1 })) ∧
        (c.jobState = .samplePos → j.n ≤ j.phaseCount + 1 →
          exec (.frameTaken ch symbols) s = .next (s.modChan ch fun _ => { c with
            pol := .negative, jobState := if c.settleFrames = 0 then .sampleNeg else .settleNeg
            job := some { j1 with phaseCount := 0 } })) ∧
        (c.jobState = .sampleNeg → j.n ≤ j.phaseCount + 1 → ∀ c0, c0 = { c with
            relay := .open, relayTimer := none, job := none, jobState := .idle } →
          ∃ t, exec (.frameTaken ch symbols) s = .next t ∧
            (∀ i q g, j.kind = .station i q g → s.completedAt t ch c0 j1 i q g) ∧
            (∀ v, j.kind = .check → checkResult (s.cal.working.pair j.range).c j1 = some v → s.sched.requests = [] →
              1 ≤ j.range → j.range ≤ 6 → (s.cal.trims ch).length = 6 → v.natAbs ≤ s.shared.driftLimit →
              t.chan ch = { c0 with srcRun := 0, cnt := { c0.cnt with
                checks := satInc 4294967295 c0.cnt.checks, trims := satInc 4294967295 c0.cnt.trims } } ∧
              t.cal.trim ch j.range = some ⟨v, s.track.k⟩ ∧ t.cal.flag ch = false ∧ t.track = s.track)))) ∧
    (c.service = .inService ∧ (c.jobState = .connecting ∨ c.jobState = .idle) ∨
        c.service = .suspect ∧ c.jobState = .idle →
      exec (.frameTaken ch symbols) s = .next (s.modChan ch fun _ => c)) ∧
    (c.service = .stalled → c.jobState = .idle →
      (c.goodRun < 3 → exec (.frameTaken ch symbols) s = .next (s.modChan ch fun _ => { c with goodRun := c.goodRun + 1 })) ∧
      (3 ≤ c.goodRun → s.sched.requests = [] → ∃ t, exec (.frameTaken ch symbols) s = .next t ∧
        t.chan ch = { c with service := .inService, goodRun := 0, watchdog := some (8 * c.framePeriod) } ∧
        t.chan (chanOther ch) = s.chan (chanOther ch) ∧ t.track = s.track ∧
        (s.line.phase ≠ .working → t.line = s.line)))

/-- Errored frames and failed jobs, with strict frame length off and on (R53, R54, R68 to R70, R82, R83). A short frame, a long
one or a polarity echo that differs is counted under its kind in a sample phase and raises the error run; the third in a row ends
the job LINK ERROR, recorded at the pocket it named, with no retry used, the channel staying IN_SERVICE. A good frame with a lead
flag clear ends it CONTACT LOST. With strict on, the 64th bit takes no frame. In a settle phase a frame of a wrong length counts
like any other (R64); in CONNECTING, with no job running, and in SUSPECT it is only counted (R54, R58, R63, R81); in STALLED it
ends the good run.
R83: a failure of the part or its contacts uses a retry, unless retries are unlimited, and exhausts the pocket at 0; no other
outcome does. The pocket's state and next grade stand.
That the command carries the link symbols is the model's choice (log entry 15); that a long frame is counted as R54 says of a
short one is log entry 23. -/
def Obligations.FailedAttemptsRecorded : Prop :=
  (∀ (ch : Chan) (s : State) (j : Job) (symbols : List LinkSymbol) (after : Receiver) (cnt : ChanCounters) (c : Channel),
    TransmitInv s → (s.chan ch).service = .inService →
    ((s.chan ch).jobState = .samplePos ∨ (s.chan ch).jobState = .sampleNeg) → (s.chan ch).job = some j →
    (s.chan ch).errs symbols after cnt →
    c = { s.chan ch with
      receiver := after, watchdog := (s.chan ch).watchdog.map fun _ => 8 * (s.chan ch).framePeriod, cnt := cnt } →
    (j.errRun < 2 → exec (.frameTaken ch symbols) s = .next (s.modChan ch fun _ =>
      { c with job := some { j with errRun := j.errRun + 1 } })) ∧
    (∀ i q g, 2 ≤ j.errRun → j.kind = .station i q g → s.sched.requests = [] → q < s.track.pockets.length →
      ∃ t, exec (.frameTaken ch symbols) s = .next t ∧
        t.chan ch = { c with
          job := none, jobState := .idle, relay := .open, relayTimer := none
          cnt := { cnt with linkError := satInc 4294967295 cnt.linkError } } ∧
        t.pocket q = { s.pocket q with
          attempts := (s.pocket q).attempts ++ [⟨i, ch, g, .linkError, none, none⟩] } ∧
        (∀ r, r ≠ q → t.pocket r = s.pocket r) ∧ t.chan (chanOther ch) = s.chan (chanOther ch) ∧ t.slot0 = s.slot0 ∧
        t.slot1 = s.slot1 ∧ t.chutes = s.chutes ∧ t.cal = s.cal)) ∧
  (∀ (ch : Chan) (s : State) (j : Job) (bits : List Bool) (symbols : List LinkSymbol) (after : Receiver) (i q g : Nat),
    (s.chan ch).service = .inService → ((s.chan ch).jobState = .samplePos ∨ (s.chan ch).jobState = .sampleNeg) →
    (s.chan ch).job = some j → j.kind = .station i q g → (s.chan ch).takes symbols bits after →
    (parseSample bits).echo = (s.chan ch).pol → (parseSample bits).leads = false → s.sched.requests = [] →
    q < s.track.pockets.length →
    ∃ t, exec (.frameTaken ch symbols) s = .next t ∧
      t.chan ch = { s.chan ch with
        receiver := after, watchdog := (s.chan ch).watchdog.map fun _ => 8 * (s.chan ch).framePeriod
        job := none, jobState := .idle, relay := .open, relayTimer := none
        cnt := { (s.chan ch).cnt with contactLost := satInc 4294967295 (s.chan ch).cnt.contactLost } } ∧
      t.pocket q = (s.pocket q).addAttempt ⟨i, ch, g, .contactLost, none, none⟩ ∧
      (∀ r, r ≠ q → t.pocket r = s.pocket r) ∧ t.chan (chanOther ch) = s.chan (chanOther ch) ∧ t.cal = s.cal) ∧
  (∀ (ch : Chan) (s : State) (bits : List Bool) (b : Bool), TransmitInv s → (s.chan ch).receiver = .counting true bits →
    bits.length < 64 → exec (.frameTaken ch [.bit b]) s = .next
      (s.modChan ch fun c => { c with receiver := .counting true (bits ++ [b]) })) ∧
  (∀ (ch : Chan) (s : State) (symbols : List LinkSymbol) (after : Receiver) (cnt : ChanCounters) (c : Channel),
    TransmitInv s → (s.chan ch).missizes symbols after cnt →
    c = { s.chan ch with
      receiver := after, watchdog := (s.chan ch).watchdog.map fun _ => 8 * (s.chan ch).framePeriod, cnt := cnt } →
    (c.service = .stalled → exec (.frameTaken ch symbols) s = .next (s.modChan ch fun _ => { c with goodRun := 0 })) ∧
    (c.service = .suspect ∨ c.service = .inService ∧ (c.jobState = .connecting ∨ c.jobState = .idle) →
      exec (.frameTaken ch symbols) s = .next (s.modChan ch fun _ => c)) ∧
    (∀ j, c.service = .inService → c.jobState = .settlePos ∨ c.jobState = .settleNeg → c.job = some j →
      exec (.frameTaken ch symbols) s = .next (s.modChan ch fun _ =>
        if c.settleFrames ≤ j.phaseCount + 1 then
          { c with
            jobState := if c.jobState = .settlePos then .samplePos else .sampleNeg
            job := some { j with phaseCount := 0, errRun := 0 } }
        else { c with job := some { j with phaseCount := j.phaseCount + 1 } }))) ∧
  (∀ (p : Pocket) (a : Attempt),
    (p.addAttempt a).attempts = p.attempts ++ [a] ∧ (p.addAttempt a).state = p.state ∧
    (p.addAttempt a).nextGrade = p.nextGrade ∧
    (a.outcome = .unstable ∨ a.outcome = .contactLost ∨ a.outcome = .sourceFault →
      (p.retries = none → p.addAttempt a = { p with attempts := p.attempts ++ [a] }) ∧
      (∀ r, p.retries = some (r + 1) → p.addAttempt a =
        { p with attempts := p.attempts ++ [a], retries := some r, exhausted := p.exhausted || r == 0 })) ∧
    (a.outcome = .accepted ∨ a.outcome = .linkError ∨ a.outcome = .stall ∨ a.outcome = .cut →
      p.addAttempt a = { p with attempts := p.attempts ++ [a] }))

/-- WATCHDOG_EXPIRY (R55): the channel becomes STALLED, its receiver waits for sync, CHANNEL_STALL is raised, and a running
station job is aborted STALL at its pocket. RELAY_SETTLE_EXPIRY (R64): in CONNECTING the timer stops, POL is driven positive
and the settle phase is entered, or with S = 0 the sample phase; in any other job state nothing happens. With no watchdog
running there is no expiry.
That an expiry takes effect whatever time is left is the model's choice (log entry 3). -/
def Obligations.ChannelTimersExpire : Prop :=
  (∀ (ch : Chan) (s : State), TransmitInv s →
    ((s.chan ch).watchdog = none → exec (.watchdogExpiry ch) s = .next s) ∧
    ((s.chan ch).watchdog ≠ none → ∃ t, exec (.watchdogExpiry ch) s = .next t ∧ (t.chan ch).service = .stalled ∧
      (t.chan ch).watchdog = none ∧ (t.chan ch).receiver = .waiting ∧ (t.chan ch).goodRun = 0 ∧ (t.chan ch).job = none ∧
      (t.chan ch).srcRun = (s.chan ch).srcRun ∧ (t.chan ch).pol = (s.chan ch).pol ∧
      (t.chan ch).range = (s.chan ch).range ∧ t.cal = s.cal ∧ t.temp = s.temp ∧ t.link = s.link ∧
      s.sends t .channelStall (.channel ch) ∧
      (∀ j i q g, (s.chan ch).job = some j → j.kind = .station i q g → q < s.track.pockets.length →
        t.pocket q = { s.pocket q with attempts := (s.pocket q).attempts ++ [⟨i, ch, g, .stall, none, none⟩] } ∧
        (t.chan ch).cnt.stall = satInc 4294967295 (s.chan ch).cnt.stall ∧ (t.chan ch).relay = .open) ∧
      ((s.chan ch).job = none → t.track = s.track ∧ t.line = s.line ∧ t.chan (chanOther ch) = s.chan (chanOther ch)))) ∧
  (∀ (ch : Chan) (s : State), TransmitInv s →
    ((s.chan ch).jobState ≠ .connecting → exec (.relaySettleExpiry ch) s = .next s) ∧
    ((s.chan ch).jobState = .connecting → ∀ j, (s.chan ch).job = some j →
      exec (.relaySettleExpiry ch) s = .next (s.modChan ch fun c =>
        if c.settleFrames = 0 then
          { c with relayTimer := none, pol := .positive, jobState := .samplePos,
                   job := some { j with phaseCount := 0, errRun := 0 } }
        else
          { c with relayTimer := none, pol := .positive, jobState := .settlePos, job := some { j with phaseCount := 0 } })))

/-- CHAN.SET (R51, R52): taken in IDLE and STOPPED, BUSY elsewhere; the first of its seven fields that fails is answered by its
ordinal; an accepted request writes the named channel's four settings and the two shared ones, restarts a running watchdog, and
with K 0 clears the periodic flags (R162). -/
def Obligations.ChanSetTaken : Prop :=
  ∀ (tag : Byte) (r : ChanSetReq) (s : State), s.taking →
    (s.line.state ≠ .idle → s.line.state ≠ .stopped →
      exec (.chanSet tag r) s = .next (s.replied ⟨0x85#8, tag, [0x01#8]⟩)) ∧
    (s.line.state = .idle ∨ s.line.state = .stopped →
      (∀ n, firstFails (chanPasses r) n →
        exec (.chanSet tag r) s = .next (s.replied ⟨0x85#8, tag, 0x03#8 :: le 1 n⟩)) ∧
      (∀ ch, r.chan = chanCode ch → (∀ n, chanPasses r n) →
        exec (.chanSet tag r) s = .next (State.replied ⟨0x85#8, tag, [0x00#8]⟩
          { s.modChan ch (fun c => { c with
              framePeriod := r.framePeriod, settleFrames := r.settleFrames, relaySettle := r.relaySettle,
              strict := r.strict == 1, watchdog := c.watchdog.map fun _ => 8 * r.framePeriod }) with
            shared := ⟨r.driftLimit, r.interval⟩
            cal := if r.interval = 0 then { s.cal with flagA := false, flagB := false } else s.cal })))

/-- CHAN.RESET and CHAN.RESTORE (R57, R60): refused by the service state as the rules say; a reset channel is STALLED, its receiver
waiting; a restored one IN_SERVICE with its watchdog running and its six trims absent. A job that runs on a channel reset ends
STALL (R70, R82, R164): recorded at its pocket, which keeps its retries, or counted as a check, with no CHANNEL_STALL raised. A
channel restored is reviewed for (R79): in a WORKING dwell with work still open nothing else happens, and with none left the line
leaves WORKING (R34). -/
def Obligations.ChanResetAndRestore : Prop :=
  (∀ (tag : Byte) (s : State) (ch : Chan), s.taking → (s.chan ch).job = none →
    (∀ n, 1 < n → exec (.chanReset tag n) s = .next (s.replied ⟨0x87#8, tag, [0x03#8, 0x01#8]⟩) ∧
      exec (.chanRestore tag n) s = .next (s.replied ⟨0x88#8, tag, [0x03#8, 0x01#8]⟩)) ∧
    ((s.chan ch).service = .suspect →
      exec (.chanReset tag (chanCode ch)) s = .next (s.replied ⟨0x87#8, tag, [0x01#8]⟩) ∧
      (s.line.phase ≠ .working → s.sched.requests = [] →
        exec (.chanRestore tag (chanCode ch)) s = .next (State.replied ⟨0x88#8, tag, [0x00#8, 0x00#8]⟩
        { s.modChan ch (fun c => { c with
            service := .inService, goodRun := 0, srcRun := 0, watchdog := some (8 * c.framePeriod) }) with
          cal := match ch with
            | .A => { s.cal with trimsA := List.replicate 6 none }
            | .B => { s.cal with trimsB := List.replicate 6 none } }))) ∧
    ((s.chan ch).service ≠ .suspect →
      exec (.chanRestore tag (chanCode ch)) s = .next (s.replied ⟨0x88#8, tag, [0x01#8]⟩) ∧
      exec (.chanReset tag (chanCode ch)) s = .next (State.replied ⟨0x87#8, tag, [0x00#8, 0x01#8]⟩
        (s.modChan ch fun c => { c with service := .stalled, goodRun := 0, watchdog := none, receiver := .waiting })))) ∧
  (∀ (tag : Byte) (s : State) (ch : Chan) (j : Job) (c : Channel), s.taking → (s.chan ch).service = .inService →
    (s.chan ch).job = some j →
    c = { s.chan ch with
      service := .stalled, goodRun := 0, watchdog := none, receiver := .waiting, job := none, jobState := .idle
      relay := .open, relayTimer := none } →
    ∃ t, exec (.chanReset tag (chanCode ch)) s = .next t ∧ t.answered ⟨0x87#8, tag, [0x00#8, 0x01#8]⟩ ∧
      (t.chan ch).service = .stalled ∧ (t.chan ch).job = none ∧ (t.chan ch).receiver = .waiting ∧
      t.report.events = s.report.events ∧ t.cal = s.cal ∧ t.slot0 = s.slot0 ∧ t.slot1 = s.slot1 ∧ t.chutes = s.chutes ∧
      (∀ i q g, j.kind = .station i q g → q < s.track.pockets.length →
        t.pocket q = { s.pocket q with attempts := (s.pocket q).attempts ++ [⟨i, ch, g, .stall, none, none⟩] } ∧
        (∀ r, r ≠ q → t.pocket r = s.pocket r) ∧
        (s.sched.requests = [] → t.chan (chanOther ch) = s.chan (chanOther ch) ∧
          t.chan ch = { c with cnt := { c.cnt with stall := satInc 4294967295 c.cnt.stall } })) ∧
      (j.kind = .check → t.track = s.track ∧
        (s.sched.requests = [] → t.chan (chanOther ch) = s.chan (chanOther ch) ∧
          t.chan ch = { c with cnt := { c.cnt with checks := satInc 4294967295 c.cnt.checks } })) ∧
      (s.line.phase = .working → s.line.state.worked = true → s.sched.requests = [] → (s.chan (chanOther ch)).job = none →
        (∀ e ∈ s.chutes, e.jet = none) → t.line.phase = .waiting ∧ t.line.ready = true)) ∧
  (∀ (tag : Byte) (s u : State) (ch : Chan), s.taking → (s.chan ch).service = .suspect →
    u = State.review { s.modChan ch (fun c => { c with
        service := .inService, goodRun := 0, srcRun := 0, watchdog := some (8 * c.framePeriod) }) with
      cal := match ch with
        | .A => { s.cal with trimsA := List.replicate 6 none }
        | .B => { s.cal with trimsB := List.replicate 6 none } } →
    (s.line.phase ≠ .working ∨ u.dwellDone = false →
      exec (.chanRestore tag (chanCode ch)) s = .next (State.replied ⟨0x88#8, tag, [0x00#8, 0x00#8]⟩ u)) ∧
    (s.line.phase = .working → u.dwellDone = true →
      (s.line.state.worked = true →
        exec (.chanRestore tag (chanCode ch)) s = .next (State.replied ⟨0x88#8, tag, [0x00#8, 0x00#8]⟩
          { u with line := { s.line with
              phase := .waiting, budget := none, ready := true
              stallTimer := if s.line.stallLimitMs = 0 then none else some (1000 * s.line.stallLimitMs) } })) ∧
      (s.line.state = .stopping →
        exec (.chanRestore tag (chanCode ch)) s = .next (State.replied ⟨0x88#8, tag, [0x00#8, 0x00#8]⟩
          { u with line := { s.line with
              state := .stopped, phase := if s.pins.motion then .moving else .waiting, ready := false, loadOk := false
              budget := none, stallTimer := none } }))))

/-! ### Requests that read -/

/-- IDENT (R173).
The flag as 01H or 00H is the model's choice (log entry 11). -/
def Obligations.IdentAnswered : Prop :=
  Request.payload .ident = [] ∧
  ∀ (tag : Byte) (s : State), s.taking →
    exec (.ident tag) s = .next (s.replied ⟨0x81#8, tag,
      0x00#8 :: [0x4E#8, 0x4B#8, 0x2D#8, 0x36#8, 0x31#8, 0x32#8, 0x01#8] ++ le 4 s.link.speed ++
        [if s.cal.valid then 0x01#8 else 0x00#8] ++ le 2 s.cal.working.number ++ le 1 s.track.p⟩)

/-- TRACK.READ, CHAN.READ, LOT.READ, POCKET.READ and CAL.READ change nothing but the reply (R6, R24, R73, R116, R160), in
every line state, and carry the fields of their rules in their layouts.
The codings of flags, lists, optional values, the error run without a job, the label, the counts of two bytes and the due checks are
the model's readings (log entries 11, 12, 30, 31, 32, 33). -/
def Obligations.ReadsChangeNothing : Prop :=
  ∀ (tag : Byte) (s : State), s.taking →
    exec (.trackRead tag) s = .next (s.replied ⟨0x83#8, tag,
      0x00#8 :: (le 1 s.track.p ++ (le 1 s.track.stations.length ++ (s.track.stations.map (le 1)).flatten) ++
        le 1 s.track.decidePos ++ le 1 s.track.checkPos ++ le 4 s.track.k ++ le 1 s.track.phi ++
        le 4 s.track.nextSerial ++ le 1 (s.track.pockets.countP fun p => p.state != .empty))⟩) ∧
    (∀ ch, exec (.chanRead tag (chanByte ch)) s = .next (s.replied ⟨0x86#8, tag, 0x00#8 :: chanReadLayout s ch⟩)) ∧
    (∀ n, 1 < n → exec (.chanRead tag n) s = .next (s.replied ⟨0x86#8, tag, [0x03#8, 0x01#8]⟩)) ∧
    (∀ i : SlotId, exec (.lotRead tag (slotByte i)) s = .next (s.replied ⟨0x8C#8, tag, 0x00#8 ::
      le 1 (slotByte i) ++ le 1 (codeIn [SlotState.free, .ready, .pending, .active, .draining] (s.slot i).state) ++
        le 1 (s.slot i).resident ++
        match (s.slot i).definition with
        | none => []
        | some d => lotReadLayout d (s.slot i).activation⟩)) ∧
    (∀ n, 1 < n → exec (.lotRead tag n) s = .next (s.replied ⟨0x8C#8, tag, [0x03#8, 0x01#8]⟩)) ∧
    (s.track.p = 0 → ∀ q, exec (.pocketRead tag q) s = .next (s.replied ⟨0x98#8, tag, [0x02#8]⟩)) ∧
    (s.track.p ≠ 0 → ∀ q, s.track.p ≤ q → exec (.pocketRead tag q) s = .next (s.replied ⟨0x98#8, tag, [0x03#8, 0x01#8]⟩)) ∧
    (∀ q, q < s.track.p → exec (.pocketRead tag q) s = .next (s.replied ⟨0x98#8, tag, 0x00#8 ::
      le 1 q ++ le 1 ((q + s.track.phi) % s.track.p) ++ le 1 (pocketStateByte (s.pocket q).state) ++
        if (s.pocket q).state = .empty then [] else pocketReadLayout (s.pocket q)⟩)) ∧
    (∀ dueA dueB, (∀ r, dueA = some r ↔ s.checkDue .A r) → (∀ r, dueB = some r ↔ s.checkDue .B r) →
      exec (.calRead tag) s = .next (s.replied ⟨0xA0#8, tag, 0x00#8 :: calReadLayout s.cal dueA dueB⟩))

/-! ### Deviation arithmetic -/

/-- R93: the quotients of the Deviation Unit are roundings of one exact quotient; the rounded value is nearest to it, and an
exact half goes away from zero. -/
def Obligations.QuotientsRoundedOnce : Prop :=
  (∀ (num : Int) (den : Nat), 0 < den →
    2 * ((roundDiv num den * den - num).natAbs : Int) ≤ den ∧
    (2 * ((roundDiv num den * den - num).natAbs : Int) = den → num.natAbs < (roundDiv num den).natAbs * den) ∧
    ((den : Int) ∣ num → roundDiv num den * den = num) ∧ roundDiv (-num) den = -roundDiv num den) ∧
  (∀ (rref rnom : Nat) (d rf : Int), 0 ≤ rf →
    devRaw rref rnom d rf = roundDiv ((rref * d - rnom * rf) * 1000000) (rnom * rf.toNat)) ∧
  (∀ tcr v, tempCorrection tcr (.current v) = roundDiv (tcr * (v - 2500)) 1000 ∧
    tempCorrection tcr (.held v) = roundDiv (tcr * (v - 2500)) 1000) ∧
  (∀ j : Job, j.emf = roundDiv (j.sdp + j.sdn) (2 * j.n)) ∧
  (∀ (c : Nat) (j : Job) (v : Int), checkResult c j = some v →
    v = roundDiv ((j.dutDiff * 1000000000 - c * j.refDiff) * 1000000) (c * j.refDiff.toNat)) ∧
  devRaw 10000000 10000000 2000001 2000000 = 1 ∧ devRaw 10000000 10000000 2000002 2000000 = 1 ∧
  devRaw 10000000 10000000 2000000 2000000 = 0 ∧ devRaw 10000000 10000000 1999999 2000000 = -1 ∧
  devRaw 10000000 10000000 1999997 2000000 = -2 ∧
  roundDiv 299645 1000 = 300 ∧ roundDiv (-99986702) 100 = -999867

/-- R91, R97, R98, R100: a station job fails the source check exactly when the reference clipped or Rf is below 80,000 × N;
every deviation formed lies within −999,999..+999,999; a clipped DUT code gives +999,999; otherwise a deviation below −999,999
gives −999,999, one above +999,999 gives +999,999, and one within stands; OVER-RANGE is set where a DUT code is clipped or the
deviation was limited, and there alone; TEMP-NOT-CURRENT and UNTRIMMED follow the temperature record and the trim alone. -/
def Obligations.DeviationResults : Prop :=
  ∀ (rref : Nat) (d : LotDef) (t : TempRecord) (trim : Option Trim) (j : Job),
    (stationResult rref d t trim j = .sourceFault ↔
      (j.refClipped = true ∨ j.srp - j.srn < 80000 * (j.n : Int))) ∧
    (∀ o v m u, stationResult rref d t trim j = .measured o v m →
      u = roundDiv ((rref * (j.sdp - j.sdn) - d.rnom * (j.srp - j.srn)) * 1000000) (d.rnom * (j.srp - j.srn).toNat) -
        (trim.map Trim.value).getD 0 - tempCorrection d.tcr t →
      -999999 ≤ v ∧ v ≤ 999999 ∧
      (j.dutClipped = true → v = 999999) ∧
      (j.dutClipped = false → u < -999999 → v = -999999) ∧ (j.dutClipped = false → 999999 < u → v = 999999) ∧
      (j.dutClipped = false → -999999 ≤ u → u ≤ 999999 → v = u) ∧
      (m.overRange = true ↔ j.dutClipped = true ∨ u < -999999 ∨ 999999 < u) ∧
      (m.untrimmed = true ↔ trim = none) ∧ (m.tempNotCurrent = false ↔ ∃ x, t = .current x) ∧
      (o = .unstable ↔ d.emfLimit ≠ 0 ∧ d.emfLimit < (roundDiv (j.sdp + j.sdn) (2 * j.n)).natAbs) ∧
      (o = .unstable ∨ o = .accepted))

/-! ### Decisions -/

/-- R119 to R124: in PRESERVE mode an early decision at guard G is the decision that the final judgement gives every
deviation within G of the one measured; in either mode an early NO CLASS is; and the final judgement takes the first class in
table order in which the deviation falls. -/
def Obligations.EarlyDecisionsHold : Prop :=
  ∀ (def_ : LotDef) (d : Int) (g : Nat),
    (guardedJudgement def_ d g = .noClass .early → ∀ e : Int, (e - d).natAbs ≤ g →
      finalJudgement def_ e = .noClass .final) ∧
    (∀ k, def_.mode = .preserve → guardedJudgement def_ d g = .cls k .early → ∀ e : Int, (e - d).natAbs ≤ g →
      finalJudgement def_ e = .cls k .final) ∧
    (∀ k src, guardedJudgement def_ d g = .cls k src → src = .early ∧ 1 ≤ k ∧ k ≤ def_.classes.length ∧
      (def_.classAt k).lower + g ≤ d ∧ d ≤ (def_.classAt k).upper - g) ∧
    (∀ k, finalJudgement def_ d = .cls k .final ↔
      (1 ≤ k ∧ k ≤ def_.classes.length ∧ (def_.classAt k).lower ≤ d ∧ d ≤ (def_.classAt k).upper ∧
        ∀ i, 1 ≤ i → i < k → ¬((def_.classAt i).lower ≤ d ∧ d ≤ (def_.classAt i).upper)))

/-- R131 to R135: the default of the pocket leaving DECIDE, committed to a chute that can take it: REFERRED to the reject chute,
LOADED to the retest chute, MEASURING by the slot's fallback: RETEST, or under CLASSIFY-LAST the first class of the latest
ACCEPTED attempt with no guard, or the reject chute where it falls in none; each counted. -/
def Obligations.DefaultsAtDecide : Prop :=
  ∀ (s : State) (q : Nat) (i : SlotId) (d : LotDef), q < s.track.pockets.length → (s.pocket q).slot = some i →
    (s.slot i).definition = some d → s.canTake d.retestChute (s.track.positionOf q) = true →
    s.canTake d.rejectChute (s.track.positionOf q) = true → ∀ t, t = s.leaveDecide q →
    ((s.pocket q).state = .loaded → t.pocket q = { s.pocket q with
        state := .decided, decision := some ⟨none, .unmeasured, none⟩, target := some d.retestChute,
        chute := some d.retestChute, overflow := false } ∧
      (t.slot i).cnt = { (s.slot i).cnt with unmeasured := satInc 4294967295 (s.slot i).cnt.unmeasured }) ∧
    ((s.pocket q).state = .referred → ∀ x, (s.pocket q).decision = some x → t.pocket q = { s.pocket q with
        state := .decided, decision := some { x with source := .referDefault }, target := some d.rejectChute,
        chute := some d.rejectChute, overflow := false } ∧
      (t.slot i).cnt = { (s.slot i).cnt with refDefaulted := satInc 4294967295 (s.slot i).cnt.refDefaulted }) ∧
    ((s.pocket q).state = .measuring → d.fallback = .retest → t.pocket q = { s.pocket q with
        state := .decided, decision := some ⟨none, .unfinished, none⟩, target := some d.retestChute,
        chute := some d.retestChute, overflow := false } ∧
      (t.slot i).cnt = { (s.slot i).cnt with unfinished := satInc 4294967295 (s.slot i).cnt.unfinished }) ∧
    (∀ xs a ys v, (s.pocket q).state = .measuring → d.fallback = .classifyLast → (s.pocket q).attempts = xs ++ a :: ys →
      a.outcome = .accepted → (∀ b ∈ ys, b.outcome ≠ .accepted) → a.deviation = some v →
      (∀ k, 1 ≤ k → k ≤ d.classes.length → (d.classAt k).lower ≤ v → v ≤ (d.classAt k).upper →
        (∀ i, 1 ≤ i → i < k → ¬((d.classAt i).lower ≤ v ∧ v ≤ (d.classAt i).upper)) →
        s.canTake (d.classAt k).chute (s.track.positionOf q) = true →
        t.pocket q = { s.pocket q with
          state := .decided, decision := some ⟨some k, .fallback, some a.grade⟩, target := some (d.classAt k).chute,
          chute := some (d.classAt k).chute, overflow := false } ∧
        (t.slot i).cnt = { (s.slot i).cnt with
          perClass := (s.slot i).cnt.perClass.modify (k - 1) (satInc 4294967295)
          fallback := satInc 4294967295 (s.slot i).cnt.fallback }) ∧
      ((∀ k, 1 ≤ k → k ≤ d.classes.length → ¬((d.classAt k).lower ≤ v ∧ v ≤ (d.classAt k).upper)) →
        t.pocket q = { s.pocket q with
          state := .decided, decision := some ⟨none, .fallback, some a.grade⟩, target := some d.rejectChute,
          chute := some d.rejectChute, overflow := false } ∧
        (t.slot i).cnt = { (s.slot i).cnt with
          noClass := satInc 4294967295 (s.slot i).cnt.noClass, fallback := satInc 4294967295 (s.slot i).cnt.fallback })) ∧
    ((s.pocket q).state = .decided ∨ (s.pocket q).state = .held ∨ (s.pocket q).state = .ejected ∨
        (s.pocket q).state = .empty → t = s)

/-! ### Lots -/

/-- LOT.LOAD (R105 to R107): NOT_READY without a track or a valid calibration, BAD_FIELD 1 for a slot other than 0 and 1, BUSY
for a PENDING, ACTIVE or DRAINING slot, then the first field that fails by its ordinal; one whose fields all pass installs the
definition in the slot, READY with no resident and its counters 0, and disturbs nothing else. -/
def Obligations.LotLoadInstalls : Prop :=
  ∀ (tag : Byte) (r : LotLoadReq) (s : State), s.taking →
    (s.track.p = 0 ∨ s.cal.valid = false → exec (.lotLoad tag r) s = .next (s.replied ⟨0x89#8, tag, [0x02#8]⟩)) ∧
    (s.track.p ≠ 0 → s.cal.valid = true →
      (1 < r.slot → exec (.lotLoad tag r) s = .next (s.replied ⟨0x89#8, tag, [0x03#8, 0x01#8]⟩)) ∧
      (∀ i : SlotId, r.slot = i.num →
        ((s.slot i).state = .pending ∨ (s.slot i).state = .active ∨ (s.slot i).state = .draining →
          exec (.lotLoad tag r) s = .next (s.replied ⟨0x89#8, tag, [0x01#8]⟩)) ∧
        ((s.slot i).state = .free ∨ (s.slot i).state = .ready →
          (∀ n, firstFails (lotPasses r s i) n →
            exec (.lotLoad tag r) s = .next (s.replied ⟨0x89#8, tag, 0x03#8 :: le 1 n⟩)) ∧
          ((∀ n, lotPasses r s i n) →
            exec (.lotLoad tag r) s = .next (State.replied ⟨0x89#8, tag, [0x00#8] ++ le 1 i.num ++ [0x01#8]⟩
              (s.modSlot i fun _ =>
                { state := .ready, resident := 0, activation := none,
                  cnt := ⟨List.replicate 16 0, 0, 0, 0, 0, 0, 0, 0, 0, List.replicate 4 0, 0⟩,
                  definition := some
                    { lotNumber := r.lotNumber, label := r.labelChars.take r.labelLen, range := r.range, rnom := r.rnom,
                      tcr := r.tcr, emfLimit := r.emfLimit, retryLimit := r.retryLimit, rejectChute := r.rejectChute,
                      retestChute := r.retestChute, mode := if r.mode = 0 then .preserve else .downgrade,
                      fallback := if r.fallback = 0 then .retest else .classifyLast, referral := r.referral == 1,
                      grades := r.grades.take r.gradeCount, classes := r.classes.take r.classCount } })) ∧
            ∀ t, exec (.lotLoad tag r) s = .next t →
              t.activeSlot = s.activeSlot ∧ t.pendingSlot = s.pendingSlot ∧ t.activeRange = s.activeRange ∧
                t.line = s.line ∧ t.startFailed = s.startFailed ∧ t.loadFit = s.loadFit))))

/-- LOT.ARM and LOT.FREE (R109, R113, R114) by slot state. -/
def Obligations.LotArmAndFree : Prop :=
  ∀ (tag : Byte) (s : State) (i : SlotId), s.taking →
    (∀ n, 1 < n → exec (.lotArm tag n) s = .next (s.replied ⟨0x8A#8, tag, [0x03#8, 0x01#8]⟩) ∧
      exec (.lotFree tag n) s = .next (s.replied ⟨0x8B#8, tag, [0x03#8, 0x01#8]⟩)) ∧
    ((s.slot i).state = .free →
      exec (.lotArm tag i.num) s = .next (s.replied ⟨0x8A#8, tag, [0x02#8]⟩) ∧
      exec (.lotFree tag i.num) s = .next (s.replied ⟨0x8B#8, tag, [0x01#8]⟩)) ∧
    ((s.slot i).state = .pending ∨ (s.slot i).state = .active ∨ (s.slot i).state = .draining →
      exec (.lotArm tag i.num) s = .next (s.replied ⟨0x8A#8, tag, [0x01#8]⟩)) ∧
    ((s.slot i).state = .ready →
      ((s.slot i.other).state = .pending → exec (.lotArm tag i.num) s = .next (s.replied ⟨0x8A#8, tag, [0x01#8]⟩)) ∧
      ((s.slot i.other).state = .active → exec (.lotArm tag i.num) s = .next (State.replied ⟨0x8A#8, tag, [0x00#8, 0x02#8]⟩
        (s.modSlot i fun sl => { sl with state := .pending }))) ∧
      ((s.slot i.other).state ≠ .pending → (s.slot i.other).state ≠ .active →
        exec (.lotArm tag i.num) s = .next (State.replied ⟨0x8A#8, tag, [0x00#8, 0x03#8]⟩
          (s.modSlot i fun sl => { sl with state := .active, activation := some s.cal.working.number })))) ∧
    ((s.slot i).state = .ready ∨ (s.slot i).state = .pending →
      exec (.lotFree tag i.num) s = .next (State.replied ⟨0x8B#8, tag, [0x00#8]⟩ (s.modSlot i fun _ => .freed))) ∧
    ((s.slot i).state = .draining ∨
        ((s.slot i).state = .active ∧ ((s.slot i).resident ≠ 0 ∨ s.line.state = .run ∨ s.line.state = .drain)) →
      exec (.lotFree tag i.num) s = .next (s.replied ⟨0x8B#8, tag, [0x01#8]⟩)) ∧
    (∀ d f, (s.slot i).state = .active → (s.slot i).resident = 0 → s.line.state ≠ .run → s.line.state ≠ .drain →
      (s.slot i).definition = some d → s.report.tx = some f → s.report.lotEnd.length < 2 →
      exec (.lotFree tag i.num) s = .next
        { s.modSlot i (fun _ => .freed) with
          report := { s.report with
            reply := some ⟨0x8B#8, tag, [0x00#8]⟩
            lotEnd := s.report.lotEnd ++ [⟨i, d.lotNumber, d.label, .freed, (s.slot i).activation.getD 0,
              s.cal.working.number, (s.slot i).cnt⟩] } })

/-- The change-over (R111, R113): an ACTIVE slot with residents becomes DRAINING, and one without FREE, its LOT.END summary handed on
as DRAINED; with no ACTIVE slot beside the PENDING one nothing leaves; the PENDING slot becomes ACTIVE with the calibration number in
force, and LOT_CHANGE is raised with the pocket. -/
def Obligations.ChangeOverTaken : Prop :=
  ∀ (s : State) (i : SlotId) (q : Nat), (s.slot i).state = .pending → (s.slot i.other).state ≠ .pending →
    ∀ t, t = s.askSlot q →
    t.slot i = { s.slot i with state := .active, activation := some s.cal.working.number } ∧
    t.activeSlot = some i ∧ t.pendingSlot = none ∧ t.track = s.track ∧ t.line = s.line ∧ t.cal = s.cal ∧
    (s.report.event .lotChange = none → s.report.events.length = 14 →
      t.report.event .lotChange = some ⟨1, .pocket q, s.track.k⟩) ∧
    (∀ e, s.report.event .lotChange = some e →
      t.report.event .lotChange = some { e with count := satInc 65535 e.count }) ∧
    ((s.slot i.other).state = .active → (s.slot i.other).resident ≠ 0 →
      t.slot i.other = { s.slot i.other with state := .draining } ∧ t.report.lotEnd = s.report.lotEnd ∧
      t.lineCnt = s.lineCnt) ∧
    (∀ d, (s.slot i.other).state = .active → (s.slot i.other).resident = 0 → (s.slot i.other).definition = some d →
      t.slot i.other = .freed ∧
      (s.report.lotEnd.length < 2 → t.lineCnt = s.lineCnt ∧ t.report.lotEnd = s.report.lotEnd ++
        [⟨i.other, d.lotNumber, d.label, .drained, (s.slot i.other).activation.getD 0, s.cal.working.number,
          (s.slot i.other).cnt⟩])) ∧
    ((s.slot i.other).state ≠ .active → t.slot i.other = s.slot i.other ∧ t.report.lotEnd = s.report.lotEnd ∧
      t.lineCnt = s.lineCnt)

/-! ### The LINE requests -/

/-- LINE.START (R28, R29, R30, R49): BUSY outside IDLE; NOT_READY with the failed conditions; BAD_FIELD with the ordinal of the
first of its three fields that fails; else the timings are installed and the line is RUN, with READY and the stall timer if
MOTION is low, the motion timer if it is high.
The reply's line fields are the model's reading (log entries 13, 27). -/
def Obligations.LineStartTaken : Prop :=
  ∀ (tag : Byte) (b m t : Nat) (s : State), s.taking →
    (s.line.state ≠ .idle → exec (.lineStart tag b m t) s = .next (s.replied ⟨0x90#8, tag, 0x01#8 :: s.line.fields⟩)) ∧
    (s.line.state = .idle →
      (s.startFailed ≠ 0 → exec (.lineStart tag b m t) s = .next (s.replied ⟨0x90#8, tag,
        0x02#8 :: s.line.fields ++ le 1 s.startFailed⟩)) ∧
      (s.startFailed = 0 ↔ s.track.p ≠ 0 ∧ (∃ e ∈ s.chutes, e.cfg ≠ none) ∧
        (s.slot0.state = .active ∨ s.slot1.state = .active ∨ s.slot0.state = .pending ∨ s.slot1.state = .pending) ∧
        s.cal.valid = true ∧ (s.chanA.service = .inService ∨ s.chanB.service = .inService)) ∧
      (∀ n, s.startFailed = 0 → firstFails (startPasses b m t) n →
        exec (.lineStart tag b m t) s = .next (s.replied ⟨0x90#8, tag, [0x03#8] ++ le 1 n ++ s.line.fields⟩)) ∧
      (s.startFailed = 0 → (∀ n, startPasses b m t n) →
        ∃ l tr, exec (.lineStart tag b m t) s = .next
            (State.replied ⟨0x90#8, tag, 0x00#8 :: l.fields⟩ { s with line := l, track := tr }) ∧
          tr = { s.track with loadPermit := tr.loadPermit } ∧ l.state = .run ∧ l.budgetMs = b ∧ l.motionLimitMs = m ∧
          l.stallLimitMs = t ∧ l.budget = s.line.budget ∧ l.fault = s.line.fault ∧
          (s.pins.motion = true → l.phase = .moving ∧ l.motionTimer = some (1000 * m) ∧ l.ready = s.line.ready ∧
            l.loadOk = s.line.loadOk ∧ tr = s.track) ∧
          (s.pins.motion = false → l.phase = .waiting ∧ l.motionTimer = s.line.motionTimer ∧ l.ready = true ∧
            l.stallTimer = (if t = 0 then none else some (1000 * t)) ∧
            ((s.pocket (s.track.pocketAt 0)).state = .empty → l.loadOk = true ∧ tr.loadPermit = true) ∧
            ((s.pocket (s.track.pocketAt 0)).state ≠ .empty → l.loadOk = s.line.loadOk ∧ tr = s.track))))

/-- LINE.STOP (R39, R40, R41, R49) by line state and phase.
The reply's line fields are the model's reading (log entries 13, 27). -/
def Obligations.LineStopTaken : Prop :=
  ∀ (tag : Byte) (s : State), s.taking →
    (s.line.state = .idle ∨ s.line.state = .faulted →
      exec (.lineStop tag) s = .next (s.replied ⟨0x91#8, tag, 0x01#8 :: s.line.fields⟩)) ∧
    (s.line.state = .stopping ∨ s.line.state = .stopped →
      exec (.lineStop tag) s = .next (s.replied ⟨0x91#8, tag, 0x00#8 :: s.line.fields⟩)) ∧
    (s.line.state = .run ∨ s.line.state = .drain →
      (s.line.phase = .waiting → ∀ l, l = { s.line with
          state := .stopped, phase := if s.pins.motion then .moving else .waiting, ready := false, loadOk := false,
          budget := none, stallTimer := none } →
        exec (.lineStop tag) s = .next (State.replied ⟨0x91#8, tag, 0x00#8 :: l.fields⟩ { s with line := l })) ∧
      (s.line.phase ≠ .waiting → ∀ l, l = { s.line with
          state := .stopping, ready := false, loadOk := false, stallTimer := none } →
        exec (.lineStop tag) s = .next (State.replied ⟨0x91#8, tag, 0x00#8 :: l.fields⟩ { s with line := l })))

/-- LINE.DRAIN and LINE.RESUME (R30, R42, R43, R49): refused by line state, and NOT_READY with the channel condition when
both channels are SUSPECT; a RUN line drains; a STOPPED line with MOTION low and no HELD pocket runs or drains with READY. On entry
from STOPPED each HELD pocket is retried with its target (R144); one that stays HELD makes the line STOPPED again, or with MOTION
high STOPPING (R40); with MOTION high the motion timer runs and the phase is MOVING (R30).
The reply's line fields are the model's reading (log entries 13, 27). -/
def Obligations.DrainAndResumeTaken : Prop :=
  ∀ (tag : Byte) (s : State), s.taking →
    (s.line.state ≠ .stopped → exec (.lineResume tag) s = .next (s.replied ⟨0x93#8, tag, 0x01#8 :: s.line.fields⟩)) ∧
    (s.line.state = .idle ∨ s.line.state = .stopping ∨ s.line.state = .faulted →
      exec (.lineDrain tag) s = .next (s.replied ⟨0x92#8, tag, 0x01#8 :: s.line.fields⟩)) ∧
    (s.line.state = .drain → exec (.lineDrain tag) s = .next (s.replied ⟨0x92#8, tag, 0x00#8 :: s.line.fields⟩)) ∧
    (s.line.state = .run → ∀ l, l = { s.line with state := .drain, loadOk := false } →
      exec (.lineDrain tag) s = .next (State.replied ⟨0x92#8, tag, 0x00#8 :: l.fields⟩ { s with line := l })) ∧
    (s.line.state = .stopped → s.chanA.service = .suspect → s.chanB.service = .suspect →
      exec (.lineResume tag) s = .next (s.replied ⟨0x93#8, tag, 0x02#8 :: s.line.fields ++ [0x10#8]⟩) ∧
      exec (.lineDrain tag) s = .next (s.replied ⟨0x92#8, tag, 0x02#8 :: s.line.fields ++ [0x10#8]⟩)) ∧
    (s.line.state = .stopped → (s.chanA.service ≠ .suspect ∨ s.chanB.service ≠ .suspect) → s.pins.motion = false →
      (∀ p ∈ s.track.pockets, p.state ≠ .held) →
      (∀ l, l = { s.line with
          state := .drain, phase := .waiting, ready := true,
          stallTimer := if s.line.stallLimitMs = 0 then none else some (1000 * s.line.stallLimitMs) } →
        exec (.lineDrain tag) s = .next (State.replied ⟨0x92#8, tag, 0x00#8 :: l.fields⟩ { s with line := l })) ∧
      (∃ l tr, exec (.lineResume tag) s = .next
          (State.replied ⟨0x93#8, tag, 0x00#8 :: l.fields⟩ { s with line := l, track := tr }) ∧
        l.state = .run ∧ l.phase = .waiting ∧ l.ready = true ∧
        tr = { s.track with loadPermit := tr.loadPermit } ∧
        ((s.pocket (s.track.pocketAt 0)).state = .empty → (s.activeSlot ≠ none ∨ s.pendingSlot ≠ none) →
          l.loadOk = true ∧ tr.loadPermit = true))) ∧
    (s.line.state = .stopped → (s.chanA.service ≠ .suspect ∨ s.chanB.service ≠ .suspect) →
      (s.report.tx ≠ none ∨ ∀ p ∈ s.track.pockets, p.state ≠ .held) →
      ∀ (c : Instr) (typ : Byte) (target : LineState) (r : State), (c = .lineResume tag ∧ typ = 0x93#8 ∧ target = .run ∨
          c = .lineDrain tag ∧ typ = 0x92#8 ∧ target = .drain) →
        r = State.retried { s with line := { s.line with
          state := target, phase := if s.pins.motion then .moving else .waiting
          motionTimer := if s.pins.motion then some (1000 * s.line.motionLimitMs) else s.line.motionTimer } } →
        ((∀ q d, (q, d) ∈ s.heldTargets → (r.pocket q).state ≠ .held) → r.line.state = target) ∧
        (∀ q d, (q, d) ∈ s.heldTargets → (r.pocket q).state = .held →
          r.line.state = (if s.pins.motion then .stopping else .stopped) ∧ r.line.ready = false ∧ r.line.loadOk = false ∧
          r.line.motionTimer = (if s.pins.motion then some (1000 * s.line.motionLimitMs) else s.line.motionTimer)) ∧
        (s.pins.motion = true ∨ r.line.state = .stopped →
          exec c s = .next (State.replied ⟨typ, tag, 0x00#8 :: r.line.fields⟩ r)) ∧
        (s.pins.motion = false → r.line.state = target → ∃ fit l,
          (fit = true ↔ target = .run ∧ (r.pocket (r.track.pocketAt 0)).state = .empty ∧
            (s.activeSlot ≠ none ∨ s.pendingSlot ≠ none)) ∧
          l = { r.line with
            ready := true, loadOk := r.line.loadOk || fit
            stallTimer := if s.line.stallLimitMs = 0 then none else some (1000 * s.line.stallLimitMs) } ∧
          exec c s = .next (State.replied ⟨typ, tag, 0x00#8 :: l.fields⟩
            { r with line := l, track := { r.track with loadPermit := r.track.loadPermit || fit } })))

/-- R47: LINE.CLEAR by line state.
The reply's line fields are the model's reading (log entries 13, 27). -/
def Obligations.LineClearTaken : Prop :=
  ∀ (tag : Byte) (s : State), s.taking →
    (s.line.state = .faulted → ∀ l, l = { s.line with
        state := .stopped, fault := false, firstFault := none, laterFaults := [] } →
      exec (.lineClear tag) s = .next (State.replied ⟨0x94#8, tag, 0x00#8 :: l.fields⟩ { s with line := l })) ∧
    (s.line.state = .stopped → (∀ p ∈ s.track.pockets, p.state = .empty) → ∀ l, l = { s.line with state := .idle } →
      exec (.lineClear tag) s = .next (State.replied ⟨0x94#8, tag, 0x00#8 :: l.fields⟩
        { s with line := l, track := { s.track with loadPermit := false } })) ∧
    (s.line.state = .stopped → (∃ p ∈ s.track.pockets, p.state ≠ .empty) →
      exec (.lineClear tag) s = .next (s.replied ⟨0x94#8, tag, 0x01#8 :: s.line.fields⟩)) ∧
    (s.line.state = .idle ∨ s.line.state = .run ∨ s.line.state = .drain ∨ s.line.state = .stopping →
      exec (.lineClear tag) s = .next (s.replied ⟨0x94#8, tag, 0x01#8 :: s.line.fields⟩))

/-- LINE.RESET (R26, R29, R48, R49, R72, R117, R154, R161, R162, R187, R189): what every block holds after it, from every
line state; the reply carries the number of records discarded.
The reply's line fields are the model's reading (log entries 13, 27). -/
def Obligations.LineResetTaken : Prop :=
  ∀ (tag : Byte) (s : State), s.taking → ∀ l, l = { s.line with
      state := .idle, phase := if s.pins.motion then .moving else .waiting, ready := false, loadOk := false,
      fault := false, budget := none, motionTimer := none, stallTimer := none, firstFault := none, laterFaults := [] } →
    ∃ t, exec (.lineReset tag) s = .next t ∧ t.line = l ∧
      t.answered ⟨0x95#8, tag, 0x00#8 :: l.fields ++ le 1 (s.track.pockets.countP fun p => p.state != .empty)⟩ ∧
      t.track = { s.track with
        k := 0, phi := 0, nextSerial := 1, loadPermit := false,
        pockets := List.replicate s.track.pockets.length .emptied } ∧
      t.sched = ⟨[], none, none⟩ ∧ t.slot0 = .freed ∧ t.slot1 = .freed ∧
      t.chanA = { s.chanA with
        job := none, jobState := .idle, relay := .open, relayTimer := none, srcRun := 0, cnt := .zero } ∧
      t.chanB = { s.chanB with
        job := none, jobState := .idle, relay := .open, relayTimer := none, srcRun := 0, cnt := .zero } ∧
      t.chutes = s.chutes.map (fun e => { e with
        fill := 0, inFlight := 0, oldBox := 0, jet := none, ejected := 0, misses := 0 }) ∧
      t.cal = { s.cal with
        trimsA := List.replicate 6 none, trimsB := List.replicate 6 none, flagA := false, flagB := false } ∧
      t.lineCnt = .zero ∧ t.linkCnt = ⟨0, 0, 0⟩ ∧ t.temp = s.temp ∧ t.shared = s.shared ∧ t.link = s.link ∧
      t.pins = s.pins ∧ t.report.mask = s.report.mask ∧ t.report.events = s.report.events ∧
      t.report.part = s.report.part ∧ t.report.lotEnd = s.report.lotEnd ∧ t.report.dropped = s.report.dropped ∧
      t.report.refer = s.report.refer.map fun r => { r with live := false }

/-! ### The line's timers and faults -/

/-- DWELL_BUDGET_EXPIRY, MOTION_TIMER_EXPIRY, STALL_TIMER_EXPIRY (R36, R37, R38, R45, R86): a stopped timer has no expiry;
the budget's expiry empties the set and cuts the jobs but no jet; the motion timer's takes fault entry from a line under way;
the stall timer's raises TURRET_IDLE and is counted, the line as it was. STALENESS_EXPIRY (R89, R175): while the timer runs and
the line is RUN, DRAIN or STOPPING, a CURRENT record becomes HELD with its value, a NEVER SET record stays, the timer stops and
TEMP_STALE is raised. Each event pends, or is sent by an IDLE transmitter (R179, R184).
That an expiry takes effect whatever time is left is the model's choice (log entry 3). -/
def Obligations.TimersExpire : Prop :=
  (∀ s : State, TransmitInv s →
    (s.line.budget = none → exec .dwellBudgetExpiry s = .next s) ∧
    (s.line.budget ≠ none → ∃ t, exec .dwellBudgetExpiry s = .next t ∧ t.line.budget = none ∧ t.sched.requests = [] ∧
      t.chanA.job = none ∧ t.chanB.job = none ∧ t.chutes = s.chutes ∧ t.lineCnt = s.lineCnt ∧ t.cal = s.cal ∧
      t.slot0 = s.slot0 ∧ t.slot1 = s.slot1 ∧
      (s.line.phase = .working → s.line.state.worked = true → (∀ e ∈ s.chutes, e.jet = none) →
        t.line.phase = .waiting ∧ t.line.ready = true) ∧
      (s.line.phase = .working → (∃ e ∈ s.chutes, e.jet ≠ none) → t.line = { s.line with budget := none })) ∧
    (s.line.motionTimer = none → exec .motionTimerExpiry s = .next s) ∧
    (s.line.motionTimer ≠ none → s.line.state.underWay = true → ∃ t, exec .motionTimerExpiry s = .next t ∧
      t.line.state = .faulted ∧ t.line.fault = true ∧ t.line.ready = false ∧ t.line.loadOk = false ∧
      t.line.motionTimer = none ∧ t.line.firstFault = some (.motionFault, .none) ∧ s.sends t .motionFault .none) ∧
    (s.line.stallTimer = none → exec .stallTimerExpiry s = .next s) ∧
    (s.line.stallTimer ≠ none → ∃ t, exec .stallTimerExpiry s = .next t ∧ t.line = { s.line with stallTimer := none } ∧
      t.lineCnt = { s.lineCnt with turretIdles := satInc 4294967295 s.lineCnt.turretIdles } ∧
      s.sends t .turretIdle .none ∧ t.track = s.track ∧
      t.chanA = s.chanA ∧ t.chanB = s.chanB ∧ t.chutes = s.chutes)) ∧
  (∀ s : State, TransmitInv s →
    (s.temp.running = false → exec .stalenessExpiry s = .next s) ∧
    (s.temp.running = true → s.line.state.underWay = true → ∃ t, exec .stalenessExpiry s = .next t ∧
      t.temp.running = false ∧ t.temp.left = 0 ∧
      (∀ v, s.temp.record = .current v → t.temp.record = .held v) ∧
      (s.temp.record = .neverSet → t.temp.record = .neverSet) ∧ t.line = s.line ∧ t.track = s.track ∧
      s.sends t .tempStale .none))

/-- Fault entry and later faults (R45, R46). -/
def Obligations.FaultsTaken : Prop :=
  ∀ (k : FaultKind) (d : Detail) (s t : State), t = s.raiseFault k d →
    (s.line.state = .run ∨ s.line.state = .drain ∨ s.line.state = .stopping ∨ s.line.state = .stopped →
      t.line = { s.line with
        state := .faulted, ready := false, loadOk := false, fault := true, budget := none, motionTimer := none,
        stallTimer := none, phase := if s.pins.motion then .moving else .waiting, firstFault := some (k, d),
        laterFaults := [] } ∧
      t.chanA.job = none ∧ t.chanB.job = none ∧ t.sched.requests = [] ∧ (∀ e ∈ t.chutes, e.jet = none) ∧
      t.lineCnt = { s.lineCnt with
        jetCuts := min 4294967295 (s.lineCnt.jetCuts + s.chutes.countP fun e => e.jet.isSome) }) ∧
    (s.line.state = .faulted → t.line.state = .faulted ∧ t.line.firstFault = s.line.firstFault ∧
      (∀ x, x ∈ t.line.laterFaults ↔ x = k ∨ x ∈ s.line.laterFaults) ∧ t.chanA = s.chanA ∧ t.chanB = s.chanB ∧
      t.sched = s.sched ∧ t.chutes = s.chutes ∧ t.lineCnt = s.lineCnt) ∧
    (s.line.state = .idle → t.line = s.line ∧ t.chanA = s.chanA ∧ t.chanB = s.chanB ∧ t.sched = s.sched ∧
      t.chutes = s.chutes ∧ t.lineCnt = s.lineCnt) ∧
    t.report = { s.report with
      events := s.report.events.modify (k.event.priority - 1) (raisedEntry d s.track.k) }

/-! ### Track and chutes -/

/-- TRACK.SET (R2, R3, R4): BUSY unless the line is IDLE, the track empty and both slots FREE; the first of its fields that
fails by its ordinal, 1 to 10; else the geometry is installed, the pockets EMPTY, φ = k mod P, every chute UNUSED with its
counters kept. -/
def Obligations.TrackSetTaken : Prop :=
  ∀ (tag : Byte) (r : TrackSetReq) (s : State), s.taking →
    (¬(s.line.state = .idle ∧ (∀ p ∈ s.track.pockets, p.state = .empty) ∧ s.slot0.state = .free ∧ s.slot1.state = .free) →
      exec (.trackSet tag r) s = .next (s.replied ⟨0x82#8, tag, [0x01#8]⟩)) ∧
    (s.line.state = .idle → (∀ p ∈ s.track.pockets, p.state = .empty) → s.slot0.state = .free → s.slot1.state = .free →
      (∀ n, firstFails (trackPasses r) n →
        exec (.trackSet tag r) s = .next (s.replied ⟨0x82#8, tag, 0x03#8 :: le 1 n⟩)) ∧
      ((∀ n, trackPasses r n) →
        exec (.trackSet tag r) s = .next (State.replied ⟨0x82#8, tag, [0x00#8]⟩
          { s with
            track :=
              { p := r.p, stations := r.stations, decidePos := r.decidePos, checkPos := r.checkPos, k := s.track.k,
                phi := s.track.k % r.p, pockets := List.replicate r.p .emptied, nextSerial := s.track.nextSerial,
                loadPermit := false }
            chutes := s.chutes.map fun e =>
              { cfg := none, fill := 0, inFlight := 0, oldBox := 0, jet := none, ejected := e.ejected,
                misses := e.misses } })))

/-- CHUTE.SET (R136 to R140): NOT_READY with P 0, BUSY outside IDLE and STOPPED, the first field that fails by its ordinal.
CONFIGURE: BUSY where the capacity would be less than the places taken, or the eject position moves with places in flight; else
the entry takes the configuration, a chute not configured its counts 0, a configured one keeping them, and its new state may
raise CHUTE_NEAR or CHUTE_FULL. REMOVE: of an unconfigured chute nothing changes; BUSY while a lot, another chute's alternate or an
occupied pocket names it, or it has places in flight or an old-box count; else it becomes UNUSED, its counters kept.
How an alternate of 0 and the entry's fields are coded in the reply is the model's reading (log entries 12, 32). -/
def Obligations.ChuteSetTaken : Prop :=
  ∀ (tag : Byte) (c : Nat) (f : ChuteFields) (s : State), s.taking →
    (s.track.p = 0 → exec (.chuteConfigure tag c f) s = .next (s.replied ⟨0x84#8, tag, [0x02#8]⟩) ∧
      exec (.chuteRemove tag c) s = .next (s.replied ⟨0x84#8, tag, [0x02#8]⟩)) ∧
    (s.track.p ≠ 0 → s.line.state ≠ .idle → s.line.state ≠ .stopped →
      exec (.chuteConfigure tag c f) s = .next (s.replied ⟨0x84#8, tag, [0x01#8]⟩) ∧
      exec (.chuteRemove tag c) s = .next (s.replied ⟨0x84#8, tag, [0x01#8]⟩)) ∧
    (s.track.p ≠ 0 → (s.line.state = .idle ∨ s.line.state = .stopped) →
      (c = 0 ∨ 20 < c → exec (.chuteRemove tag c) s = .next (s.replied ⟨0x84#8, tag, [0x03#8, 0x01#8]⟩)) ∧
      (∀ n, firstFails (chutePasses f s c) n →
        exec (.chuteConfigure tag c f) s = .next (s.replied ⟨0x84#8, tag, 0x03#8 :: le 1 n⟩)) ∧
      (s.chutes.length = 20 → (∀ n, chutePasses f s c n) → ∀ old e, old = s.chute c →
        e = { old with
          cfg := some ⟨f.ejectPos, f.capacity, f.near, if f.alternate = 0 then none else some f.alternate, f.pulse⟩
          fill := if old.cfg = none then 0 else old.fill, inFlight := if old.cfg = none then 0 else old.inFlight
          oldBox := if old.cfg = none then 0 else old.oldBox, jet := if old.cfg = none then none else old.jet } →
        (∀ g, old.cfg = some g → f.capacity < old.fill + old.inFlight + old.oldBox ∨
            (f.ejectPos ≠ g.ejectPos ∧ 0 < old.inFlight) →
          exec (.chuteConfigure tag c f) s = .next (s.replied ⟨0x84#8, tag, 0x01#8 :: old.fields⟩)) ∧
        ((∀ g, old.cfg = some g → old.fill + old.inFlight + old.oldBox ≤ f.capacity ∧
            (f.ejectPos = g.ejectPos ∨ old.inFlight = 0)) →
          ∃ t, exec (.chuteConfigure tag c f) s = .next t ∧ t.chutes = s.chutes.set (c - 1) e ∧
            t.answered ⟨0x84#8, tag, 0x00#8 :: e.fields⟩ ∧
            (e.state = .full → old.state ≠ .full → s.notes t .chuteFull (.chute c)) ∧
            (e.state = .near → old.state = .opened ∨ old.state = .unused → s.notes t .chuteNear (.chute c)) ∧
            (e.state = .opened ∨ e.state = old.state ∨ (e.state = .near ∧ old.state = .full) →
              t = State.replied ⟨0x84#8, tag, 0x00#8 :: e.fields⟩ { s with chutes := s.chutes.set (c - 1) e }))) ∧
      (1 ≤ c → c ≤ 20 → s.chutes.length = 20 →
        ((s.chute c).cfg = none →
          exec (.chuteRemove tag c) s = .next (s.replied ⟨0x84#8, tag, 0x00#8 :: (s.chute c).fields⟩)) ∧
        ((s.chute c).cfg ≠ none →
          (s.removalBarred c → exec (.chuteRemove tag c) s = .next (s.replied ⟨0x84#8, tag, 0x01#8 :: (s.chute c).fields⟩)) ∧
          (¬s.removalBarred c → ∀ e, e = ⟨none, 0, 0, 0, none, (s.chute c).ejected, (s.chute c).misses⟩ →
            exec (.chuteRemove tag c) s = .next (State.replied ⟨0x84#8, tag, 0x00#8 :: e.fields⟩
              { s with chutes := s.chutes.set (c - 1) e })))))

/-- The steps of a commit (R137, R141, R142): the target if it can take the pocket, else its alternate with the overflow flag and
counter, in either case raising CHUTE_FULL or CHUTE_NEAR for the chute where its state changes so; else the pocket is held,
CHUTE_BLOCKED is raised with the target, and it makes a RUN or DRAIN line STOPPING or, in WAITING, STOPPED (R40). -/
def Obligations.CommitSteps : Prop :=
  ∀ (s : State) (q c : Nat), q < s.track.pockets.length → s.chutes.length = 20 → ∀ t, t = s.commit q c →
    (∀ x pos, s.canTake x pos = true ↔ ∃ g, (s.chute x).cfg = some g ∧
      (s.chute x).fill + (s.chute x).inFlight + (s.chute x).oldBox ≠ g.capacity ∧
      (pos < g.ejectPos ∨ s.track.checkPos < pos)) ∧
    (s.canTake c (s.track.positionOf q) = true →
      t.pocket q = { s.pocket q with state := .decided, chute := some c, overflow := false } ∧
      t.chute c = { s.chute c with inFlight := (s.chute c).inFlight + 1 } ∧
      (∀ x, x ≠ c → t.chute x = s.chute x) ∧ t.line = s.line ∧ t.slot0 = s.slot0 ∧ t.slot1 = s.slot1 ∧
      s.raisesChute t c) ∧
    (∀ g a i, s.canTake c (s.track.positionOf q) = false → (s.chute c).cfg = some g → g.alternate = some a →
      s.canTake a (s.track.positionOf q) = true → (s.pocket q).slot = some i →
      t.pocket q = { s.pocket q with state := .decided, chute := some a, overflow := true } ∧
      t.chute a = { s.chute a with inFlight := (s.chute a).inFlight + 1 } ∧ (∀ x, x ≠ a → t.chute x = s.chute x) ∧
      t.line = s.line ∧
      (t.slot i).cnt = { (s.slot i).cnt with overflow := satInc 4294967295 (s.slot i).cnt.overflow } ∧
      t.slot i.other = s.slot i.other ∧ s.raisesChute t a) ∧
    (s.canTake c (s.track.positionOf q) = false →
      (∀ g a, (s.chute c).cfg = some g → g.alternate = some a → s.canTake a (s.track.positionOf q) = false) →
      t.pocket q = { s.pocket q with state := .held, chute := none, overflow := false } ∧ t.chutes = s.chutes ∧
      t.report = (s.raise .chuteBlocked (.chute c)).report ∧ t.slot0 = s.slot0 ∧ t.slot1 = s.slot1 ∧
      (s.line.state.worked = false → t.line = s.line) ∧
      (s.line.state.worked = true → t.line.ready = false ∧ t.line.loadOk = false ∧
        t.line.state = (if s.line.phase = .waiting then .stopped else .stopping))) ∧
    (∀ r, r ≠ q → t.pocket r = s.pocket r)

/-- R145: a settle's firing of one chute: a DECIDED pocket at its eject position, committed to it and not fired on this lap,
becomes EJECTED; a place moves from in-flight to fill, the jet pulses, the ejected total advances. Any other pocket there is
passed over. JET_COMPLETION (R34, R41, R146): the jet is OFF; no count, no pocket changes; with no other dwell work left a
WORKING RUN or DRAIN line raises READY and a STOPPING line becomes STOPPED. A jet that is OFF has no completion.
Times in µs and a completion whatever time is left are the model's choices (log entries 3, 28). -/
def Obligations.JetFiresAndCompletes : Prop :=
  (∀ (s : State) (c q : Nat) (g : ChuteCfg), 1 ≤ c → c ≤ s.chutes.length → (s.chute c).cfg = some g →
    q = s.track.pocketAt g.ejectPos → ∀ t, t = s.fireChute c →
    ((s.pocket q).state = .decided → (s.pocket q).chute = some c → (s.pocket q).jetFired = false →
      q < s.track.pockets.length →
      t.pocket q = { s.pocket q with state := .ejected, jetFired := true } ∧
      t.chute c = { s.chute c with
        jet := some (1000 * g.pulseMs), inFlight := (s.chute c).inFlight - 1, fill := (s.chute c).fill + 1,
        ejected := satInc 4294967295 (s.chute c).ejected } ∧
      (∀ r, r ≠ q → t.pocket r = s.pocket r) ∧ (∀ x, x ≠ c → t.chute x = s.chute x)) ∧
    (¬((s.pocket q).state = .decided ∧ (s.pocket q).chute = some c ∧ (s.pocket q).jetFired = false) → t = s)) ∧
  (∀ (c : Nat) (s : State), TransmitInv s →
    ((s.chute c).jet = none → exec (.jetCompletion c) s = .next s) ∧
    ((s.chute c).jet ≠ none → ∃ l, exec (.jetCompletion c) s = .next
        { s with line := l, chutes := s.chutes.modify (c - 1) fun e => { e with jet := none } } ∧
      (s.line.phase ≠ .working ∨ s.chanA.job ≠ none ∨ s.chanB.job ≠ none ∨ s.sched.requests ≠ [] ∨
        (∃ x, x ≠ c ∧ (s.chute x).jet ≠ none) → l = s.line) ∧
      (s.line.phase = .working → s.chanA.job = none → s.chanB.job = none → s.sched.requests = [] →
        (∀ x, x ≠ c → (s.chute x).jet = none) →
        (s.line.state.worked = true → l = { s.line with
          phase := .waiting, budget := none, ready := true,
          stallTimer := if s.line.stallLimitMs = 0 then none else some (1000 * s.line.stallLimitMs) }) ∧
        (s.line.state = .stopping → l = { s.line with
          state := .stopped, phase := if s.pins.motion then .moving else .waiting, ready := false, loadOk := false,
          budget := none, stallTimer := none }))))

/-- BOX.EXCHANGED (R150, R151): with the jet OFF the fill is 0 and the old-box count the EJECTED pockets of the chute; with the jet
IN PULSE the fill is 1 and that count one less; the reply carries what the box removed held.
The two bytes of each count in the reply are the model's reading (log entry 32). -/
def Obligations.BoxExchangeTaken : Prop :=
  ∀ (tag : Byte) (c : Nat) (s : State), s.taking →
    (c = 0 ∨ 20 < c ∨ (s.chute c).cfg = none →
      exec (.boxExchanged tag c) s = .next (s.replied ⟨0x9B#8, tag, [0x03#8, 0x01#8]⟩)) ∧
    (∀ e, 1 ≤ c → c ≤ 20 → s.chutes.length = 20 → (s.chute c).cfg ≠ none → ChuteInv s c →
      e = s.track.pockets.countP (fun p => p.state == .ejected && p.chute == some c) →
      ((s.chute c).jet = none →
        exec (.boxExchanged tag c) s = .next (State.replied
          ⟨0x9B#8, tag, 0x00#8 :: le 1 c ++ le 2 (s.chute c).fill ++ le 2 0 ++ le 2 e⟩
          { s with chutes := s.chutes.set (c - 1) { s.chute c with fill := 0, oldBox := e } })) ∧
      ((s.chute c).jet ≠ none →
        exec (.boxExchanged tag c) s = .next (State.replied
          ⟨0x9B#8, tag, 0x00#8 :: le 1 c ++ le 2 ((s.chute c).fill - 1) ++ le 2 1 ++ le 2 (e - 1)⟩
          { s with chutes := s.chutes.set (c - 1) { s.chute c with fill := 1, oldBox := e - 1 } })))

/-! ### Purges and verdicts -/

/-- POCKET.PURGE (R22, R23, R113, R149, R183): NOT_READY with P 0, BUSY outside STOPPED and FAULTED, BAD_FIELD; a named occupied
pocket of any state finishes PURGED: its PART record is handed on, it becomes EMPTY, and a DRAINING slot left with none retires; a
DECIDED one gives back its place; an EMPTY one is passed over. ALL purges every occupied pocket: the places promised and the
parts travelling leave the chutes' accounts, and the reply carries how many pockets were purged. -/
def Obligations.PurgeTaken : Prop :=
  ∀ (tag : Byte) (q : Nat) (s : State), s.taking →
    (s.track.p = 0 → exec (.pocketPurge tag q) s = .next (s.replied ⟨0x99#8, tag, [0x02#8]⟩)) ∧
    (s.track.p ≠ 0 → s.line.state ≠ .stopped → s.line.state ≠ .faulted →
      exec (.pocketPurge tag q) s = .next (s.replied ⟨0x99#8, tag, [0x01#8]⟩)) ∧
    (s.track.p ≠ 0 → (s.line.state = .stopped ∨ s.line.state = .faulted) →
      (s.track.p ≤ q → q ≠ 255 → exec (.pocketPurge tag q) s = .next (s.replied ⟨0x99#8, tag, [0x03#8, 0x01#8]⟩)) ∧
      (q < s.track.p → q ≠ 255 → (s.pocket q).state = .empty →
        exec (.pocketPurge tag q) s = .next (s.replied ⟨0x99#8, tag, [0x00#8, 0x00#8]⟩)) ∧
      (∀ c i d f, q < s.track.p → q ≠ 255 → ShapeInv s → (s.pocket q).state = .decided → (s.pocket q).chute = some c →
        1 ≤ c → c ≤ 20 → (s.pocket q).slot = some i → (s.slot i).definition = some d → (s.slot i).state = .active →
        s.report.tx = some f → s.report.part.length < 64 →
        ∃ t, exec (.pocketPurge tag q) s = .next t ∧ t.answered ⟨0x99#8, tag, [0x00#8, 0x01#8]⟩ ∧
          t.pocket q = .emptied ∧ (∀ r, r ≠ q → t.pocket r = s.pocket r) ∧
          t.chute c = { s.chute c with inFlight := (s.chute c).inFlight - 1 } ∧
          (∀ x, x ≠ c → t.chute x = s.chute x) ∧
          t.slot i = { s.slot i with resident := (s.slot i).resident - 1 } ∧
          t.lineCnt = { s.lineCnt with purged := satInc 4294967295 s.lineCnt.purged } ∧
          t.report.part.length = s.report.part.length + 1 ∧ t.line = s.line) ∧
      (∀ i d f, q < s.track.p → q ≠ 255 → ShapeInv s → (s.pocket q).state ≠ .empty → (s.pocket q).slot = some i →
        (s.slot i).definition = some d → s.report.tx = some f → s.report.part.length < 64 →
        ∃ t, exec (.pocketPurge tag q) s = .next t ∧ t.answered ⟨0x99#8, tag, [0x00#8, 0x01#8]⟩ ∧
          s.finishes t q i d .purged ∧ t.lineCnt.purged = satInc 4294967295 s.lineCnt.purged ∧ t.line = s.line) ∧
      (∀ f n, ShapeInv s → s.report.tx = some f → s.report.part.length ≤ 64 →
        n = (s.track.pockets.countP fun p => p.state != .empty) →
        ∃ t, exec (.pocketPurge tag 255) s = .next t ∧ t.answered ⟨0x99#8, tag, 0x00#8 :: le 1 n⟩ ∧
          t.track = { s.track with pockets := s.track.pockets.map fun p => if p.state = .empty then p else .emptied } ∧
          t.line = s.line ∧
          t.chanA = s.chanA ∧ t.chanB = s.chanB ∧
          (∀ c, 1 ≤ c → c ≤ 20 → t.chute c = { s.chute c with
            inFlight := (s.chute c).inFlight - s.promised c, oldBox := (s.chute c).oldBox - s.travelling c }) ∧
          (s.lineCnt.purged + n ≤ 4294967295 → t.lineCnt.purged = s.lineCnt.purged + n) ∧
          t.report.part.length = min 64 (s.report.part.length + n)))

/-- VERDICT (R128, R129, R130). A REFERRED pocket that holds the serial takes the decision source VERDICT and the target, its answer
is counted in its slot, and the commit follows: to the target, to its alternate with the overflow flag and count, or the pocket is
HELD, with CHUTE_BLOCKED and its effect on the line (R40, R142). A serial held by an occupied pocket in another state is TOO_LATE, with
pocket, state and decision source, counted late where the pocket was defaulted at DECIDE; one held by none TOO_LATE with none of
these.
The coding of absent values in the TOO_LATE reply is the model's reading (log entry 12). -/
def Obligations.VerdictTaken : Prop :=
  ∀ (tag : Byte) (n choice : Nat) (s : State), s.taking →
    (s.track.p = 0 → exec (.verdict tag n choice) s = .next (s.replied ⟨0x9A#8, tag, [0x02#8]⟩)) ∧
    (s.track.p ≠ 0 →
      (n = 0 → exec (.verdict tag n choice) s = .next (s.replied ⟨0x9A#8, tag, [0x03#8, 0x01#8]⟩)) ∧
      (n ≠ 0 → choice ≠ 128 → choice ≠ 129 → (choice = 0 ∨ 20 < choice ∨ (s.chute choice).cfg = none) →
        exec (.verdict tag n choice) s = .next (s.replied ⟨0x9A#8, tag, [0x03#8, 0x02#8]⟩)) ∧
      (n ≠ 0 → (choice = 128 ∨ choice = 129 ∨ (1 ≤ choice ∧ choice ≤ 20 ∧ (s.chute choice).cfg ≠ none)) →
        ((∀ p ∈ s.track.pockets, p.state ≠ .empty → p.serial ≠ some n) →
          exec (.verdict tag n choice) s = .next (s.replied ⟨0x9A#8, tag,
            [0x05#8, 0x00#8, 0x00#8, 0x00#8, 0x00#8, 0x00#8, 0x00#8]⟩)) ∧
        (∀ q i d x c, SerialInv s → q < s.track.pockets.length → (s.pocket q).state = .referred →
          (s.pocket q).serial = some n → (s.pocket q).slot = some i → (s.slot i).definition = some d →
          (s.pocket q).decision = some x →
          c = (if choice = 128 then d.rejectChute else if choice = 129 then d.retestChute else choice) →
          s.canTake c (s.track.positionOf q) = true →
          ∃ t, exec (.verdict tag n choice) s = .next t ∧
            t.answered ⟨0x9A#8, tag, 0x00#8 :: le 1 q ++ [0x04#8, 0x01#8] ++ le 1 c⟩ ∧
            t.pocket q = { s.pocket q with
              state := .decided, decision := some { x with source := .verdict }, target := some c, chute := some c,
              overflow := false } ∧
            (∀ r, r ≠ q → t.pocket r = s.pocket r) ∧
            (t.slot i).cnt = { (s.slot i).cnt with refAnswered := satInc 4294967295 (s.slot i).cnt.refAnswered } ∧
            t.line = s.line) ∧
        (∀ q i d x c, SerialInv s → s.chutes.length = 20 → q < s.track.pockets.length → (s.pocket q).state = .referred →
          (s.pocket q).serial = some n → (s.pocket q).slot = some i → (s.slot i).definition = some d →
          (s.pocket q).decision = some x →
          c = (if choice = 128 then d.rejectChute else if choice = 129 then d.retestChute else choice) →
          s.canTake c (s.track.positionOf q) = false →
          ∃ t, exec (.verdict tag n choice) s = .next t ∧ (∀ r, r ≠ q → t.pocket r = s.pocket r) ∧
            (∀ g a, (s.chute c).cfg = some g → g.alternate = some a → s.canTake a (s.track.positionOf q) = true →
              t.answered ⟨0x9A#8, tag, 0x00#8 :: le 1 q ++ [0x04#8, 0x01#8] ++ le 1 a⟩ ∧
              t.pocket q = { s.pocket q with
                state := .decided, decision := some { x with source := .verdict }, target := some c, chute := some a,
                overflow := true } ∧
              (t.slot i).cnt = { (s.slot i).cnt with
                refAnswered := satInc 4294967295 (s.slot i).cnt.refAnswered
                overflow := satInc 4294967295 (s.slot i).cnt.overflow } ∧
              t.line = s.line) ∧
            ((∀ g a, (s.chute c).cfg = some g → g.alternate = some a → s.canTake a (s.track.positionOf q) = false) →
              t.answered ⟨0x9A#8, tag, 0x00#8 :: le 1 q ++ [0x05#8, 0x00#8, 0x00#8]⟩ ∧
              t.pocket q = { s.pocket q with
                state := .held, decision := some { x with source := .verdict }, target := some c, chute := none,
                overflow := false } ∧
              (t.slot i).cnt = { (s.slot i).cnt with refAnswered := satInc 4294967295 (s.slot i).cnt.refAnswered } ∧
              t.chutes = s.chutes ∧ s.notes t .chuteBlocked (.chute c) ∧
              (s.line.state.worked = false → t.line = s.line) ∧
              (s.line.state.worked = true → t.line.ready = false ∧ t.line.loadOk = false ∧
                t.line.state = (if s.line.phase = .waiting then .stopped else .stopping)))) ∧
        (∀ q f, SerialInv s → q < s.track.pockets.length → (s.pocket q).state ≠ .empty → (s.pocket q).state ≠ .referred →
          (s.pocket q).serial = some n →
          f = ⟨0x9A#8, tag, [0x05#8, 0x01#8] ++ le 1 q ++ [0x01#8] ++ le 1 (pocketStateByte (s.pocket q).state) ++
            match (s.pocket q).decision with
            | none => [0x00#8, 0x00#8]
            | some x => 0x01#8 :: le 1 (sourceByte x.source)⟩ →
          (∀ x i, (s.pocket q).decision = some x → x.source = .referDefault → (s.pocket q).slot = some i →
            exec (.verdict tag n choice) s = .next (State.replied f (s.modSlot i fun sl =>
              { sl with cnt := { sl.cnt with refLate := satInc 4294967295 sl.cnt.refLate } }))) ∧
          ((∀ x, (s.pocket q).decision = some x → x.source ≠ .referDefault) →
            exec (.verdict tag n choice) s = .next (s.replied f)))))

/-! ### Calibration and temperature -/

/-- CAL.WRITE (R157, R158): LOCKED without CALEN, BUSY outside IDLE, BAD_FIELD with the ordinal, 1 to 12, of the first of its
values that fails; accepted, it erases the stored check code and stays in progress with no reply. CAL_WRITE_COMPLETION (R158,
R161): both copies take the new values and the next number, the flag is valid, every trim is absent, the periodic flags stand,
and the reply carries the number; the copy then stored is one that power-on finds valid when its values are in range. Without a
write in flight there is no completion.
That CALEN is an operand of CAL_WRITE, its line kept as last sampled, that the completion may come at any time, that the erased
check code is none, and that the write's limit is held in µs are the model's choices (log entries 14, 19, 24, 28). -/
def Obligations.CalWriteTakenAndCompleted : Prop :=
  (∀ (tag : Byte) (pairs : List CalPair) (s : State), s.taking → pairs.length = 6 →
    exec (.calWrite tag pairs false) s = .next (State.replied ⟨0xA1#8, tag, [0x04#8]⟩
      { s with pins := { s.pins with calen := false } }) ∧
    (s.line.state ≠ .idle → exec (.calWrite tag pairs true) s = .next (State.replied ⟨0xA1#8, tag, [0x01#8]⟩
      { s with pins := { s.pins with calen := true } })) ∧
    (s.line.state = .idle →
      (∀ n, firstFails (pairsPass pairs) n →
        exec (.calWrite tag pairs true) s = .next (State.replied ⟨0xA1#8, tag, 0x03#8 :: le 1 n⟩
          { s with pins := { s.pins with calen := true } })) ∧
      ((∀ p ∈ pairs, (5000 ≤ p.rref ∧ p.rref ≤ 2000000000) ∧ (50000000 ≤ p.c ∧ p.c ≤ 2000000000)) →
        exec (.calWrite tag pairs true) s = .next
          { s with
            pins := { s.pins with calen := true }
            cal := { s.cal with stored := { s.cal.stored with check := none } }
            link := { s.link with inProgress := some ⟨tag, pairs, 200000⟩ } }))) ∧
  (∀ s : State, TransmitInv s →
    (s.link.inProgress = none → exec .calWriteCompletion s = .next s) ∧
    (∀ w n, s.link.inProgress = some w → s.report.reply = none → n = (s.cal.working.number + 1) % 65536 →
      ∃ code, exec .calWriteCompletion s = .next (State.replied ⟨0xA1#8, w.tag, 0x00#8 :: le 2 n⟩
        { s with
          cal := ⟨⟨⟨w.pairs, n⟩, some code⟩, ⟨w.pairs, n⟩, true, List.replicate 6 none, List.replicate 6 none,
            s.cal.flagA, s.cal.flagB⟩
          link := { s.link with inProgress := none } }) ∧
      ((∀ p ∈ w.pairs, (5000 ≤ p.rref ∧ p.rref ≤ 2000000000) ∧ (50000000 ≤ p.c ∧ p.c ≤ 2000000000)) →
        StoredCal.judged ⟨⟨w.pairs, n⟩, some code⟩ = true)))

/-- The judgement of a completed check (R102, R164): within the drift limit the trim of its channel and range is set with
the present k and the periodic flag cleared; beyond it the channel enters SUSPECT, trim and flag standing. -/
def Obligations.ChecksJudged : Prop :=
  ∀ (ch : Chan) (r : Nat) (v : Int) (s t : State), 1 ≤ r → r ≤ 6 → (s.cal.trims ch).length = 6 →
    (s.chan ch).job = none → t = s.completeCheck ch r (some v) →
    (t.chan ch).cnt.checks = satInc 4294967295 (s.chan ch).cnt.checks ∧ (t.chan ch).srcRun = 0 ∧
    (v.natAbs ≤ s.shared.driftLimit →
      t.cal.trim ch r = some ⟨v, s.track.k⟩ ∧ t.cal.flag ch = false ∧ (t.chan ch).service = (s.chan ch).service ∧
      (t.chan ch).cnt.trims = satInc 4294967295 (s.chan ch).cnt.trims ∧
      (∀ r', r' ≠ r → t.cal.trim ch r' = s.cal.trim ch r') ∧ t.cal.trims (chanOther ch) = s.cal.trims (chanOther ch)) ∧
    (s.shared.driftLimit < v.natAbs → t.cal = s.cal ∧ (t.chan ch).service = .suspect ∧ (t.chan ch).watchdog = none ∧
      ((s.chan (chanOther ch)).service = .suspect → s.line.state.underWay = true →
        t.line.state = .faulted ∧ t.line.firstFault = some (.noChannel, .none)))

/-- R174: TEMP.SET.
The clamped flag as 01H or 00H and the timer in µs are the model's choices (log entries 11, 28). -/
def Obligations.TempSetTaken : Prop :=
  ∀ (tag : Byte) (v : Int) (s : State), s.taking → ∀ w : Int,
    w = (if v < -4000 then -4000 else if 12500 < v then 12500 else v) →
    exec (.tempSet tag v) s = .next (State.replied
      ⟨0x9C#8, tag, 0x00#8 :: leSigned 2 w ++ [if v < -4000 ∨ 12500 < v then 0x01#8 else 0x00#8]⟩
      { s with temp := ⟨.current w, true, 30000000⟩ })

/-! ### Link Port -/

/-- A frame's bytes, sent whole to a receiver in HUNTING, give that frame to the receive buffer, or overflow it while four
wait; the receiver is again HUNTING (R166 to R170).
That the command carries the received bytes is the model's choice (log entry 15). -/
def Obligations.FrameBytesReceived : Prop :=
  ∀ (f : Frame) (s : State), TransmitInv s → f.payload.length ≤ 500 → s.link.receiver = .hunting none →
    (s.link.buffer.length < 4 →
      exec (.linkFrameReceived (f.bytes.map fun b => ⟨b, true⟩)) s = .next
        { s with link := { s.link with buffer := s.link.buffer ++ [f] } }) ∧
    (4 ≤ s.link.buffer.length →
      exec (.linkFrameReceived (f.bytes.map fun b => ⟨b, true⟩)) s = .next
        { s with linkCnt := { s.linkCnt with overflows := satInc 4294967295 s.linkCnt.overflows } })

/-- Every well-formed request is read back from the frame that carries it (R171, R177); REQUEST_TAKEN of that frame, alone in
the buffer, does what the request's own row does; and a request row that cannot be taken at once puts its frame in the receive
buffer, or is discarded and counted while four wait (R170; that a row is taken at once or joins the buffer is log entry 1; that
REQUEST_TAKEN carries CALEN and sets the input line is log entry 14). -/
def Obligations.RequestsReadBack : Prop :=
  (∀ (tag : Byte) (r : Request), r.wf = true →
    (r.frame tag).parse = .request r ∧ (r.frame tag).payload.length ≤ 500 ∧ (r.frame tag).tag = tag) ∧
  (∀ (c : Instr) (tag : Byte) (r : Request) (calen : Bool) (s : State), c.request = some (tag, r) → r.wf = true →
    (∀ ps b, c = .calWrite tag ps b → b = calen) → s.link.inProgress = none → s.report.reply = none →
    s.link.buffer = [r.frame tag] →
    exec (.requestTaken calen) s =
      exec c { s with pins := { s.pins with calen := calen }, link := { s.link with buffer := [] } } ∧
    ∃ t, exec (.requestTaken calen) s = .next t ∧ t.link.buffer = [] ∧ t.pins = { s.pins with calen := calen }) ∧
  (∀ (c : Instr) (tag : Byte) (r : Request) (s : State), c.request = some (tag, r) → TransmitInv s →
    (s.link.inProgress ≠ none ∨ s.report.reply ≠ none ∨ s.link.buffer ≠ []) →
    (s.link.buffer.length < 4 →
      exec c s = .next { s with link := { s.link with buffer := s.link.buffer ++ [r.frame tag] } }) ∧
    (4 ≤ s.link.buffer.length →
      exec c s = .next { s with linkCnt := { s.linkCnt with overflows := satInc 4294967295 s.linkCnt.overflows } }))

/-- REQUEST_TAKEN (R170, R171, R172): nothing is taken while a request is in progress, the reply slot is full or no frame
waits; a frame of a reply or report type is discarded and counted; a type that names no request is answered UNKNOWN_TYPE and
counted, and a payload length that does not suit the type BAD_LENGTH, for every type; an IDENT is answered with its fields, and a
LINE.STOP in FAULTED BUSY with the line fields.
CALEN as an operand, the flag's coding, the line fields of the BUSY reply and no line fields in a BAD_LENGTH reply are the
model's readings (log entries 11, 13, 14, 29). -/
def Obligations.RequestTakenJudged : Prop :=
  ∀ (calen : Bool) (s : State), TransmitInv s →
    (s.link.inProgress ≠ none ∨ s.report.reply ≠ none ∨ s.link.buffer = [] → exec (.requestTaken calen) s = .next s) ∧
    (∀ f rest u, s.link.inProgress = none → s.report.reply = none → s.link.buffer = f :: rest →
      u = { s with pins := { s.pins with calen := calen }, link := { s.link with buffer := rest } } →
      ((0x71 ≤ f.typ.toNat ∧ f.typ.toNat ≤ 0x74) ∨ 0x80 ≤ f.typ.toNat → exec (.requestTaken calen) s = .next
        { u with linkCnt := { u.linkCnt with unknownTypes := satInc 4294967295 u.linkCnt.unknownTypes } }) ∧
      (f.typ.toNat < 0x80 → ¬(0x71 ≤ f.typ.toNat ∧ f.typ.toNat ≤ 0x74) → f.typ.toNat ≠ 0x02 →
        (∀ e ∈ lengthTable, f.typ.toNat ≠ e.1) → exec (.requestTaken calen) s = .next (State.replied ⟨f.typ + 0x80#8, f.tag, [0x06#8]⟩
          { u with linkCnt := { u.linkCnt with unknownTypes := satInc 4294967295 u.linkCnt.unknownTypes } })) ∧
      (∀ e ∈ lengthTable, f.typ.toNat = e.1 → f.payload.length ≠ e.2 → exec (.requestTaken calen) s = .next
        (u.replied ⟨f.typ + 0x80#8, f.tag, [0x07#8]⟩)) ∧
      (f.typ = 0x02#8 → f.payload.length < 2 ∨ f.payload.length ≠ 4 + (f.payload.getD 1 0#8).toNat →
        exec (.requestTaken calen) s = .next (u.replied ⟨0x82#8, f.tag, [0x07#8]⟩)) ∧
      (f.typ = 0x01#8 → f.payload = [] → exec (.requestTaken calen) s = .next (u.replied ⟨0x81#8, f.tag,
        0x00#8 :: [0x4E#8, 0x4B#8, 0x2D#8, 0x36#8, 0x31#8, 0x32#8, 0x01#8] ++ le 4 s.link.speed ++
          [if s.cal.valid then 0x01#8 else 0x00#8] ++ le 2 s.cal.working.number ++ le 1 s.track.p⟩)) ∧
      (f.typ = 0x11#8 → f.payload = [] → s.line.state = .faulted → exec (.requestTaken calen) s = .next
        (u.replied ⟨0x91#8, f.tag, 0x01#8 :: s.line.fields⟩)))

/-- Bad frames (R168, R169). GAP_EXPIRY gives up a frame in progress and HUNTING_PAUSE ends an open run of discarded bytes, each counting
one; with neither there is no expiry. In HUNTING a byte other than a whole 5AH opens or continues a run, uncounted; a lead byte begins
a frame, and counts one where it ends a run. A frame in progress is given up, counted, for a broken byte, for a length above 500 at
the second length byte, and for check bytes that disagree.
That an expiry takes effect whatever time is left, that the command carries the received bytes, and that a pause passes 5 ms at 5,001
microseconds are log entries 3, 15 and 22. -/
def Obligations.BadFramesCounted : Prop :=
  ∀ s given : State, TransmitInv s →
    given = { s with
      link := { s.link with receiver := .hunting none }
      linkCnt := { s.linkCnt with badFrames := satInc 4294967295 s.linkCnt.badFrames } } →
    (∀ bs gap, s.link.receiver = .inFrame bs gap →
      exec .gapExpiry s = .next { s with
        link := { s.link with receiver := .hunting none }
        linkCnt := { s.linkCnt with badFrames := satInc 4294967295 s.linkCnt.badFrames } } ∧
      exec .huntingPause s = .next s) ∧
    (∀ left, s.link.receiver = .hunting (some left) →
      exec .huntingPause s = .next { s with
        link := { s.link with receiver := .hunting none }
        linkCnt := { s.linkCnt with badFrames := satInc 4294967295 s.linkCnt.badFrames } } ∧
      exec .gapExpiry s = .next s) ∧
    (s.link.receiver = .hunting none → exec .gapExpiry s = .next s ∧ exec .huntingPause s = .next s) ∧
    (∀ run b, s.link.receiver = .hunting run →
      ((b.whole = false ∨ b.value ≠ 0x5A#8) → exec (.linkFrameReceived [b]) s = .next
        { s with link := { s.link with receiver := .hunting (some 5001) } }) ∧
      exec (.linkFrameReceived [⟨0x5A#8, true⟩]) s = .next { s with
        link := { s.link with receiver := .inFrame [0x5A#8] 5001 }
        linkCnt := if run = none then s.linkCnt
          else { s.linkCnt with badFrames := satInc 4294967295 s.linkCnt.badFrames } }) ∧
    (∀ bs gap v, s.link.receiver = .inFrame bs gap → exec (.linkFrameReceived [⟨v, false⟩]) s = .next given) ∧
    (∀ lead low high gap, s.link.receiver = .inFrame [lead, low] gap →
      (500 < low.toNat + 256 * high.toNat → exec (.linkFrameReceived [⟨high, true⟩]) s = .next given) ∧
      (low.toNat + 256 * high.toNat ≤ 500 → exec (.linkFrameReceived [⟨high, true⟩]) s = .next
        { s with link := { s.link with receiver := .inFrame [lead, low, high] 5001 } })) ∧
    (∀ (f : Frame) (x y : Byte), s.link.receiver = .hunting none → f.payload.length ≤ 500 →
      [x, y] ≠ le 2 (checkCode (le 2 f.payload.length ++ [f.typ, f.tag] ++ f.payload)).toNat →
      exec (.linkFrameReceived (([0x5A#8] ++ le 2 f.payload.length ++ [f.typ, f.tag] ++ f.payload ++ [x, y]).map
        fun b => ⟨b, true⟩)) s = .next given)

/-! ### Report Queue -/

/-- TRANSMIT_END (R179, R185): the first present of the reply, the oldest REFER, the pending unmasked event of highest
priority, the oldest LOT.END, the oldest PART is taken; with none the transmitter is IDLE; nothing but the Report Queue
changes. An IDLE transmitter has no frame to end. Each report is sent in its layout (R177). -/
def Obligations.TransmitOrder : Prop :=
  ∀ s : State,
    (s.report.tx = none → exec .transmitEnd s = .next s) ∧
    (∀ f, s.report.tx = some f →
      (∀ r, s.report.reply = some r → exec .transmitEnd s = .next
        { s with report := { s.report with reply := none, tx := some r } }) ∧
      (s.report.reply = none →
        (∀ m ms, s.report.refer = m :: ms → exec .transmitEnd s = .next
          { s with report := { s.report with refer := ms, tx := some ⟨0xF2#8, 0x00#8, referLayout m⟩ } }) ∧
        (s.report.refer = [] →
          (∀ k e, s.report.event k = some e → s.report.masked k = false →
            (∀ k', k'.priority < k.priority → s.report.event k' = none ∨ s.report.masked k' = true) →
            exec .transmitEnd s = .next { s with report := { s.report with
              events := s.report.events.set (k.priority - 1) none
              tx := some ⟨0xF3#8, 0x00#8, eventLayout k e⟩ } }) ∧
          ((∀ k, s.report.event k = none ∨ s.report.masked k = true) →
            (∀ m ms, s.report.lotEnd = m :: ms → exec .transmitEnd s = .next
              { s with report := { s.report with lotEnd := ms, tx := some ⟨0xF4#8, 0x00#8, lotEndLayout m⟩ } }) ∧
            (∀ m ms, s.report.lotEnd = [] → s.report.part = m :: ms → exec .transmitEnd s = .next
              { s with report := { s.report with part := ms, tx := some ⟨0xF1#8, 0x00#8, partLayout m⟩ } }) ∧
            (s.report.lotEnd = [] → s.report.part = [] → exec .transmitEnd s = .next
              { s with report := { s.report with tx := none } })))))

/-- R181 to R184: a PART record handed over joins the queue with the dropped count or is dropped and counted; a REFER report joins its
queue live, and at 48 waiting the oldest whose live mark is clear is removed and counted; a LOT.END summary joins its queue of 2, and
at 2 waiting the oldest is discarded and counted; an event raised becomes pending with count 1, its detail and k, or its count
advances and the rest is kept. -/
def Obligations.ReportsHandedOver : Prop :=
  (∀ (r : PartRecord) (s : State),
    (s.report.part.length < 64 → s.handPart r =
      { s with report := { s.report with part := s.report.part ++ [{ r with dropped := s.report.dropped }], dropped := 0 } }) ∧
    (64 ≤ s.report.part.length → s.handPart r =
      { s with
        report := { s.report with dropped := satInc 65535 s.report.dropped }
        lineCnt := { s.lineCnt with droppedPart := satInc 4294967295 s.lineCnt.droppedPart } })) ∧
  (∀ (r : ReferReport) (s : State),
    (s.report.refer.length < 48 → s.handRefer r =
      { s with report := { s.report with refer := s.report.refer ++ [{ r with live := true }] } }) ∧
    (∀ older old newer, 48 ≤ s.report.refer.length → s.report.refer = older ++ old :: newer →
      (∀ x ∈ older, x.live = true) → old.live = false → s.handRefer r =
      { s with
        report := { s.report with refer := older ++ newer ++ [{ r with live := true }] }
        lineCnt := { s.lineCnt with droppedRefer := satInc 4294967295 s.lineCnt.droppedRefer } })) ∧
  (∀ (r : LotEnd) (s : State),
    (s.report.lotEnd.length < 2 → s.handLotEnd r =
      { s with report := { s.report with lotEnd := s.report.lotEnd ++ [r] } }) ∧
    (∀ old newer, s.report.lotEnd = old :: newer → 1 ≤ newer.length → s.handLotEnd r =
      { s with
        report := { s.report with lotEnd := newer ++ [r] }
        lineCnt := { s.lineCnt with droppedLotEnd := satInc 4294967295 s.lineCnt.droppedLotEnd } })) ∧
  (∀ (k : EventKind) (d : Detail) (s : State), s.report.events.length = 14 →
    (s.report.event k = none → (s.raise k d).report.event k = some ⟨1, d, s.track.k⟩) ∧
    (∀ e, s.report.event k = some e → (s.raise k d).report.event k = some { e with count := satInc 65535 e.count }) ∧
    (∀ k', k' ≠ k → (s.raise k d).report.event k' = s.report.event k') ∧
    s.raise k d = { s with report := { s.report with events := (s.raise k d).report.events } })

/-- COUNT.READ (R187, R188): fields judged in order; the reply carries every counter of the group before any clear, then the
group's values of state; with clear the group's counters are 0 and its state stands, without it nothing changes.
The coding of flags and optional values, and the two bytes of fill, in-flight and old-box count, are the model's readings (log
entries 11, 12, 32). -/
def Obligations.CountReadTaken : Prop :=
  ∀ (tag : Byte) (s : State), s.taking →
    (∀ g i c, 4 < g → exec (.countRead tag g i c) s = .next (s.replied ⟨0xA4#8, tag, [0x03#8, 0x01#8]⟩)) ∧
    (∀ g i c,
      (g = 0 ∧ i ≠ 0) ∨ (g = 1 ∧ 1 < i) ∨ (g = 2 ∧ (i = 0 ∨ 20 < i)) ∨ (g = 3 ∧ 1 < i) ∨ (g = 4 ∧ i ≠ 0) →
      exec (.countRead tag g i c) s = .next (s.replied ⟨0xA4#8, tag, [0x03#8, 0x02#8]⟩)) ∧
    (∀ g i c, (g = 0 ∧ i = 0) ∨ (g = 1 ∧ i ≤ 1) ∨ (g = 2 ∧ 1 ≤ i ∧ i ≤ 20) ∨ (g = 3 ∧ i ≤ 1) ∨ (g = 4 ∧ i = 0) → 1 < c →
      exec (.countRead tag g i c) s = .next (s.replied ⟨0xA4#8, tag, [0x03#8, 0x03#8]⟩)) ∧
    (∀ f, f = ⟨0xA4#8, tag, 0x00#8 :: le 4 s.linkCnt.badFrames ++ le 4 s.linkCnt.overflows ++
        le 4 s.linkCnt.unknownTypes⟩ →
      exec (.countRead tag 4 0 0) s = .next (s.replied f) ∧
      exec (.countRead tag 4 0 1) s = .next (State.replied f { s with linkCnt := ⟨0, 0, 0⟩ })) ∧
    (∀ f n, n = s.lineCnt → f = ⟨0xA4#8, tag, 0x00#8 ::
        (([n.indexStarts, n.unpermitted, n.turretIdles, n.loads, n.loadMisses, n.sorted, n.lost, n.purged, n.droppedPart,
          n.droppedRefer, n.droppedLotEnd, n.jetCuts].map (le 4)).flatten ++ le 1 s.line.state.code ++
          le 1 (s.track.pockets.countP fun p => p.state != .empty))⟩ →
      exec (.countRead tag 0 0 0) s = .next (s.replied f) ∧
      exec (.countRead tag 0 0 1) s = .next (State.replied f { s with lineCnt := .zero })) ∧
    (∀ (i : SlotId) f n, n = (s.slot i).cnt → f = ⟨0xA4#8, tag, 0x00#8 ::
        ((n.perClass ++ [n.noClass, n.unmeasured, n.unfinished, n.fallback, n.refMade, n.refAnswered, n.refLate,
          n.refDefaulted] ++ n.early ++ [n.overflow]).map (le 4)).flatten ++ le 1 (s.slot i).state.code ++
          le 1 (s.slot i).resident⟩ →
      exec (.countRead tag 1 i.num 0) s = .next (s.replied f) ∧
      exec (.countRead tag 1 i.num 1) s = .next (State.replied f (s.modSlot i fun sl => { sl with cnt := .zero }))) ∧
    (∀ c f e, 1 ≤ c → c ≤ 20 → e = s.chute c → f = ⟨0xA4#8, tag, 0x00#8 ::
        (le 4 e.ejected ++ le 2 e.misses ++ [if e.cfg = none then 0x00#8 else 0x01#8] ++
          (match e.cfg with
            | none => [0x00#8, 0x00#8, 0x00#8]
            | some g => 0x01#8 :: le 2 g.capacity) ++
          le 2 e.fill ++ le 2 e.inFlight ++ le 2 e.oldBox ++ le 1 e.state.code)⟩ →
      exec (.countRead tag 2 c 0) s = .next (s.replied f) ∧
      exec (.countRead tag 2 c 1) s = .next
        (State.replied f (s.modChute c fun e => { e with ejected := 0, misses := 0 }))) ∧
    (∀ (ch : Chan) f n, n = (s.chan ch).cnt → f = ⟨0xA4#8, tag, 0x00#8 ::
        (([n.accepted, n.unstable, n.contactLost, n.sourceFault, n.linkError, n.stall, n.cut, n.noTime, n.short, n.long,
          n.polarity, n.checks, n.trims].map (le 4)).flatten ++ le 1 (s.chan ch).service.code ++
          ((s.cal.trims ch).map fun t => match t with
            | none => [0x00#8, 0x00#8, 0x00#8]
            | some v => 0x01#8 :: leSigned 2 v.value).flatten)⟩ →
      exec (.countRead tag 3 (chanCode ch) 0) s = .next (s.replied f) ∧
      exec (.countRead tag 3 (chanCode ch) 1) s = .next (State.replied f (s.modChan ch fun c => { c with cnt := .zero })))

/-- R186: EVENT.MASK; with the transmitter SENDING, so that a kind unmasked waits for the end of that frame. At an IDLE transmitter,
that the set in the reply holds a kind unmasked and taken at once is the model's choice (log entry 34), and so is which message is
sent first (log entry 5). -/
def Obligations.EventMaskTaken : Prop :=
  ∀ (tag : Byte) (m : Nat) (s : State), s.taking → m < 65536 →
    (16384 ≤ m → exec (.eventMask tag m) s = .next (s.replied ⟨0xA5#8, tag, [0x03#8, 0x01#8]⟩)) ∧
    (m < 16384 → ∃ t n, exec (.eventMask tag m) s = .next t ∧ t.report.mask = BitVec.ofNat 14 m ∧
      t.answered ⟨0xA5#8, tag, 0x00#8 :: le 2 m ++ le 2 n⟩ ∧
      (∀ k, n.testBit (k.priority - 1) = (s.report.event k).isSome) ∧
      (∀ f, s.report.tx = some f → t = { s with
        report := { s.report with mask := BitVec.ofNat 14 m, reply := some ⟨0xA5#8, tag, 0x00#8 :: le 2 m ++ le 2 n⟩ } }))
end

