-- ==== Sys2Proof/Laws/State.lean ====
section
/-! SUPPORT. What each update of State sets and what it leaves alone: one lemma per field per update, true by rfl, so that no
proof unfolds a record update. -/

namespace Sys2Proof.Machine


/-! ### modPins -/

section
variable (f : Pins → Pins) (s : State)

@[simp] theorem State.modPins_pins : (s.modPins f).pins = f s.pins := rfl
@[simp] theorem State.modPins_track : (s.modPins f).track = s.track := rfl
@[simp] theorem State.modPins_line : (s.modPins f).line = s.line := rfl
@[simp] theorem State.modPins_lineCnt : (s.modPins f).lineCnt = s.lineCnt := rfl
@[simp] theorem State.modPins_chanA : (s.modPins f).chanA = s.chanA := rfl
@[simp] theorem State.modPins_chanB : (s.modPins f).chanB = s.chanB := rfl
@[simp] theorem State.modPins_shared : (s.modPins f).shared = s.shared := rfl
@[simp] theorem State.modPins_sched : (s.modPins f).sched = s.sched := rfl
@[simp] theorem State.modPins_slot0 : (s.modPins f).slot0 = s.slot0 := rfl
@[simp] theorem State.modPins_slot1 : (s.modPins f).slot1 = s.slot1 := rfl
@[simp] theorem State.modPins_chutes : (s.modPins f).chutes = s.chutes := rfl
@[simp] theorem State.modPins_cal : (s.modPins f).cal = s.cal := rfl
@[simp] theorem State.modPins_temp : (s.modPins f).temp = s.temp := rfl
@[simp] theorem State.modPins_link : (s.modPins f).link = s.link := rfl
@[simp] theorem State.modPins_linkCnt : (s.modPins f).linkCnt = s.linkCnt := rfl
@[simp] theorem State.modPins_report : (s.modPins f).report = s.report := rfl
@[simp] theorem State.modPins_choices : (s.modPins f).choices = s.choices := rfl
@[simp] theorem State.modPins_pending : (s.modPins f).pending = s.pending := rfl
end

/-! ### modTrack -/

section
variable (f : Track → Track) (s : State)

@[simp] theorem State.modTrack_pins : (s.modTrack f).pins = s.pins := rfl
@[simp] theorem State.modTrack_track : (s.modTrack f).track = f s.track := rfl
@[simp] theorem State.modTrack_line : (s.modTrack f).line = s.line := rfl
@[simp] theorem State.modTrack_lineCnt : (s.modTrack f).lineCnt = s.lineCnt := rfl
@[simp] theorem State.modTrack_chanA : (s.modTrack f).chanA = s.chanA := rfl
@[simp] theorem State.modTrack_chanB : (s.modTrack f).chanB = s.chanB := rfl
@[simp] theorem State.modTrack_shared : (s.modTrack f).shared = s.shared := rfl
@[simp] theorem State.modTrack_sched : (s.modTrack f).sched = s.sched := rfl
@[simp] theorem State.modTrack_slot0 : (s.modTrack f).slot0 = s.slot0 := rfl
@[simp] theorem State.modTrack_slot1 : (s.modTrack f).slot1 = s.slot1 := rfl
@[simp] theorem State.modTrack_chutes : (s.modTrack f).chutes = s.chutes := rfl
@[simp] theorem State.modTrack_cal : (s.modTrack f).cal = s.cal := rfl
@[simp] theorem State.modTrack_temp : (s.modTrack f).temp = s.temp := rfl
@[simp] theorem State.modTrack_link : (s.modTrack f).link = s.link := rfl
@[simp] theorem State.modTrack_linkCnt : (s.modTrack f).linkCnt = s.linkCnt := rfl
@[simp] theorem State.modTrack_report : (s.modTrack f).report = s.report := rfl
@[simp] theorem State.modTrack_choices : (s.modTrack f).choices = s.choices := rfl
@[simp] theorem State.modTrack_pending : (s.modTrack f).pending = s.pending := rfl
end

/-! ### modLine -/

section
variable (f : LineCtl → LineCtl) (s : State)

@[simp] theorem State.modLine_pins : (s.modLine f).pins = s.pins := rfl
@[simp] theorem State.modLine_track : (s.modLine f).track = s.track := rfl
@[simp] theorem State.modLine_line : (s.modLine f).line = f s.line := rfl
@[simp] theorem State.modLine_lineCnt : (s.modLine f).lineCnt = s.lineCnt := rfl
@[simp] theorem State.modLine_chanA : (s.modLine f).chanA = s.chanA := rfl
@[simp] theorem State.modLine_chanB : (s.modLine f).chanB = s.chanB := rfl
@[simp] theorem State.modLine_shared : (s.modLine f).shared = s.shared := rfl
@[simp] theorem State.modLine_sched : (s.modLine f).sched = s.sched := rfl
@[simp] theorem State.modLine_slot0 : (s.modLine f).slot0 = s.slot0 := rfl
@[simp] theorem State.modLine_slot1 : (s.modLine f).slot1 = s.slot1 := rfl
@[simp] theorem State.modLine_chutes : (s.modLine f).chutes = s.chutes := rfl
@[simp] theorem State.modLine_cal : (s.modLine f).cal = s.cal := rfl
@[simp] theorem State.modLine_temp : (s.modLine f).temp = s.temp := rfl
@[simp] theorem State.modLine_link : (s.modLine f).link = s.link := rfl
@[simp] theorem State.modLine_linkCnt : (s.modLine f).linkCnt = s.linkCnt := rfl
@[simp] theorem State.modLine_report : (s.modLine f).report = s.report := rfl
@[simp] theorem State.modLine_choices : (s.modLine f).choices = s.choices := rfl
@[simp] theorem State.modLine_pending : (s.modLine f).pending = s.pending := rfl
end

/-! ### modLineCnt -/

section
variable (f : LineCounters → LineCounters) (s : State)

@[simp] theorem State.modLineCnt_pins : (s.modLineCnt f).pins = s.pins := rfl
@[simp] theorem State.modLineCnt_track : (s.modLineCnt f).track = s.track := rfl
@[simp] theorem State.modLineCnt_line : (s.modLineCnt f).line = s.line := rfl
@[simp] theorem State.modLineCnt_lineCnt : (s.modLineCnt f).lineCnt = f s.lineCnt := rfl
@[simp] theorem State.modLineCnt_chanA : (s.modLineCnt f).chanA = s.chanA := rfl
@[simp] theorem State.modLineCnt_chanB : (s.modLineCnt f).chanB = s.chanB := rfl
@[simp] theorem State.modLineCnt_shared : (s.modLineCnt f).shared = s.shared := rfl
@[simp] theorem State.modLineCnt_sched : (s.modLineCnt f).sched = s.sched := rfl
@[simp] theorem State.modLineCnt_slot0 : (s.modLineCnt f).slot0 = s.slot0 := rfl
@[simp] theorem State.modLineCnt_slot1 : (s.modLineCnt f).slot1 = s.slot1 := rfl
@[simp] theorem State.modLineCnt_chutes : (s.modLineCnt f).chutes = s.chutes := rfl
@[simp] theorem State.modLineCnt_cal : (s.modLineCnt f).cal = s.cal := rfl
@[simp] theorem State.modLineCnt_temp : (s.modLineCnt f).temp = s.temp := rfl
@[simp] theorem State.modLineCnt_link : (s.modLineCnt f).link = s.link := rfl
@[simp] theorem State.modLineCnt_linkCnt : (s.modLineCnt f).linkCnt = s.linkCnt := rfl
@[simp] theorem State.modLineCnt_report : (s.modLineCnt f).report = s.report := rfl
@[simp] theorem State.modLineCnt_choices : (s.modLineCnt f).choices = s.choices := rfl
@[simp] theorem State.modLineCnt_pending : (s.modLineCnt f).pending = s.pending := rfl
end

/-! ### modChanA -/

section
variable (f : Channel → Channel) (s : State)

@[simp] theorem State.modChanA_pins : (s.modChanA f).pins = s.pins := rfl
@[simp] theorem State.modChanA_track : (s.modChanA f).track = s.track := rfl
@[simp] theorem State.modChanA_line : (s.modChanA f).line = s.line := rfl
@[simp] theorem State.modChanA_lineCnt : (s.modChanA f).lineCnt = s.lineCnt := rfl
@[simp] theorem State.modChanA_chanA : (s.modChanA f).chanA = f s.chanA := rfl
@[simp] theorem State.modChanA_chanB : (s.modChanA f).chanB = s.chanB := rfl
@[simp] theorem State.modChanA_shared : (s.modChanA f).shared = s.shared := rfl
@[simp] theorem State.modChanA_sched : (s.modChanA f).sched = s.sched := rfl
@[simp] theorem State.modChanA_slot0 : (s.modChanA f).slot0 = s.slot0 := rfl
@[simp] theorem State.modChanA_slot1 : (s.modChanA f).slot1 = s.slot1 := rfl
@[simp] theorem State.modChanA_chutes : (s.modChanA f).chutes = s.chutes := rfl
@[simp] theorem State.modChanA_cal : (s.modChanA f).cal = s.cal := rfl
@[simp] theorem State.modChanA_temp : (s.modChanA f).temp = s.temp := rfl
@[simp] theorem State.modChanA_link : (s.modChanA f).link = s.link := rfl
@[simp] theorem State.modChanA_linkCnt : (s.modChanA f).linkCnt = s.linkCnt := rfl
@[simp] theorem State.modChanA_report : (s.modChanA f).report = s.report := rfl
@[simp] theorem State.modChanA_choices : (s.modChanA f).choices = s.choices := rfl
@[simp] theorem State.modChanA_pending : (s.modChanA f).pending = s.pending := rfl
end

/-! ### modChanB -/

section
variable (f : Channel → Channel) (s : State)

@[simp] theorem State.modChanB_pins : (s.modChanB f).pins = s.pins := rfl
@[simp] theorem State.modChanB_track : (s.modChanB f).track = s.track := rfl
@[simp] theorem State.modChanB_line : (s.modChanB f).line = s.line := rfl
@[simp] theorem State.modChanB_lineCnt : (s.modChanB f).lineCnt = s.lineCnt := rfl
@[simp] theorem State.modChanB_chanA : (s.modChanB f).chanA = s.chanA := rfl
@[simp] theorem State.modChanB_chanB : (s.modChanB f).chanB = f s.chanB := rfl
@[simp] theorem State.modChanB_shared : (s.modChanB f).shared = s.shared := rfl
@[simp] theorem State.modChanB_sched : (s.modChanB f).sched = s.sched := rfl
@[simp] theorem State.modChanB_slot0 : (s.modChanB f).slot0 = s.slot0 := rfl
@[simp] theorem State.modChanB_slot1 : (s.modChanB f).slot1 = s.slot1 := rfl
@[simp] theorem State.modChanB_chutes : (s.modChanB f).chutes = s.chutes := rfl
@[simp] theorem State.modChanB_cal : (s.modChanB f).cal = s.cal := rfl
@[simp] theorem State.modChanB_temp : (s.modChanB f).temp = s.temp := rfl
@[simp] theorem State.modChanB_link : (s.modChanB f).link = s.link := rfl
@[simp] theorem State.modChanB_linkCnt : (s.modChanB f).linkCnt = s.linkCnt := rfl
@[simp] theorem State.modChanB_report : (s.modChanB f).report = s.report := rfl
@[simp] theorem State.modChanB_choices : (s.modChanB f).choices = s.choices := rfl
@[simp] theorem State.modChanB_pending : (s.modChanB f).pending = s.pending := rfl
end

/-! ### modShared -/

section
variable (f : Shared → Shared) (s : State)

@[simp] theorem State.modShared_pins : (s.modShared f).pins = s.pins := rfl
@[simp] theorem State.modShared_track : (s.modShared f).track = s.track := rfl
@[simp] theorem State.modShared_line : (s.modShared f).line = s.line := rfl
@[simp] theorem State.modShared_lineCnt : (s.modShared f).lineCnt = s.lineCnt := rfl
@[simp] theorem State.modShared_chanA : (s.modShared f).chanA = s.chanA := rfl
@[simp] theorem State.modShared_chanB : (s.modShared f).chanB = s.chanB := rfl
@[simp] theorem State.modShared_shared : (s.modShared f).shared = f s.shared := rfl
@[simp] theorem State.modShared_sched : (s.modShared f).sched = s.sched := rfl
@[simp] theorem State.modShared_slot0 : (s.modShared f).slot0 = s.slot0 := rfl
@[simp] theorem State.modShared_slot1 : (s.modShared f).slot1 = s.slot1 := rfl
@[simp] theorem State.modShared_chutes : (s.modShared f).chutes = s.chutes := rfl
@[simp] theorem State.modShared_cal : (s.modShared f).cal = s.cal := rfl
@[simp] theorem State.modShared_temp : (s.modShared f).temp = s.temp := rfl
@[simp] theorem State.modShared_link : (s.modShared f).link = s.link := rfl
@[simp] theorem State.modShared_linkCnt : (s.modShared f).linkCnt = s.linkCnt := rfl
@[simp] theorem State.modShared_report : (s.modShared f).report = s.report := rfl
@[simp] theorem State.modShared_choices : (s.modShared f).choices = s.choices := rfl
@[simp] theorem State.modShared_pending : (s.modShared f).pending = s.pending := rfl
end

/-! ### modSched -/

section
variable (f : Sched → Sched) (s : State)

@[simp] theorem State.modSched_pins : (s.modSched f).pins = s.pins := rfl
@[simp] theorem State.modSched_track : (s.modSched f).track = s.track := rfl
@[simp] theorem State.modSched_line : (s.modSched f).line = s.line := rfl
@[simp] theorem State.modSched_lineCnt : (s.modSched f).lineCnt = s.lineCnt := rfl
@[simp] theorem State.modSched_chanA : (s.modSched f).chanA = s.chanA := rfl
@[simp] theorem State.modSched_chanB : (s.modSched f).chanB = s.chanB := rfl
@[simp] theorem State.modSched_shared : (s.modSched f).shared = s.shared := rfl
@[simp] theorem State.modSched_sched : (s.modSched f).sched = f s.sched := rfl
@[simp] theorem State.modSched_slot0 : (s.modSched f).slot0 = s.slot0 := rfl
@[simp] theorem State.modSched_slot1 : (s.modSched f).slot1 = s.slot1 := rfl
@[simp] theorem State.modSched_chutes : (s.modSched f).chutes = s.chutes := rfl
@[simp] theorem State.modSched_cal : (s.modSched f).cal = s.cal := rfl
@[simp] theorem State.modSched_temp : (s.modSched f).temp = s.temp := rfl
@[simp] theorem State.modSched_link : (s.modSched f).link = s.link := rfl
@[simp] theorem State.modSched_linkCnt : (s.modSched f).linkCnt = s.linkCnt := rfl
@[simp] theorem State.modSched_report : (s.modSched f).report = s.report := rfl
@[simp] theorem State.modSched_choices : (s.modSched f).choices = s.choices := rfl
@[simp] theorem State.modSched_pending : (s.modSched f).pending = s.pending := rfl
end

/-! ### modSlot0 -/

section
variable (f : LotSlot → LotSlot) (s : State)

@[simp] theorem State.modSlot0_pins : (s.modSlot0 f).pins = s.pins := rfl
@[simp] theorem State.modSlot0_track : (s.modSlot0 f).track = s.track := rfl
@[simp] theorem State.modSlot0_line : (s.modSlot0 f).line = s.line := rfl
@[simp] theorem State.modSlot0_lineCnt : (s.modSlot0 f).lineCnt = s.lineCnt := rfl
@[simp] theorem State.modSlot0_chanA : (s.modSlot0 f).chanA = s.chanA := rfl
@[simp] theorem State.modSlot0_chanB : (s.modSlot0 f).chanB = s.chanB := rfl
@[simp] theorem State.modSlot0_shared : (s.modSlot0 f).shared = s.shared := rfl
@[simp] theorem State.modSlot0_sched : (s.modSlot0 f).sched = s.sched := rfl
@[simp] theorem State.modSlot0_slot0 : (s.modSlot0 f).slot0 = f s.slot0 := rfl
@[simp] theorem State.modSlot0_slot1 : (s.modSlot0 f).slot1 = s.slot1 := rfl
@[simp] theorem State.modSlot0_chutes : (s.modSlot0 f).chutes = s.chutes := rfl
@[simp] theorem State.modSlot0_cal : (s.modSlot0 f).cal = s.cal := rfl
@[simp] theorem State.modSlot0_temp : (s.modSlot0 f).temp = s.temp := rfl
@[simp] theorem State.modSlot0_link : (s.modSlot0 f).link = s.link := rfl
@[simp] theorem State.modSlot0_linkCnt : (s.modSlot0 f).linkCnt = s.linkCnt := rfl
@[simp] theorem State.modSlot0_report : (s.modSlot0 f).report = s.report := rfl
@[simp] theorem State.modSlot0_choices : (s.modSlot0 f).choices = s.choices := rfl
@[simp] theorem State.modSlot0_pending : (s.modSlot0 f).pending = s.pending := rfl
end

/-! ### modSlot1 -/

section
variable (f : LotSlot → LotSlot) (s : State)

@[simp] theorem State.modSlot1_pins : (s.modSlot1 f).pins = s.pins := rfl
@[simp] theorem State.modSlot1_track : (s.modSlot1 f).track = s.track := rfl
@[simp] theorem State.modSlot1_line : (s.modSlot1 f).line = s.line := rfl
@[simp] theorem State.modSlot1_lineCnt : (s.modSlot1 f).lineCnt = s.lineCnt := rfl
@[simp] theorem State.modSlot1_chanA : (s.modSlot1 f).chanA = s.chanA := rfl
@[simp] theorem State.modSlot1_chanB : (s.modSlot1 f).chanB = s.chanB := rfl
@[simp] theorem State.modSlot1_shared : (s.modSlot1 f).shared = s.shared := rfl
@[simp] theorem State.modSlot1_sched : (s.modSlot1 f).sched = s.sched := rfl
@[simp] theorem State.modSlot1_slot0 : (s.modSlot1 f).slot0 = s.slot0 := rfl
@[simp] theorem State.modSlot1_slot1 : (s.modSlot1 f).slot1 = f s.slot1 := rfl
@[simp] theorem State.modSlot1_chutes : (s.modSlot1 f).chutes = s.chutes := rfl
@[simp] theorem State.modSlot1_cal : (s.modSlot1 f).cal = s.cal := rfl
@[simp] theorem State.modSlot1_temp : (s.modSlot1 f).temp = s.temp := rfl
@[simp] theorem State.modSlot1_link : (s.modSlot1 f).link = s.link := rfl
@[simp] theorem State.modSlot1_linkCnt : (s.modSlot1 f).linkCnt = s.linkCnt := rfl
@[simp] theorem State.modSlot1_report : (s.modSlot1 f).report = s.report := rfl
@[simp] theorem State.modSlot1_choices : (s.modSlot1 f).choices = s.choices := rfl
@[simp] theorem State.modSlot1_pending : (s.modSlot1 f).pending = s.pending := rfl
end

/-! ### modChutes -/

section
variable (f : List Chute → List Chute) (s : State)

@[simp] theorem State.modChutes_pins : (s.modChutes f).pins = s.pins := rfl
@[simp] theorem State.modChutes_track : (s.modChutes f).track = s.track := rfl
@[simp] theorem State.modChutes_line : (s.modChutes f).line = s.line := rfl
@[simp] theorem State.modChutes_lineCnt : (s.modChutes f).lineCnt = s.lineCnt := rfl
@[simp] theorem State.modChutes_chanA : (s.modChutes f).chanA = s.chanA := rfl
@[simp] theorem State.modChutes_chanB : (s.modChutes f).chanB = s.chanB := rfl
@[simp] theorem State.modChutes_shared : (s.modChutes f).shared = s.shared := rfl
@[simp] theorem State.modChutes_sched : (s.modChutes f).sched = s.sched := rfl
@[simp] theorem State.modChutes_slot0 : (s.modChutes f).slot0 = s.slot0 := rfl
@[simp] theorem State.modChutes_slot1 : (s.modChutes f).slot1 = s.slot1 := rfl
@[simp] theorem State.modChutes_chutes : (s.modChutes f).chutes = f s.chutes := rfl
@[simp] theorem State.modChutes_cal : (s.modChutes f).cal = s.cal := rfl
@[simp] theorem State.modChutes_temp : (s.modChutes f).temp = s.temp := rfl
@[simp] theorem State.modChutes_link : (s.modChutes f).link = s.link := rfl
@[simp] theorem State.modChutes_linkCnt : (s.modChutes f).linkCnt = s.linkCnt := rfl
@[simp] theorem State.modChutes_report : (s.modChutes f).report = s.report := rfl
@[simp] theorem State.modChutes_choices : (s.modChutes f).choices = s.choices := rfl
@[simp] theorem State.modChutes_pending : (s.modChutes f).pending = s.pending := rfl
end

/-! ### modCal -/

section
variable (f : Cal → Cal) (s : State)

@[simp] theorem State.modCal_pins : (s.modCal f).pins = s.pins := rfl
@[simp] theorem State.modCal_track : (s.modCal f).track = s.track := rfl
@[simp] theorem State.modCal_line : (s.modCal f).line = s.line := rfl
@[simp] theorem State.modCal_lineCnt : (s.modCal f).lineCnt = s.lineCnt := rfl
@[simp] theorem State.modCal_chanA : (s.modCal f).chanA = s.chanA := rfl
@[simp] theorem State.modCal_chanB : (s.modCal f).chanB = s.chanB := rfl
@[simp] theorem State.modCal_shared : (s.modCal f).shared = s.shared := rfl
@[simp] theorem State.modCal_sched : (s.modCal f).sched = s.sched := rfl
@[simp] theorem State.modCal_slot0 : (s.modCal f).slot0 = s.slot0 := rfl
@[simp] theorem State.modCal_slot1 : (s.modCal f).slot1 = s.slot1 := rfl
@[simp] theorem State.modCal_chutes : (s.modCal f).chutes = s.chutes := rfl
@[simp] theorem State.modCal_cal : (s.modCal f).cal = f s.cal := rfl
@[simp] theorem State.modCal_temp : (s.modCal f).temp = s.temp := rfl
@[simp] theorem State.modCal_link : (s.modCal f).link = s.link := rfl
@[simp] theorem State.modCal_linkCnt : (s.modCal f).linkCnt = s.linkCnt := rfl
@[simp] theorem State.modCal_report : (s.modCal f).report = s.report := rfl
@[simp] theorem State.modCal_choices : (s.modCal f).choices = s.choices := rfl
@[simp] theorem State.modCal_pending : (s.modCal f).pending = s.pending := rfl
end

/-! ### modTemp -/

section
variable (f : Temp → Temp) (s : State)

@[simp] theorem State.modTemp_pins : (s.modTemp f).pins = s.pins := rfl
@[simp] theorem State.modTemp_track : (s.modTemp f).track = s.track := rfl
@[simp] theorem State.modTemp_line : (s.modTemp f).line = s.line := rfl
@[simp] theorem State.modTemp_lineCnt : (s.modTemp f).lineCnt = s.lineCnt := rfl
@[simp] theorem State.modTemp_chanA : (s.modTemp f).chanA = s.chanA := rfl
@[simp] theorem State.modTemp_chanB : (s.modTemp f).chanB = s.chanB := rfl
@[simp] theorem State.modTemp_shared : (s.modTemp f).shared = s.shared := rfl
@[simp] theorem State.modTemp_sched : (s.modTemp f).sched = s.sched := rfl
@[simp] theorem State.modTemp_slot0 : (s.modTemp f).slot0 = s.slot0 := rfl
@[simp] theorem State.modTemp_slot1 : (s.modTemp f).slot1 = s.slot1 := rfl
@[simp] theorem State.modTemp_chutes : (s.modTemp f).chutes = s.chutes := rfl
@[simp] theorem State.modTemp_cal : (s.modTemp f).cal = s.cal := rfl
@[simp] theorem State.modTemp_temp : (s.modTemp f).temp = f s.temp := rfl
@[simp] theorem State.modTemp_link : (s.modTemp f).link = s.link := rfl
@[simp] theorem State.modTemp_linkCnt : (s.modTemp f).linkCnt = s.linkCnt := rfl
@[simp] theorem State.modTemp_report : (s.modTemp f).report = s.report := rfl
@[simp] theorem State.modTemp_choices : (s.modTemp f).choices = s.choices := rfl
@[simp] theorem State.modTemp_pending : (s.modTemp f).pending = s.pending := rfl
end

/-! ### modLink -/

section
variable (f : Link → Link) (s : State)

@[simp] theorem State.modLink_pins : (s.modLink f).pins = s.pins := rfl
@[simp] theorem State.modLink_track : (s.modLink f).track = s.track := rfl
@[simp] theorem State.modLink_line : (s.modLink f).line = s.line := rfl
@[simp] theorem State.modLink_lineCnt : (s.modLink f).lineCnt = s.lineCnt := rfl
@[simp] theorem State.modLink_chanA : (s.modLink f).chanA = s.chanA := rfl
@[simp] theorem State.modLink_chanB : (s.modLink f).chanB = s.chanB := rfl
@[simp] theorem State.modLink_shared : (s.modLink f).shared = s.shared := rfl
@[simp] theorem State.modLink_sched : (s.modLink f).sched = s.sched := rfl
@[simp] theorem State.modLink_slot0 : (s.modLink f).slot0 = s.slot0 := rfl
@[simp] theorem State.modLink_slot1 : (s.modLink f).slot1 = s.slot1 := rfl
@[simp] theorem State.modLink_chutes : (s.modLink f).chutes = s.chutes := rfl
@[simp] theorem State.modLink_cal : (s.modLink f).cal = s.cal := rfl
@[simp] theorem State.modLink_temp : (s.modLink f).temp = s.temp := rfl
@[simp] theorem State.modLink_link : (s.modLink f).link = f s.link := rfl
@[simp] theorem State.modLink_linkCnt : (s.modLink f).linkCnt = s.linkCnt := rfl
@[simp] theorem State.modLink_report : (s.modLink f).report = s.report := rfl
@[simp] theorem State.modLink_choices : (s.modLink f).choices = s.choices := rfl
@[simp] theorem State.modLink_pending : (s.modLink f).pending = s.pending := rfl
end

/-! ### modLinkCnt -/

section
variable (f : LinkCounters → LinkCounters) (s : State)

@[simp] theorem State.modLinkCnt_pins : (s.modLinkCnt f).pins = s.pins := rfl
@[simp] theorem State.modLinkCnt_track : (s.modLinkCnt f).track = s.track := rfl
@[simp] theorem State.modLinkCnt_line : (s.modLinkCnt f).line = s.line := rfl
@[simp] theorem State.modLinkCnt_lineCnt : (s.modLinkCnt f).lineCnt = s.lineCnt := rfl
@[simp] theorem State.modLinkCnt_chanA : (s.modLinkCnt f).chanA = s.chanA := rfl
@[simp] theorem State.modLinkCnt_chanB : (s.modLinkCnt f).chanB = s.chanB := rfl
@[simp] theorem State.modLinkCnt_shared : (s.modLinkCnt f).shared = s.shared := rfl
@[simp] theorem State.modLinkCnt_sched : (s.modLinkCnt f).sched = s.sched := rfl
@[simp] theorem State.modLinkCnt_slot0 : (s.modLinkCnt f).slot0 = s.slot0 := rfl
@[simp] theorem State.modLinkCnt_slot1 : (s.modLinkCnt f).slot1 = s.slot1 := rfl
@[simp] theorem State.modLinkCnt_chutes : (s.modLinkCnt f).chutes = s.chutes := rfl
@[simp] theorem State.modLinkCnt_cal : (s.modLinkCnt f).cal = s.cal := rfl
@[simp] theorem State.modLinkCnt_temp : (s.modLinkCnt f).temp = s.temp := rfl
@[simp] theorem State.modLinkCnt_link : (s.modLinkCnt f).link = s.link := rfl
@[simp] theorem State.modLinkCnt_linkCnt : (s.modLinkCnt f).linkCnt = f s.linkCnt := rfl
@[simp] theorem State.modLinkCnt_report : (s.modLinkCnt f).report = s.report := rfl
@[simp] theorem State.modLinkCnt_choices : (s.modLinkCnt f).choices = s.choices := rfl
@[simp] theorem State.modLinkCnt_pending : (s.modLinkCnt f).pending = s.pending := rfl
end

/-! ### modReport -/

section
variable (f : Report → Report) (s : State)

@[simp] theorem State.modReport_pins : (s.modReport f).pins = s.pins := rfl
@[simp] theorem State.modReport_track : (s.modReport f).track = s.track := rfl
@[simp] theorem State.modReport_line : (s.modReport f).line = s.line := rfl
@[simp] theorem State.modReport_lineCnt : (s.modReport f).lineCnt = s.lineCnt := rfl
@[simp] theorem State.modReport_chanA : (s.modReport f).chanA = s.chanA := rfl
@[simp] theorem State.modReport_chanB : (s.modReport f).chanB = s.chanB := rfl
@[simp] theorem State.modReport_shared : (s.modReport f).shared = s.shared := rfl
@[simp] theorem State.modReport_sched : (s.modReport f).sched = s.sched := rfl
@[simp] theorem State.modReport_slot0 : (s.modReport f).slot0 = s.slot0 := rfl
@[simp] theorem State.modReport_slot1 : (s.modReport f).slot1 = s.slot1 := rfl
@[simp] theorem State.modReport_chutes : (s.modReport f).chutes = s.chutes := rfl
@[simp] theorem State.modReport_cal : (s.modReport f).cal = s.cal := rfl
@[simp] theorem State.modReport_temp : (s.modReport f).temp = s.temp := rfl
@[simp] theorem State.modReport_link : (s.modReport f).link = s.link := rfl
@[simp] theorem State.modReport_linkCnt : (s.modReport f).linkCnt = s.linkCnt := rfl
@[simp] theorem State.modReport_report : (s.modReport f).report = f s.report := rfl
@[simp] theorem State.modReport_choices : (s.modReport f).choices = s.choices := rfl
@[simp] theorem State.modReport_pending : (s.modReport f).pending = s.pending := rfl
end

/-! ### modChoices -/

section
variable (f : Nat → Nat) (s : State)

@[simp] theorem State.modChoices_pins : (s.modChoices f).pins = s.pins := rfl
@[simp] theorem State.modChoices_track : (s.modChoices f).track = s.track := rfl
@[simp] theorem State.modChoices_line : (s.modChoices f).line = s.line := rfl
@[simp] theorem State.modChoices_lineCnt : (s.modChoices f).lineCnt = s.lineCnt := rfl
@[simp] theorem State.modChoices_chanA : (s.modChoices f).chanA = s.chanA := rfl
@[simp] theorem State.modChoices_chanB : (s.modChoices f).chanB = s.chanB := rfl
@[simp] theorem State.modChoices_shared : (s.modChoices f).shared = s.shared := rfl
@[simp] theorem State.modChoices_sched : (s.modChoices f).sched = s.sched := rfl
@[simp] theorem State.modChoices_slot0 : (s.modChoices f).slot0 = s.slot0 := rfl
@[simp] theorem State.modChoices_slot1 : (s.modChoices f).slot1 = s.slot1 := rfl
@[simp] theorem State.modChoices_chutes : (s.modChoices f).chutes = s.chutes := rfl
@[simp] theorem State.modChoices_cal : (s.modChoices f).cal = s.cal := rfl
@[simp] theorem State.modChoices_temp : (s.modChoices f).temp = s.temp := rfl
@[simp] theorem State.modChoices_link : (s.modChoices f).link = s.link := rfl
@[simp] theorem State.modChoices_linkCnt : (s.modChoices f).linkCnt = s.linkCnt := rfl
@[simp] theorem State.modChoices_report : (s.modChoices f).report = s.report := rfl
@[simp] theorem State.modChoices_choices : (s.modChoices f).choices = f s.choices := rfl
@[simp] theorem State.modChoices_pending : (s.modChoices f).pending = s.pending := rfl
end

/-! ### Updates through a name -/

section
variable (s : State)

@[simp] theorem State.modChan_pins (ch : Chan) (f : Channel → Channel) : (s.modChan ch f).pins = s.pins := by cases ch <;> rfl
@[simp] theorem State.modChan_track (ch : Chan) (f : Channel → Channel) : (s.modChan ch f).track = s.track := by cases ch <;> rfl
@[simp] theorem State.modChan_line (ch : Chan) (f : Channel → Channel) : (s.modChan ch f).line = s.line := by cases ch <;> rfl
@[simp] theorem State.modChan_lineCnt (ch : Chan) (f : Channel → Channel) : (s.modChan ch f).lineCnt = s.lineCnt := by cases ch <;> rfl
@[simp] theorem State.modChan_shared (ch : Chan) (f : Channel → Channel) : (s.modChan ch f).shared = s.shared := by cases ch <;> rfl
@[simp] theorem State.modChan_sched (ch : Chan) (f : Channel → Channel) : (s.modChan ch f).sched = s.sched := by cases ch <;> rfl
@[simp] theorem State.modChan_slot0 (ch : Chan) (f : Channel → Channel) : (s.modChan ch f).slot0 = s.slot0 := by cases ch <;> rfl
@[simp] theorem State.modChan_slot1 (ch : Chan) (f : Channel → Channel) : (s.modChan ch f).slot1 = s.slot1 := by cases ch <;> rfl
@[simp] theorem State.modChan_chutes (ch : Chan) (f : Channel → Channel) : (s.modChan ch f).chutes = s.chutes := by cases ch <;> rfl
@[simp] theorem State.modChan_cal (ch : Chan) (f : Channel → Channel) : (s.modChan ch f).cal = s.cal := by cases ch <;> rfl
@[simp] theorem State.modChan_temp (ch : Chan) (f : Channel → Channel) : (s.modChan ch f).temp = s.temp := by cases ch <;> rfl
@[simp] theorem State.modChan_link (ch : Chan) (f : Channel → Channel) : (s.modChan ch f).link = s.link := by cases ch <;> rfl
@[simp] theorem State.modChan_linkCnt (ch : Chan) (f : Channel → Channel) : (s.modChan ch f).linkCnt = s.linkCnt := by cases ch <;> rfl
@[simp] theorem State.modChan_report (ch : Chan) (f : Channel → Channel) : (s.modChan ch f).report = s.report := by cases ch <;> rfl
@[simp] theorem State.modChan_choices (ch : Chan) (f : Channel → Channel) : (s.modChan ch f).choices = s.choices := by cases ch <;> rfl
@[simp] theorem State.modChan_pending (ch : Chan) (f : Channel → Channel) : (s.modChan ch f).pending = s.pending := by cases ch <;> rfl
@[simp] theorem State.modChan_same (ch : Chan) (f : Channel → Channel) : (s.modChan ch f).chan ch = f (s.chan ch) := by
  cases ch <;> rfl
@[simp] theorem State.modChan_other (ch : Chan) (f : Channel → Channel) :
    (s.modChan ch f).chan (chanOther ch) = s.chan (chanOther ch) := by
  cases ch <;> rfl
@[simp] theorem State.modSlot_pins (i : SlotId) (f : LotSlot → LotSlot) : (s.modSlot i f).pins = s.pins := by cases i <;> rfl
@[simp] theorem State.modSlot_track (i : SlotId) (f : LotSlot → LotSlot) : (s.modSlot i f).track = s.track := by cases i <;> rfl
@[simp] theorem State.modSlot_line (i : SlotId) (f : LotSlot → LotSlot) : (s.modSlot i f).line = s.line := by cases i <;> rfl
@[simp] theorem State.modSlot_lineCnt (i : SlotId) (f : LotSlot → LotSlot) : (s.modSlot i f).lineCnt = s.lineCnt := by cases i <;> rfl
@[simp] theorem State.modSlot_chanA (i : SlotId) (f : LotSlot → LotSlot) : (s.modSlot i f).chanA = s.chanA := by cases i <;> rfl
@[simp] theorem State.modSlot_chanB (i : SlotId) (f : LotSlot → LotSlot) : (s.modSlot i f).chanB = s.chanB := by cases i <;> rfl
@[simp] theorem State.modSlot_shared (i : SlotId) (f : LotSlot → LotSlot) : (s.modSlot i f).shared = s.shared := by cases i <;> rfl
@[simp] theorem State.modSlot_sched (i : SlotId) (f : LotSlot → LotSlot) : (s.modSlot i f).sched = s.sched := by cases i <;> rfl
@[simp] theorem State.modSlot_chutes (i : SlotId) (f : LotSlot → LotSlot) : (s.modSlot i f).chutes = s.chutes := by cases i <;> rfl
@[simp] theorem State.modSlot_cal (i : SlotId) (f : LotSlot → LotSlot) : (s.modSlot i f).cal = s.cal := by cases i <;> rfl
@[simp] theorem State.modSlot_temp (i : SlotId) (f : LotSlot → LotSlot) : (s.modSlot i f).temp = s.temp := by cases i <;> rfl
@[simp] theorem State.modSlot_link (i : SlotId) (f : LotSlot → LotSlot) : (s.modSlot i f).link = s.link := by cases i <;> rfl
@[simp] theorem State.modSlot_linkCnt (i : SlotId) (f : LotSlot → LotSlot) : (s.modSlot i f).linkCnt = s.linkCnt := by cases i <;> rfl
@[simp] theorem State.modSlot_report (i : SlotId) (f : LotSlot → LotSlot) : (s.modSlot i f).report = s.report := by cases i <;> rfl
@[simp] theorem State.modSlot_choices (i : SlotId) (f : LotSlot → LotSlot) : (s.modSlot i f).choices = s.choices := by cases i <;> rfl
@[simp] theorem State.modSlot_pending (i : SlotId) (f : LotSlot → LotSlot) : (s.modSlot i f).pending = s.pending := by cases i <;> rfl
@[simp] theorem State.modSlot_same (i : SlotId) (f : LotSlot → LotSlot) : (s.modSlot i f).slot i = f (s.slot i) := by
  cases i <;> rfl
@[simp] theorem State.modSlot_other (i : SlotId) (f : LotSlot → LotSlot) :
    (s.modSlot i f).slot i.other = s.slot i.other := by
  cases i <;> rfl
@[simp] theorem State.modPocket_pins (q : Nat) (f : Pocket → Pocket) : (s.modPocket q f).pins = s.pins := rfl
@[simp] theorem State.modPocket_line (q : Nat) (f : Pocket → Pocket) : (s.modPocket q f).line = s.line := rfl
@[simp] theorem State.modPocket_lineCnt (q : Nat) (f : Pocket → Pocket) : (s.modPocket q f).lineCnt = s.lineCnt := rfl
@[simp] theorem State.modPocket_chanA (q : Nat) (f : Pocket → Pocket) : (s.modPocket q f).chanA = s.chanA := rfl
@[simp] theorem State.modPocket_chanB (q : Nat) (f : Pocket → Pocket) : (s.modPocket q f).chanB = s.chanB := rfl
@[simp] theorem State.modPocket_shared (q : Nat) (f : Pocket → Pocket) : (s.modPocket q f).shared = s.shared := rfl
@[simp] theorem State.modPocket_sched (q : Nat) (f : Pocket → Pocket) : (s.modPocket q f).sched = s.sched := rfl
@[simp] theorem State.modPocket_slot0 (q : Nat) (f : Pocket → Pocket) : (s.modPocket q f).slot0 = s.slot0 := rfl
@[simp] theorem State.modPocket_slot1 (q : Nat) (f : Pocket → Pocket) : (s.modPocket q f).slot1 = s.slot1 := rfl
@[simp] theorem State.modPocket_chutes (q : Nat) (f : Pocket → Pocket) : (s.modPocket q f).chutes = s.chutes := rfl
@[simp] theorem State.modPocket_cal (q : Nat) (f : Pocket → Pocket) : (s.modPocket q f).cal = s.cal := rfl
@[simp] theorem State.modPocket_temp (q : Nat) (f : Pocket → Pocket) : (s.modPocket q f).temp = s.temp := rfl
@[simp] theorem State.modPocket_link (q : Nat) (f : Pocket → Pocket) : (s.modPocket q f).link = s.link := rfl
@[simp] theorem State.modPocket_linkCnt (q : Nat) (f : Pocket → Pocket) : (s.modPocket q f).linkCnt = s.linkCnt := rfl
@[simp] theorem State.modPocket_report (q : Nat) (f : Pocket → Pocket) : (s.modPocket q f).report = s.report := rfl
@[simp] theorem State.modPocket_choices (q : Nat) (f : Pocket → Pocket) : (s.modPocket q f).choices = s.choices := rfl
@[simp] theorem State.modPocket_pending (q : Nat) (f : Pocket → Pocket) : (s.modPocket q f).pending = s.pending := rfl
@[simp] theorem State.modChute_pins (c : Nat) (f : Chute → Chute) : (s.modChute c f).pins = s.pins := by
  unfold State.modChute; split <;> rfl
@[simp] theorem State.modChute_track (c : Nat) (f : Chute → Chute) : (s.modChute c f).track = s.track := by
  unfold State.modChute; split <;> rfl
@[simp] theorem State.modChute_line (c : Nat) (f : Chute → Chute) : (s.modChute c f).line = s.line := by
  unfold State.modChute; split <;> rfl
@[simp] theorem State.modChute_lineCnt (c : Nat) (f : Chute → Chute) : (s.modChute c f).lineCnt = s.lineCnt := by
  unfold State.modChute; split <;> rfl
@[simp] theorem State.modChute_chanA (c : Nat) (f : Chute → Chute) : (s.modChute c f).chanA = s.chanA := by
  unfold State.modChute; split <;> rfl
@[simp] theorem State.modChute_chanB (c : Nat) (f : Chute → Chute) : (s.modChute c f).chanB = s.chanB := by
  unfold State.modChute; split <;> rfl
@[simp] theorem State.modChute_shared (c : Nat) (f : Chute → Chute) : (s.modChute c f).shared = s.shared := by
  unfold State.modChute; split <;> rfl
@[simp] theorem State.modChute_sched (c : Nat) (f : Chute → Chute) : (s.modChute c f).sched = s.sched := by
  unfold State.modChute; split <;> rfl
@[simp] theorem State.modChute_slot0 (c : Nat) (f : Chute → Chute) : (s.modChute c f).slot0 = s.slot0 := by
  unfold State.modChute; split <;> rfl
@[simp] theorem State.modChute_slot1 (c : Nat) (f : Chute → Chute) : (s.modChute c f).slot1 = s.slot1 := by
  unfold State.modChute; split <;> rfl
@[simp] theorem State.modChute_cal (c : Nat) (f : Chute → Chute) : (s.modChute c f).cal = s.cal := by
  unfold State.modChute; split <;> rfl
@[simp] theorem State.modChute_temp (c : Nat) (f : Chute → Chute) : (s.modChute c f).temp = s.temp := by
  unfold State.modChute; split <;> rfl
@[simp] theorem State.modChute_link (c : Nat) (f : Chute → Chute) : (s.modChute c f).link = s.link := by
  unfold State.modChute; split <;> rfl
@[simp] theorem State.modChute_linkCnt (c : Nat) (f : Chute → Chute) : (s.modChute c f).linkCnt = s.linkCnt := by
  unfold State.modChute; split <;> rfl
@[simp] theorem State.modChute_report (c : Nat) (f : Chute → Chute) : (s.modChute c f).report = s.report := by
  unfold State.modChute; split <;> rfl
@[simp] theorem State.modChute_choices (c : Nat) (f : Chute → Chute) : (s.modChute c f).choices = s.choices := by
  unfold State.modChute; split <;> rfl
@[simp] theorem State.modChute_pending (c : Nat) (f : Chute → Chute) : (s.modChute c f).pending = s.pending := by
  unfold State.modChute; split <;> rfl
end

end Sys2Proof.Machine
end

