-- ==== Sys2Proof/Laws/Frames.lean ====
section
/-! SUPPORT. What each shared operation leaves alone: one lemma per operation, naming the blocks it may write. A proof that
needs one block reads it off, as in (State.commit_only s q t) .pending (by decide). -/

namespace Sys2Proof.Machine

/-- The blocks of State. -/
inductive Block where
  | pins | track | line | lineCnt | chanA | chanB | shared | sched | slot0 | slot1 | chutes | cal | temp | link | linkCnt
  | report | choices | pending
  deriving DecidableEq, Repr

/-- A block holds in t what it holds in s. -/
def Block.same (s t : State) : Block → Prop
  | .pins => t.pins = s.pins
  | .track => t.track = s.track
  | .line => t.line = s.line
  | .lineCnt => t.lineCnt = s.lineCnt
  | .chanA => t.chanA = s.chanA
  | .chanB => t.chanB = s.chanB
  | .shared => t.shared = s.shared
  | .sched => t.sched = s.sched
  | .slot0 => t.slot0 = s.slot0
  | .slot1 => t.slot1 = s.slot1
  | .chutes => t.chutes = s.chutes
  | .cal => t.cal = s.cal
  | .temp => t.temp = s.temp
  | .link => t.link = s.link
  | .linkCnt => t.linkCnt = s.linkCnt
  | .report => t.report = s.report
  | .choices => t.choices = s.choices
  | .pending => t.pending = s.pending

/-- t differs from s in the blocks of a list alone. -/
def Only (l : List Block) (s t : State) : Prop := ∀ b, b ∉ l → b.same s t

theorem Only.refl (l : List Block) (s : State) : Only l s s := by
  intro b _; cases b <;> rfl

theorem Block.same_trans {s t u : State} (b : Block) (h : b.same s t) (k : b.same t u) : b.same s u := by
  cases b <;> exact Eq.trans k h

theorem Only.trans {l : List Block} {s t u : State} (h : Only l s t) (k : Only l t u) : Only l s u :=
  fun b hb => b.same_trans (h b hb) (k b hb)

theorem Only.mono {l m : List Block} {s t : State} (h : Only l s t) (hm : ∀ b ∈ l, b ∈ m) : Only m s t :=
  fun b hb => h b fun hl => hb (hm b hl)

theorem Only.foldl {α : Type} {l : List Block} {f : State → α → State} (h : ∀ s a, Only l s (f s a)) (xs : List α)
    (s : State) : Only l s (xs.foldl f s) := by
  induction xs generalizing s with
  | nil => exact Only.refl l s
  | cons x xs ih => exact (h s x).trans (ih (f s x))

/-! ### Updates -/

section
variable (s : State)

theorem State.modPins_only (f) : Only [.pins] s (s.modPins f) := by intro b hb; cases b <;> first | rfl | simp at hb
theorem State.modTrack_only (f) : Only [.track] s (s.modTrack f) := by intro b hb; cases b <;> first | rfl | simp at hb
theorem State.modLine_only (f) : Only [.line] s (s.modLine f) := by intro b hb; cases b <;> first | rfl | simp at hb
theorem State.modLineCnt_only (f) : Only [.lineCnt] s (s.modLineCnt f) := by
  intro b hb; cases b <;> first | rfl | simp at hb
theorem State.modSched_only (f) : Only [.sched] s (s.modSched f) := by intro b hb; cases b <;> first | rfl | simp at hb
theorem State.modChutes_only (f) : Only [.chutes] s (s.modChutes f) := by intro b hb; cases b <;> first | rfl | simp at hb
theorem State.modCal_only (f) : Only [.cal] s (s.modCal f) := by intro b hb; cases b <;> first | rfl | simp at hb
theorem State.modTemp_only (f) : Only [.temp] s (s.modTemp f) := by intro b hb; cases b <;> first | rfl | simp at hb
theorem State.modLink_only (f) : Only [.link] s (s.modLink f) := by intro b hb; cases b <;> first | rfl | simp at hb
theorem State.modLinkCnt_only (f) : Only [.linkCnt] s (s.modLinkCnt f) := by
  intro b hb; cases b <;> first | rfl | simp at hb
theorem State.modReport_only (f) : Only [.report] s (s.modReport f) := by intro b hb; cases b <;> first | rfl | simp at hb
theorem State.modChoices_only (f) : Only [.choices] s (s.modChoices f) := by
  intro b hb; cases b <;> first | rfl | simp at hb
theorem State.modPocket_only (q f) : Only [.track] s (s.modPocket q f) := s.modTrack_only _
theorem State.modChan_only (ch f) : Only [.chanA, .chanB] s (s.modChan ch f) := by
  intro b hb; cases ch <;> cases b <;> first | rfl | simp at hb
theorem State.modSlot_only (i f) : Only [.slot0, .slot1] s (s.modSlot i f) := by
  intro b hb; cases i <;> cases b <;> first | rfl | simp at hb
theorem State.modChute_only (c f) : Only [.chutes] s (s.modChute c f) := by
  unfold State.modChute; split
  · exact Only.refl _ _
  · exact s.modChutes_only _

/-! ### Events, accounts and finishes -/

theorem State.raise_only (k d) : Only [.report] s (s.raise k d) := s.modReport_only _

theorem State.bumpLotOf_only (q f) : Only [.slot0, .slot1] s (s.bumpLotOf q f) := by
  unfold State.bumpLotOf; split
  · exact s.modSlot_only _ _
  · exact Only.refl _ _

theorem State.account_only (c f) : Only [.chutes, .report] s (s.account c f) := by
  unfold State.account
  have h : Only [.chutes, .report] s (s.modChute c f) := (s.modChute_only c f).mono (by decide)
  dsimp only; split
  · exact h.trans ((State.raise_only _ _ _).mono (by decide))
  · exact h

theorem State.settleAccounts_only (q) : Only [.chutes, .report] s (s.settleAccounts q) := by
  unfold State.settleAccounts; split
  · exact Only.refl _ _
  · split <;> first | exact s.account_only _ _ | exact Only.refl _ _

theorem State.cutJets_only : Only [.lineCnt, .chutes] s s.cutJets :=
  ((s.modLineCnt_only _).mono (by decide)).trans ((State.modChutes_only _ _).mono (by decide))

theorem State.handPart_only (r) : Only [.report, .lineCnt] s (s.handPart r) := by
  unfold State.handPart; split
  · exact (s.modReport_only _).mono (by decide)
  · exact ((s.modReport_only _).mono (by decide)).trans ((State.modLineCnt_only _ _).mono (by decide))

theorem State.handRefer_only (r) : Only [.report, .lineCnt] s (s.handRefer r) := by
  unfold State.handRefer; split
  · exact (s.modReport_only _).mono (by decide)
  · exact ((s.modReport_only _).mono (by decide)).trans ((State.modLineCnt_only _ _).mono (by decide))

theorem State.handLotEnd_only (r) : Only [.report, .lineCnt] s (s.handLotEnd r) := by
  unfold State.handLotEnd; split
  · exact (s.modReport_only _).mono (by decide)
  · exact ((s.modReport_only _).mono (by decide)).trans ((State.modLineCnt_only _ _).mono (by decide))

theorem State.retire_only (i e) : Only [.slot0, .slot1, .report, .lineCnt] s (s.retire i e) := by
  unfold State.retire
  refine Only.trans ?_ ((State.modSlot_only _ _ _).mono (by decide))
  split
  · exact (s.handLotEnd_only _).mono (by decide)
  · exact Only.refl _ _

theorem State.dropResidentOf_only (i) : Only [.slot0, .slot1, .report, .lineCnt] s (s.dropResidentOf i) := by
  unfold State.dropResidentOf; split
  · unfold State.dropResident
    dsimp only; split
    · exact ((s.modSlot_only _ _).mono (by decide)).trans (State.retire_only _ _ _)
    · exact (s.modSlot_only _ _).mono (by decide)
  · exact Only.refl _ _

/-- A finish writes the pocket, the slots, the chute accounts, the reports and the counters. -/
theorem State.finish_only (q o) : Only [.track, .slot0, .slot1, .chutes, .report, .lineCnt] s (s.finish q o) := by
  unfold State.finish
  have h := ((((s.settleAccounts_only q).mono (m := [.track, .slot0, .slot1, .chutes, .report, .lineCnt]) (by decide)).trans
    ((State.handPart_only _ ((s.settleAccounts q).partOf q o)).mono (by decide))).trans
    ((State.dropResidentOf_only _ (s.pocket q).slot).mono (by decide))).trans
    ((State.modLineCnt_only _ (countFinish o)).mono (by decide))
  have h' := h.trans ((State.modPocket_only _ q fun _ => .emptied).mono (by decide))
  dsimp only; split
  · exact h'.trans ((State.modReport_only _ _).mono (by decide))
  · exact h'

/-! ### The line -/

theorem State.enterStopping_only : Only [.line] s s.enterStopping := by
  unfold State.enterStopping; dsimp only; split
  · exact (s.modLine_only _).trans (State.modLine_only _ _)
  · exact s.modLine_only _

theorem State.lineBlocked_only : Only [.line] s s.lineBlocked := by
  unfold State.lineBlocked; split
  · exact s.enterStopping_only
  · exact Only.refl _ _

theorem State.judgeDwell_only : Only [.line] s s.judgeDwell := by
  unfold State.judgeDwell; split
  · dsimp only
    split <;> first
      | exact (s.modLine_only _).trans (State.modLine_only _ _)
      | exact s.modLine_only _
  · exact Only.refl _ _

theorem State.judgeLoadOk_only : Only [.line, .track] s s.judgeLoadOk := by
  unfold State.judgeLoadOk; split
  · exact ((s.modLine_only _).mono (by decide)).trans ((State.modTrack_only _ _).mono (by decide))
  · exact Only.refl _ _

/-! ### Commits -/

theorem State.commitTo_only (q c o) : Only [.track, .chutes, .report] s (s.commitTo q c o) :=
  ((s.modPocket_only _ _).mono (by decide)).trans ((State.account_only _ _ _).mono (by decide))

theorem State.holdPocket_only (q t) : Only [.track, .report, .line] s (s.holdPocket q t) :=
  (((s.modPocket_only _ _).mono (by decide)).trans ((State.raise_only _ _ _).mono (by decide))).trans
    ((State.lineBlocked_only _).mono (by decide))

/-- A commit writes the pocket, a chute's account, the overflow count, the line when it holds the pocket, and events. -/
theorem State.commit_only (q t) : Only [.track, .line, .slot0, .slot1, .chutes, .report] s (s.commit q t) := by
  unfold State.commit; dsimp only; split
  · exact (s.commitTo_only _ _ _).mono (by decide)
  · split
    · split
      · exact ((s.commitTo_only _ _ _).mono (by decide)).trans ((State.bumpLotOf_only _ _ _).mono (by decide))
      · exact (s.holdPocket_only _ _).mono (by decide)
    · exact (s.holdPocket_only _ _).mono (by decide)

theorem State.retryHeld_only : Only [.track, .line, .slot0, .slot1, .chutes, .report] s s.retryHeld := by
  refine Only.foldl (fun s q => ?_) _ s
  unfold State.retryPocket; split
  · exact s.commit_only _ _
  · exact Only.refl _ _

/-! ### Job ends and faults -/

theorem State.endJob_only (ch) : Only [.chanA, .chanB, .sched] s (s.endJob ch) :=
  ((s.modChan_only _ _).mono (by decide)).trans ((State.modSched_only _ _).mono (by decide))

theorem State.recordAttempt_only (q a) : Only [.track, .chanA, .chanB] s (s.recordAttempt q a) :=
  ((s.modPocket_only _ _).mono (by decide)).trans ((State.modChan_only _ _ _).mono (by decide))

theorem State.abortJob_only (ch o) : Only [.track, .chanA, .chanB, .sched] s (s.abortJob ch o) := by
  unfold State.abortJob; split
  · exact Only.refl _ _
  · dsimp only; split
    · exact ((s.endJob_only ch).mono (by decide)).trans ((State.recordAttempt_only _ _ _).mono (by decide))
    · exact ((s.endJob_only ch).mono (by decide)).trans ((State.modChan_only _ _ _).mono (by decide))

theorem State.cutDwell_only : Only [.track, .chanA, .chanB, .sched] s s.cutDwell :=
  (((s.modSched_only _).mono (by decide)).trans (State.abortJob_only _ _ _)).trans (State.abortJob_only _ _ _)

/-- A fault writes the line, the jobs it cuts with their pockets and channels, the request set, the jets, the jet-cut
counter and the event table. -/
theorem State.raiseFault_only (k d) :
    Only [.track, .line, .lineCnt, .chanA, .chanB, .sched, .chutes, .report] s (s.raiseFault k d) := by
  have h : Only [.track, .line, .lineCnt, .chanA, .chanB, .sched, .chutes, .report] s (s.faultEntry k d) :=
    ((((s.modLine_only _).mono (by decide)).trans ((State.cutDwell_only _).mono (by decide))).trans
      ((State.cutJets_only _).mono (by decide))).trans ((State.raise_only _ _ _).mono (by decide))
  unfold State.raiseFault
  split <;> first
    | exact h
    | exact ((s.raise_only _ _).mono (by decide)).trans ((State.modLine_only _ _).mono (by decide))
    | exact (s.raise_only _ _).mono (by decide)

/-! ### Decisions -/

theorem State.decide_only (q dec t f) : Only [.track, .line, .slot0, .slot1, .chutes, .report] s (s.decide q dec t f) :=
  (((s.modPocket_only _ _).mono (by decide)).trans ((State.bumpLotOf_only _ _ _).mono (by decide))).trans
    (State.commit_only _ _ _)

theorem State.refer_only (q dec g d f) : Only [.track, .lineCnt, .slot0, .slot1, .report] s (s.refer q dec g d f) :=
  ((((s.modPocket_only _ _).mono (by decide)).trans ((State.bumpLotOf_only _ _ _).mono (by decide))).trans
    ((State.handRefer_only _ _).mono (by decide))).trans ((State.bumpLotOf_only _ _ _).mono (by decide))

theorem State.judgeAccepted_only (q g d m) :
    Only [.track, .line, .lineCnt, .slot0, .slot1, .chutes, .report] s (s.judgeAccepted q g d m) := by
  unfold State.judgeAccepted; dsimp only; split
  · split
    · unfold State.applyJudgement; split
      · exact (s.decide_only _ _ _ _).mono (by decide)
      · split
        · exact (s.refer_only _ _ _ _ _).mono (by decide)
        · exact (s.decide_only _ _ _ _).mono (by decide)
      · exact (s.modPocket_only _ _).mono (by decide)
    · exact Only.refl _ _
  · exact Only.refl _ _

theorem State.answerReferral_only (q t src f) :
    Only [.track, .line, .slot0, .slot1, .chutes, .report] s (s.answerReferral q t src f) :=
  ((((s.modPocket_only _ _).mono (by decide)).trans ((State.modReport_only _ _).mono (by decide))).trans
    ((State.bumpLotOf_only _ _ _).mono (by decide))).trans (State.commit_only _ _ _)

theorem State.defaultMeasuring_only (q d) :
    Only [.track, .line, .slot0, .slot1, .chutes, .report] s (s.defaultMeasuring q d) := by
  unfold State.defaultMeasuring; split
  · unfold State.classifyLast; split
    · exact Only.refl _ _
    · split
      · exact s.decide_only _ _ _ _
      · exact s.decide_only _ _ _ _
  · exact s.decide_only _ _ _ _

theorem State.leaveDecide_only (q) : Only [.track, .line, .slot0, .slot1, .chutes, .report] s (s.leaveDecide q) := by
  unfold State.leaveDecide; split
  · exact Only.refl _ _
  · split
    · exact s.answerReferral_only _ _ _ _
    · exact s.decide_only _ _ _ _
    · exact s.defaultMeasuring_only _ _
    all_goals exact Only.refl _ _

/-! ### The scheduler -/

theorem State.grantPass_only (ch) : Only [.chanA, .chanB, .sched] s (s.grantPass ch) := by
  unfold State.grantPass; split
  · split
    · exact ((s.modSched_only _).mono (by decide)).trans ((State.modChan_only _ _ _).mono (by decide))
    · exact Only.refl _ _
  · exact Only.refl _ _

theorem State.noTime_only (r) : Only [.chanA, .chanB] s (s.noTime r) := s.modChan_only _ _

theorem State.noTimes_only (l : List SchedReq) : Only [.chanA, .chanB] s (l.foldl State.noTime s) :=
  Only.foldl State.noTime_only l s

theorem State.dropLate_only : Only [.chanA, .chanB, .sched] s s.dropLate :=
  ((s.noTimes_only (s.sched.requests.filter fun r => !s.keeps r)).mono (by decide)).trans
    ((State.modSched_only _ fun q => { q with requests := q.requests.filter s.keeps }).mono (by decide))

theorem State.review_only : Only [.chanA, .chanB, .sched] s s.review := by
  unfold State.review; split
  · exact Only.refl _ _
  · exact ((s.dropLate_only).trans (State.grantPass_only _ _)).trans (State.grantPass_only _ _)

theorem State.offer_only : Only [.line, .chanA, .chanB, .sched] s s.offer :=
  ((s.review_only).mono (by decide)).trans ((State.judgeDwell_only _).mono (by decide))

/-! ### The transmitter -/

theorem State.takeFrom_only (l) : Only [.report, .choices] s (s.takeFrom l) := by
  unfold State.takeFrom; split
  · exact Only.refl _ _
  · split
    · exact Only.refl _ _
    · exact (s.modReport_only _).mono (by decide)
    · exact ((s.modReport_only _).mono (by decide)).trans ((State.modChoices_only _ _).mono (by decide))

/-- The transmitter writes the Report Queue and the counter of open choices alone. -/
theorem State.transmit_only : Only [.report, .choices] s s.transmit := s.takeFrom_only _

theorem State.transmitTop_only : Only [.report, .choices] s s.transmitTop := s.takeFrom_only _

theorem State.frameSent_only : Only [.report] s s.frameSent := by
  unfold State.frameSent; split
  · exact Only.refl _ _
  · split
    · exact s.modReport_only _
    · exact s.modReport_only _

end

end Sys2Proof.Machine
end

