-- ==== Sys2Proof/Laws/PerInstr.lean ====
section
/-! SUPPORT. A statement about every command as syntax, one lemma per constructor: the request it carries has a type that
the Link Port hands on. -/

namespace Sys2Proof.Laws

/-- The request a command carries, if any, has a type that R171 neither discards nor calls unknown. -/
def RequestTyped.Statement (i : Instr) : Prop :=
  match i.request with
  | some (_, r) => r.typeCode.toNat < 0x71 ∧ (requestLength r.typeCode.toNat r.payload).isSome = true
  | none => True

theorem RequestTyped.powerOnReset (motion baud1 baud0 : Bool) :
    RequestTyped.Statement (.powerOnReset motion baud1 baud0) := trivial
theorem RequestTyped.indexStart (loadSense checkSense : Bool) :
    RequestTyped.Statement (.indexStart loadSense checkSense) := trivial
theorem RequestTyped.settle : RequestTyped.Statement .settle := trivial
theorem RequestTyped.frameTaken (ch : Chan) (symbols : List LinkSymbol) :
    RequestTyped.Statement (.frameTaken ch symbols) := trivial
theorem RequestTyped.watchdogExpiry (ch : Chan) : RequestTyped.Statement (.watchdogExpiry ch) := trivial
theorem RequestTyped.relaySettleExpiry (ch : Chan) : RequestTyped.Statement (.relaySettleExpiry ch) := trivial
theorem RequestTyped.dwellBudgetExpiry : RequestTyped.Statement .dwellBudgetExpiry := trivial
theorem RequestTyped.motionTimerExpiry : RequestTyped.Statement .motionTimerExpiry := trivial
theorem RequestTyped.stallTimerExpiry : RequestTyped.Statement .stallTimerExpiry := trivial
theorem RequestTyped.jetCompletion (chute : Nat) : RequestTyped.Statement (.jetCompletion chute) := trivial
theorem RequestTyped.stalenessExpiry : RequestTyped.Statement .stalenessExpiry := trivial
theorem RequestTyped.linkFrameReceived (bytes : List LinkByte) :
    RequestTyped.Statement (.linkFrameReceived bytes) := trivial
theorem RequestTyped.gapExpiry : RequestTyped.Statement .gapExpiry := trivial
theorem RequestTyped.huntingPause : RequestTyped.Statement .huntingPause := trivial
theorem RequestTyped.requestTaken (calen : Bool) : RequestTyped.Statement (.requestTaken calen) := trivial
theorem RequestTyped.transmitEnd : RequestTyped.Statement .transmitEnd := trivial
theorem RequestTyped.ident (tag : Byte) : RequestTyped.Statement (.ident tag) := ⟨Nat.le_of_ble_eq_true rfl, rfl⟩
theorem RequestTyped.trackSet (tag : Byte) (req : TrackSetReq) :
    RequestTyped.Statement (.trackSet tag req) := ⟨Nat.le_of_ble_eq_true rfl, rfl⟩
theorem RequestTyped.trackRead (tag : Byte) :
    RequestTyped.Statement (.trackRead tag) := ⟨Nat.le_of_ble_eq_true rfl, rfl⟩
theorem RequestTyped.chuteConfigure (tag : Byte) (chute : Nat) (fields : ChuteFields) :
    RequestTyped.Statement (.chuteConfigure tag chute fields) := ⟨Nat.le_of_ble_eq_true rfl, rfl⟩
theorem RequestTyped.chuteRemove (tag : Byte) (chute : Nat) :
    RequestTyped.Statement (.chuteRemove tag chute) := ⟨Nat.le_of_ble_eq_true rfl, rfl⟩
theorem RequestTyped.chanSet (tag : Byte) (req : ChanSetReq) :
    RequestTyped.Statement (.chanSet tag req) := ⟨Nat.le_of_ble_eq_true rfl, rfl⟩
theorem RequestTyped.chanRead (tag : Byte) (chan : Nat) :
    RequestTyped.Statement (.chanRead tag chan) := ⟨Nat.le_of_ble_eq_true rfl, rfl⟩
theorem RequestTyped.chanReset (tag : Byte) (chan : Nat) :
    RequestTyped.Statement (.chanReset tag chan) := ⟨Nat.le_of_ble_eq_true rfl, rfl⟩
theorem RequestTyped.chanRestore (tag : Byte) (chan : Nat) :
    RequestTyped.Statement (.chanRestore tag chan) := ⟨Nat.le_of_ble_eq_true rfl, rfl⟩
theorem RequestTyped.lotLoad (tag : Byte) (req : LotLoadReq) :
    RequestTyped.Statement (.lotLoad tag req) := ⟨Nat.le_of_ble_eq_true rfl, rfl⟩
theorem RequestTyped.lotArm (tag : Byte) (slot : Nat) :
    RequestTyped.Statement (.lotArm tag slot) := ⟨Nat.le_of_ble_eq_true rfl, rfl⟩
theorem RequestTyped.lotFree (tag : Byte) (slot : Nat) :
    RequestTyped.Statement (.lotFree tag slot) := ⟨Nat.le_of_ble_eq_true rfl, rfl⟩
theorem RequestTyped.lotRead (tag : Byte) (slot : Nat) :
    RequestTyped.Statement (.lotRead tag slot) := ⟨Nat.le_of_ble_eq_true rfl, rfl⟩
theorem RequestTyped.lineStart (tag : Byte) (budgetMs motionLimitMs stallLimitMs : Nat) :
    RequestTyped.Statement (.lineStart tag budgetMs motionLimitMs stallLimitMs) := ⟨Nat.le_of_ble_eq_true rfl, rfl⟩
theorem RequestTyped.lineStop (tag : Byte) : RequestTyped.Statement (.lineStop tag) := ⟨Nat.le_of_ble_eq_true rfl, rfl⟩
theorem RequestTyped.lineDrain (tag : Byte) :
    RequestTyped.Statement (.lineDrain tag) := ⟨Nat.le_of_ble_eq_true rfl, rfl⟩
theorem RequestTyped.lineResume (tag : Byte) :
    RequestTyped.Statement (.lineResume tag) := ⟨Nat.le_of_ble_eq_true rfl, rfl⟩
theorem RequestTyped.lineClear (tag : Byte) :
    RequestTyped.Statement (.lineClear tag) := ⟨Nat.le_of_ble_eq_true rfl, rfl⟩
theorem RequestTyped.lineReset (tag : Byte) :
    RequestTyped.Statement (.lineReset tag) := ⟨Nat.le_of_ble_eq_true rfl, rfl⟩
theorem RequestTyped.pocketRead (tag : Byte) (pocket : Nat) :
    RequestTyped.Statement (.pocketRead tag pocket) := ⟨Nat.le_of_ble_eq_true rfl, rfl⟩
theorem RequestTyped.pocketPurge (tag : Byte) (pocket : Nat) :
    RequestTyped.Statement (.pocketPurge tag pocket) := ⟨Nat.le_of_ble_eq_true rfl, rfl⟩
theorem RequestTyped.verdict (tag : Byte) (serial choice : Nat) :
    RequestTyped.Statement (.verdict tag serial choice) := ⟨Nat.le_of_ble_eq_true rfl, rfl⟩
theorem RequestTyped.boxExchanged (tag : Byte) (chute : Nat) :
    RequestTyped.Statement (.boxExchanged tag chute) := ⟨Nat.le_of_ble_eq_true rfl, rfl⟩
theorem RequestTyped.tempSet (tag : Byte) (centi : Int) :
    RequestTyped.Statement (.tempSet tag centi) := ⟨Nat.le_of_ble_eq_true rfl, rfl⟩
theorem RequestTyped.calRead (tag : Byte) : RequestTyped.Statement (.calRead tag) := ⟨Nat.le_of_ble_eq_true rfl, rfl⟩
theorem RequestTyped.calWrite (tag : Byte) (pairs : List CalPair) (calen : Bool) :
    RequestTyped.Statement (.calWrite tag pairs calen) := ⟨Nat.le_of_ble_eq_true rfl, rfl⟩
theorem RequestTyped.calWriteCompletion : RequestTyped.Statement .calWriteCompletion := trivial
theorem RequestTyped.countRead (tag : Byte) (group index clear : Nat) :
    RequestTyped.Statement (.countRead tag group index clear) := ⟨Nat.le_of_ble_eq_true rfl, rfl⟩
theorem RequestTyped.eventMask (tag : Byte) (mask : Nat) :
    RequestTyped.Statement (.eventMask tag mask) := ⟨Nat.le_of_ble_eq_true rfl, rfl⟩

end Sys2Proof.Laws
end

