-- ==== Sys2Proof/Laws/Replies.lean ====
section
/-! SUPPORT. The transmitter and the replies: what an IDLE transmitter takes, and what a request taken at once leaves. -/

namespace Sys2Proof.Machine

/-- A SENDING transmitter takes nothing (R179). -/
theorem State.transmit_sending {s : State} {f : Frame} (h : s.report.tx = some f) : s.transmit = s := by
  simp [State.transmit, State.takeFrom, h]

/-- With nothing to send the transmitter stays as it is (R179). -/
theorem State.transmit_nothing {s : State} (h : s.report.waiting = []) : s.transmit = s := by
  unfold State.transmit State.takeFrom
  rw [h]
  split <;> rfl

/-- A step that leaves nothing takeable at an IDLE transmitter leaves the transmitter alone. -/
theorem State.transmit_quiet {s : State} (h : TransmitInv s) : s.transmit = s := by
  cases hx : s.report.tx with
  | some f => exact State.transmit_sending hx
  | none => exact State.transmit_nothing (h hx)

/-- A reply placed where nothing waits: taken at once by an IDLE transmitter, else left in the slot (R180). -/
theorem State.place_transmit {s : State} (h : TransmitInv s) (hr : s.report.reply = none) (f : Frame) :
    (s.place f).transmit = s.replied f := by
  cases hx : s.report.tx with
  | some g =>
    have h1 : (s.place f).report.tx = some g := hx
    rw [State.transmit_sending h1]
    simp [State.replied, Report.afterReply, State.place, State.modReport, hx]
  | none =>
    have hw : s.report.waiting = [] := h hx
    have h1 : (s.place f).report.waiting = [.reply] := by
      have h2 : (s.place f).report.waiting = .reply :: s.report.waiting := by
        simp [State.place, Report.waiting, hr]
        rfl
      rw [h2, hw]
    have h3 : (s.place f).report.tx = none := hx
    unfold State.transmit State.takeFrom
    rw [h3, h1]
    simp [State.replied, Report.afterReply, State.place, State.modReport, Report.take, hx, hr]

/-- A Link Port that takes at once has an empty reply slot. -/
theorem State.takesAtOnce_reply {s : State} (h : s.takesAtOnce = true) : s.report.reply = none := by
  simp [State.takesAtOnce, State.linkFree] at h
  exact h.1.2

/-- A request taken at once is its owner's answer placed as a reply (R171). -/
theorem State.ask_taken {s : State} (h : s.takesAtOnce = true) (tag : Byte) (r : Request) (o : State → Answer × State) :
    s.ask tag r o = (o s).2.place (replyFrame r.typeCode tag (o s).1.status (o s).1.fields) := by
  simp [State.ask, h, State.reply, State.answer]

/-- A request that cannot be taken at once joins the receive buffer or overflows it (R170). -/
theorem State.ask_waits {s : State} (h : s.takesAtOnce = false) (tag : Byte) (r : Request) (o : State → Answer × State) :
    s.ask tag r o = s.bufferFrame (r.frame tag) := by
  simp [State.ask, h]

/-- A request taken at once whose owner leaves the Report Queue alone: its reply placed, all else as the owner left it. -/
theorem State.ask_transmit {s : State} (h : s.taking) (tag : Byte) (r : Request) (o : State → Answer × State)
    (ho : (o s).2.report = s.report) :
    (s.ask tag r o).transmit = (o s).2.replied (replyFrame r.typeCode tag (o s).1.status (o s).1.fields) := by
  rw [State.ask_taken h.1]
  refine State.place_transmit ?_ ?_ _
  · intro hx; rw [ho] at hx ⊢; exact h.2 hx
  · rw [ho]; exact State.takesAtOnce_reply h.1

/-- The same for the transmitter's judgement after a change of the event mask. -/
theorem State.transmitTop_quiet {s : State} (h : TransmitInv s) : s.transmitTop = s := by
  unfold State.transmitTop State.takeFrom
  cases hx : s.report.tx with
  | some f => rfl
  | none => rw [h hx]; rfl

end Sys2Proof.Machine
end

