-- ==== Sys2Proof/Tests/Slice0.lean ====
section
/-! SUPPORT. Own tests: ill-formed requests refused, the manual's worked examples, and for each statement with hypotheses a
state and operands that meet them all together. -/

namespace Sys2Proof.Tests

open Sys2Proof Sys2Proof.Machine

/-! ### WellFormed smoke: one ill-formed term for each check -/

theorem test_wf_track_byte : (Request.trackSet ⟨256, [1], 2, 3⟩).wf = false := by decide
theorem test_wf_track_position : (Request.trackSet ⟨12, [1, 256], 2, 3⟩).wf = false := by decide
theorem test_wf_track_decide : (Request.trackSet ⟨12, [1], 256, 3⟩).wf = false := by decide
theorem test_wf_track_check : (Request.trackSet ⟨12, [1], 2, 256⟩).wf = false := by decide
theorem test_wf_chute : (Request.chuteSet 256 0 ⟨0, 0, 0, 0, 0⟩).wf = false := by decide
theorem test_wf_chute_action : (Request.chuteSet 1 256 ⟨0, 0, 0, 0, 0⟩).wf = false := by decide
theorem test_wf_chute_fields : [ChuteFields.mk 256 0 0 0 0, ⟨0, 65536, 0, 0, 0⟩, ⟨0, 0, 65536, 0, 0⟩, ⟨0, 0, 0, 256, 0⟩,
    ⟨0, 0, 0, 0, 65536⟩].all (fun f => !f.wf) = true := by decide
theorem test_wf_chan_fields : [ChanSetReq.mk 256 0 0 0 0 0 0, ⟨0, 65536, 0, 0, 0, 0, 0⟩, ⟨0, 0, 256, 0, 0, 0, 0⟩,
    ⟨0, 0, 0, 65536, 0, 0, 0⟩, ⟨0, 0, 0, 0, 256, 0, 0⟩, ⟨0, 0, 0, 0, 0, 65536, 0⟩, ⟨0, 0, 0, 0, 0, 0, 65536⟩].all
    (fun r => !(Request.chanSet r).wf) = true := by decide
theorem test_wf_one_byte : [Request.chanRead 256, .chanReset 256, .chanRestore 256, .lotArm 256, .lotFree 256, .lotRead 256,
    .pocketRead 256, .pocketPurge 256, .boxExchanged 256].all (fun r => !r.wf) = true := by decide
theorem test_wf_line_start : [Request.lineStart 65536 0 0, .lineStart 0 65536 0, .lineStart 0 0 65536].all
    (fun r => !r.wf) = true := by decide
theorem test_wf_verdict : [Request.verdict 4294967296 0, .verdict 1 256].all (fun r => !r.wf) = true := by decide
theorem test_wf_temp : [Request.tempSet 32768, .tempSet (-32769)].all (fun r => !r.wf) = true := by decide
theorem test_wf_cal_write : [Request.calWrite [], .calWrite (List.replicate 6 ⟨2 ^ 64, 0⟩),
    .calWrite (List.replicate 6 ⟨0, 2 ^ 32⟩)].all (fun r => !r.wf) = true := by decide
theorem test_wf_count_read : [Request.countRead 256 0 0, .countRead 0 256 0, .countRead 0 0 256].all
    (fun r => !r.wf) = true := by decide
theorem test_wf_event_mask : (Request.eventMask 65536).wf = false := by decide
theorem test_wf_jet_chute : [Instr.jetCompletion 0, .jetCompletion 21].all (fun i => !i.wf) = true := by decide

/-- A LOT.LOAD whose fields pass at the machine tLine below. -/
def tLot : LotLoadReq :=
  { slot := 1, lotNumber := 99999999, labelLen := 24, labelChars := List.replicate 24 126, range := 4, rnom := 80000000,
    tcr := -5000, emfLimit := 1000000, retryLimit := 7, rejectChute := 1, retestChute := 5, mode := 1, fallback := 1,
    referral := 1, gradeCount := 2, grades := [⟨1, 100000⟩, ⟨512, 0⟩, ⟨0, 0⟩, ⟨0, 0⟩], classCount := 2,
    classes := [⟨-999999, 999999, 3⟩, ⟨-5000, 5000, 4⟩] ++ List.replicate 14 ⟨0, 0, 0⟩ }

theorem test_wf_lot : tLot.wf = true := by decide
theorem test_wf_lot_fields : [{ tLot with slot := 256 }, { tLot with lotNumber := 4294967296 }, { tLot with labelLen := 256 },
    { tLot with labelChars := [] }, { tLot with labelChars := List.replicate 24 256 }, { tLot with range := 256 },
    { tLot with rnom := 2 ^ 64 }, { tLot with tcr := 32768 }, { tLot with emfLimit := 4294967296 },
    { tLot with retryLimit := 256 }, { tLot with rejectChute := 256 }, { tLot with retestChute := 256 },
    { tLot with mode := 256 }, { tLot with fallback := 256 }, { tLot with referral := 256 },
    { tLot with gradeCount := 256 }, { tLot with grades := [] }, { tLot with grades := List.replicate 4 ⟨65536, 0⟩ },
    { tLot with grades := List.replicate 4 ⟨0, 4294967296⟩ }, { tLot with classCount := 256 }, { tLot with classes := [] },
    { tLot with classes := List.replicate 16 ⟨2147483648, 0, 0⟩ },
    { tLot with classes := List.replicate 16 ⟨0, -2147483649, 0⟩ },
    { tLot with classes := List.replicate 16 ⟨0, 0, 256⟩ }].all (fun r => !r.wf) = true := by decide

/-! ### Worked examples of the manual -/

/-- R167: the check code of the nine bytes 31H..39H. -/
theorem test_check_code :
    checkCode [0x31#8, 0x32#8, 0x33#8, 0x34#8, 0x35#8, 0x36#8, 0x37#8, 0x38#8, 0x39#8] = 0x6F91#16 := by decide +kernel

/-- R93: the table of dev_raw. -/
theorem test_rounding : [2000001, 2000002, 2000000, 1999999, 1999997].map (fun d => devRaw 10000000 10000000 d 2000000) =
    [1, 1, 0, -1, -2] := by decide

/-- R92: a part of twice Rnom, and one of zero resistance. -/
theorem test_dev_raw : devRaw 10000000 10000000 4000000 2000000 = 1000000 ∧ devRaw 10000000 10000000 0 2000000 = -1000000 := by
  decide

/-- R94: the table of tcorr. -/
theorem test_temperature : tempCorrection 250 (.current 3150) = 163 ∧ tempCorrection 250 (.held 1850) = -163 ∧
    tempCorrection (-1000) (.current 4000) = -1500 ∧ tempCorrection 5000 (.current 12500) = 50000 ∧
    tempCorrection 5000 .neverSet = 0 := by decide

/-- R77: the table of expected durations. -/
theorem test_expected : Channel.powerOn.expected 4 = 3600 ∧ Channel.powerOn.expected 32 = 9200 ∧
    Channel.powerOn.expected 64 = 15600 ∧
    ({ Channel.powerOn with relaySettle := 10, settleFrames := 2, framePeriod := 50 } : Channel).expected 128 = 14000 ∧
    ({ Channel.powerOn with relaySettle := 500, settleFrames := 64, framePeriod := 2000 } : Channel).expected 512 =
      2354000 := by decide

/-- The class table of section 7.6 of 07: bands ±100, ±500, ±1,000, ±10,000, and its grade plan. -/
def tBands (mode : DecisionMode) : LotDef :=
  { lotNumber := 1, label := [], range := 4, rnom := 10000000, tcr := 0, emfLimit := 0, retryLimit := 0, rejectChute := 1,
    retestChute := 1, mode := mode, fallback := .retest, referral := false, grades := [⟨4, 200⟩, ⟨32, 40⟩, ⟨128, 0⟩],
    classes := [⟨-100, 100, 2⟩, ⟨-500, 500, 3⟩, ⟨-1000, 1000, 4⟩, ⟨-10000, 10000, 5⟩] }

/-- The judgements tabled in 07: +149 at grade 1, +131 at grade 2, +128 at grade 3 in PRESERVE. -/
theorem test_ladder : judgement (tBands .preserve) 149 ⟨false, false, false⟩ 1 = .undecided ∧
    judgement (tBands .preserve) 131 ⟨false, false, false⟩ 2 = .undecided ∧
    judgement (tBands .preserve) 128 ⟨false, false, false⟩ 3 = .cls 2 .final := by decide

/-- The judgements tabled in 07 for +60, +61, +10,200, +10,201 and −999,999 OVER-RANGE. -/
theorem test_judgements : judgement (tBands .preserve) 60 ⟨false, false, false⟩ 2 = .cls 1 .early ∧
    judgement (tBands .preserve) 61 ⟨false, false, false⟩ 2 = .undecided ∧
    judgement (tBands .downgrade) 61 ⟨false, false, false⟩ 2 = .cls 2 .early ∧
    judgement (tBands .downgrade) 10200 ⟨false, false, false⟩ 1 = .undecided ∧
    judgement (tBands .downgrade) 10201 ⟨false, false, false⟩ 1 = .noClass .early ∧
    judgement (tBands .preserve) (-999999) ⟨true, false, false⟩ 1 = .noClass .final ∧
    judgement (tBands .preserve) 10000 ⟨false, false, false⟩ 3 = .cls 4 .final := by decide

/-- R91: the source threshold at N 4. -/
theorem test_source : (⟨.check, 4, 1, 0, 0, 160000, 0, -160000, false, false, 0⟩ : Job).sourceOk = true ∧
    (⟨.check, 4, 1, 0, 0, 160000, 0, -159999, false, false, 0⟩ : Job).sourceOk = false := by decide

/-! ### States for the witnesses -/

def tDef : LotDef :=
  { lotNumber := 77, label := [65, 66], range := 4, rnom := 10000000, tcr := 250, emfLimit := 0, retryLimit := 2,
    rejectChute := 1, retestChute := 2, mode := .preserve, fallback := .retest, referral := true,
    grades := [⟨1, 100⟩, ⟨2, 0⟩], classes := [⟨-1000, 1000, 3⟩, ⟨-5000, 5000, 4⟩] }

def tChute (pos : Nat) : Chute := ⟨some ⟨pos, 3, 2, none, 3⟩, 0, 0, 0, none, 0, 0⟩

def tPairs : List CalPair := List.replicate 6 ⟨10000000, 1000000000⟩

/-- All six trims of a channel present. -/
def tTrims : List (Option Trim) := List.replicate 6 (some ⟨-10000, 0⟩)

/-- A configured turret of 12 pockets in IDLE: five chutes, a lot ACTIVE, both channels IN_SERVICE, every trim present. -/
def tLine : State :=
  { State.reset with
    track := ⟨12, [1, 2, 3], 4, 10, 0, 0, List.replicate 12 .emptied, 1, false⟩
    chanA := { Channel.powerOn with service := .inService, watchdog := some 800 }
    chanB := { Channel.powerOn with service := .inService, watchdog := some 800 }
    slot0 := ⟨.active, some tDef, 0, some 1, .zero⟩
    chutes := [tChute 5, tChute 6, tChute 7, tChute 8, tChute 9] ++ List.replicate 15 .powerOn
    cal := ⟨⟨⟨tPairs, 1⟩, none⟩, ⟨tPairs, 1⟩, true, tTrims, tTrims, false, false⟩ }

/-- The same with a frame being sent. -/
def sending (s : State) : State := { s with report := { s.report with tx := some ⟨0x81#8, 0x01#8, []⟩ } }

/-- A line state with MOTION and the phase that goes with it. -/
def lineAt (s : State) (l : LineState) (motion : Bool) : State :=
  { s with
    pins := { s.pins with motion := motion }
    line := { s.line with
      state := l, phase := restPhase motion, ready := l.worked && !motion, fault := l == .faulted,
      firstFault := if l = .faulted then some (.jam, .pocket 3) else none,
      motionTimer := if l.underWay && motion then some 250000 else none } }

/-- A pocket of lot slot 0. -/
def tPocket (st : PocketState) (serial : Nat) (chute : Option Nat) : Pocket :=
  { Pocket.emptied with
    state := st, serial := some serial, slot := some .s0, chute := chute, retries := some 1,
    target := if st = .decided ∨ st = .held ∨ st = .ejected then some (chute.getD 1) else none,
    attempts := if st = .measuring then [⟨1, .A, 1, .accepted, some 0, some ⟨false, false, false⟩⟩] else [],
    decision := if st = .loaded ∨ st = .measuring then none else some ⟨some 1, .early, some 1⟩ }

/-- s with pocket q as given, its slot's resident count and its chute's accounts to match. -/
def hold (s : State) (q : Nat) (p : Pocket) : State :=
  let t := (s.modPocket q fun _ => p).modSlot0 fun sl => { sl with resident := sl.resident + 1 }
  match p.chute with
  | none => t
  | some c => t.modChute c fun e =>
    if p.state = .decided then { e with inFlight := e.inFlight + 1 } else { e with fill := e.fill + 1 }

/-- A station job at pocket 11, which stands at CS1 with φ 2, on channel A. -/
def tJob : Job := ⟨.station 1 11 1, 2, 4, 0, 0, 0, 0, 0, false, false, 2⟩

/-- A RUN line in WORKING with tJob in a job state on channel A. -/
def tWorking (st : JobState) : State :=
  let s := hold (lineAt tLine .run false) 11 (tPocket .loaded 4294967295 none)
  { s with
    track := { s.track with phi := 2, nextSerial := 1 }
    line := { s.line with phase := .working, ready := false, budget := some 20000 }
    chanA := { s.chanA with
      job := some tJob, jobState := st, relay := .station 1, range := 4,
      relayTimer := if st = .connecting then some 2000 else none }
    sched := ⟨[], some (.station 1 11 1 4), none⟩ }

/-! ### A state and operands that meet the hypotheses of each statement -/

theorem witness_OnlyTheirCommandsWrite : ∃ t, exec (.trackRead 1) tLine = .next t := ⟨_, rfl⟩

theorem witness_PowerOnValues : tLine.link.inProgress = none ∧
    ({ tLine with link := { tLine.link with inProgress := some ⟨1, tPairs, 0⟩ } } : State).link.inProgress ≠ none := by decide

theorem witness_TrackUnconfiguredAtPowerOn : State.reset.pins.motion = false ∧
    ({ State.reset with track := { Track.powerOn with k := 4294967295 } } : State).track =
      { Track.powerOn with k := 4294967295 } := by decide

/-- A WORKING line with a job on channel A. -/
theorem witness_LineInvariantKept : LineInv (tWorking .samplePos) ∧ DwellInv (tWorking .samplePos) ∧
    ∃ t, step (tWorking .samplePos) = .next t := by
  refine ⟨by unfold LineInv HandshakeInv FaultInv TimerInv; decide, by unfold DwellInv; decide, _, rfl⟩

theorem witness_ChannelInvariantKept : ChannelsInv (tWorking .connecting) ∧ ∃ t, step (tWorking .connecting) = .next t := by
  refine ⟨by unfold ChannelsInv ChannelInv; decide, _, rfl⟩

theorem witness_LotInvariantKept : ShapeInv (tWorking .samplePos) ∧ LotsInv (tWorking .samplePos) ∧
    ∃ t, step (tWorking .samplePos) = .next t := by
  refine ⟨by unfold ShapeInv; decide, by unfold LotsInv SlotInv OneActive; decide, _, rfl⟩

/-- A DECIDED pocket committed to chute 1 and an EJECTED one in chute 5. -/
def tTwo : State := hold (hold tLine 2 (tPocket .decided 7 (some 1))) 3 (tPocket .ejected 8 (some 5))

theorem witness_ChuteAccountsKept : ShapeInv tTwo ∧ LineInv tTwo ∧ DwellInv tTwo ∧ ChutesInv tTwo ∧
    ∃ t, step tTwo = .next t := by
  refine ⟨by unfold ShapeInv; decide, by unfold LineInv HandshakeInv FaultInv TimerInv; decide, by unfold DwellInv; decide,
    ?_, _, rfl⟩
  intro c h1 h2
  unfold ChuteInv
  interval_cases c <;> decide

theorem witness_SerialsStayDistinct : ShapeInv tTwo ∧ SerialInv tTwo ∧ ∃ t, step tTwo = .next t := by
  refine ⟨by unfold ShapeInv; decide, by unfold SerialInv; decide, _, rfl⟩

/-- A WORKING line with a job at pocket 11 and pocket 3, DECIDED, past DECIDE. -/
def tBusy : State := hold (tWorking .samplePos) 3 (tPocket .decided 9 (some 2))

theorem witness_SerialsStayDistinct_pockets : ShapeInv tBusy ∧ LineInv tBusy ∧ DwellInv tBusy ∧ LotsInv tBusy ∧
    PocketsInv tBusy ∧ tBusy.track.decidePos < tBusy.track.positionOf 3 ∧ ∃ t, step tBusy = .next t := by
  refine ⟨by unfold ShapeInv; decide, by unfold LineInv HandshakeInv FaultInv TimerInv; decide, by unfold DwellInv; decide,
    by unfold LotsInv SlotInv OneActive; decide, ⟨by unfold GeometryInv; decide, ?_, ?_, ?_, ?_⟩, by decide, _, rfl⟩
  · unfold PocketInv PocketState.targeted; decide
  · unfold PassedInv PocketState.targeted; decide
  · intro ch j hj i q g hk
    cases ch
    · obtain rfl : tJob = j := Option.some.inj hj
      cases hk; decide
    · exact absurd hj (by simp [State.chan, tBusy, hold, tWorking, lineAt, tLine, Channel.powerOn, tPocket, State.modChute,
        State.modChutes, State.modSlot0, State.modPocket, State.modTrack])
  · intro i q sl g n r h
    exact absurd h (by simp [tBusy, hold, tWorking, tPocket, State.modChute, State.modChutes, State.modSlot0, State.modPocket,
      State.modTrack])

/-- Every queue full. -/
def tCrowded : State :=
  { sending tTwo with
    link := { tTwo.link with buffer := List.replicate 4 ⟨0x11#8, 0x02#8, []⟩ }
    report := { (sending tTwo).report with
      refer := List.replicate 48 ⟨1, 0, .s0, 1, 0, 4, true⟩
      part := List.replicate 64 ⟨1, 0, 1, 1, .lost, none, none, none, false, 0, 0, []⟩ } }

theorem witness_QueuesKept : QueueInv tCrowded ∧ TransmitInv tCrowded ∧ ∃ t, step tCrowded = .next t := by
  refine ⟨by unfold QueueInv; decide, by unfold TransmitInv; decide, _, rfl⟩

/-! Index start. -/

theorem witness_IndexStartWork : (lineAt tLine .run true).pins.motion = true ∧ TransmitInv (lineAt tLine .run true) ∧
    (lineAt tLine .run false).pins.motion = false ∧ (lineAt tLine .run false).track.p ≠ 0 := by
  unfold TransmitInv; decide

/-- An unpermitted index: READY is low, a job runs at pocket 11, which stands at none of LOAD, DECIDE and CHECK. -/
theorem witness_IndexStartWork_unpermitted : (sending tBusy).pins.motion = false ∧
    ((sending tBusy).line.state.underWay && !(sending tBusy).line.ready) = true ∧ (sending tBusy).report.tx ≠ none ∧
    (sending tBusy).report.events.length = 14 ∧ (sending tBusy).report.event .unpermittedIndex = none ∧
    ((tLine.line.state.underWay && !tLine.line.ready) = false ∧ tLine.pins.motion = false) ∧
    ((sending tBusy).chan .A).job = some tJob ∧ tJob.kind = .station 1 11 1 ∧ 11 < (sending tBusy).track.pockets.length ∧
    ((sending tBusy).chan (chanOther .A)).job = none ∧
    (∀ pos ∈ [0, (sending tBusy).track.decidePos, (sending tBusy).track.checkPos], 11 ≠ (sending tBusy).track.pocketAt pos) := by
  decide

/-- Pocket 0 leaves LOAD with its load permitted; the next serial is the last before the wrap. -/
def tLoad : State :=
  let s := lineAt tLine .run false
  { s with track := { s.track with loadPermit := true, nextSerial := 4294967295 } }

theorem witness_IndexLoadsPart : ShapeInv tLoad ∧ DwellInv tLoad ∧ tLoad.pins.motion = false ∧
    tLoad.line.phase = .waiting ∧ tLoad.track.p ≠ 0 ∧ 0 < tLoad.track.decidePos ∧ tLoad.track.decidePos < tLoad.track.p ∧
    tLoad.track.checkPos < tLoad.track.p ∧ (∀ pos ∈ [0, 4, 10], (tLoad.pocket (tLoad.track.pocketAt pos)).state = .empty) ∧
    tLoad.track.loadPermit = true ∧ tLoad.activeSlot = some .s0 ∧ tLoad.pendingSlot = none ∧
    (tLoad.slot .s0).definition = some tDef := by
  unfold ShapeInv DwellInv; decide

/-- The premises that every clause of IndexLoadsPart shares. -/
def loading (s : State) : Bool :=
  s.track.pockets.length == s.track.p && s.track.p == 12 && s.track.phi == 0 && s.chutes.length == 20 &&
    s.report.events.length == 14 && s.dwellDone && !s.pins.motion && s.line.phase == .waiting && s.track.decidePos == 4 &&
    s.track.checkPos == 10 && (s.pocket 4).state == .empty && (s.pocket 10).state == .empty

/-- Pocket 0, on lap 2, at LOAD. -/
def tLap : State := hold (lineAt tLine .drain false) 0 { tPocket .decided 7 (some 1) with lap := 2 }

/-- A load miss; a foreign part with the memory clear, in RUN and with the line FAULTED or IDLE, and one with no slot ACTIVE. -/
theorem witness_IndexLoadsPart_others : loading tLap = true ∧ ShapeInv tLap ∧ DwellInv tLap ∧ (tLap.pocket 0).state ≠ .empty ∧
    loading tLoad = true ∧ loading (sending (lineAt tLine .run false)) = true ∧
    (sending (lineAt tLine .run false)).track.loadPermit = false ∧ (sending (lineAt tLine .run false)).report.tx ≠ none ∧
    (sending (lineAt tLine .run false)).report.event .foreignPart = none ∧ loading (lineAt tLine .faulted false) = true ∧
    (lineAt tLine .faulted false).track.loadPermit = false ∧ loading tLine = true ∧ tLine.line.state = .idle ∧
    loading { tLoad with slot0 := .freed } = true ∧ ({ tLoad with slot0 := .freed } : State).activeSlot = none ∧
    ({ tLoad with slot0 := .freed } : State).pendingSlot = none ∧ tLoad.track.loadPermit = true := by
  unfold ShapeInv DwellInv; decide

/-- Pocket 10, EJECTED into chute 5, leaves CHECK. -/
def tSorted : State := sending (hold (lineAt tLine .run false) 10 (tPocket .ejected 8 (some 5)))

/-- The premises that every clause of IndexFinishesSorted shares, for the pocket 10 at CHECK. -/
def finishing (s : State) : Bool :=
  s.track.pockets.length == s.track.p && s.track.p == 12 && s.track.phi == 0 && s.chutes.length == 20 &&
    s.report.events.length == 14 && s.dwellDone && !s.pins.motion && s.line.phase == .waiting && s.track.decidePos == 4 &&
    s.track.checkPos == 10 && s.track.pocketAt 10 == 10 && (s.pocket 10).slot == some .s0 &&
    (s.slot .s0).definition == some tDef && (s.pocket 0).state == .empty && (s.pocket 4).state == .empty &&
    s.report.part.length < 64 && s.report.tx == some ⟨0x81#8, 0x01#8, []⟩

/-- Pocket 10, the last of a DRAINING slot, DECIDED or HELD. -/
def tLast (st : PocketState) (chute : Option Nat) : State :=
  (sending (hold (lineAt tLine .run false) 10 (tPocket st 8 chute))).modSlot0 fun sl => { sl with state := .draining }

theorem witness_IndexFinishesSorted : finishing tSorted = true ∧ ShapeInv tSorted ∧ DwellInv tSorted ∧
    (tSorted.pocket 10).state = .ejected ∧ (tSorted.pocket 10).chute = some 5 ∧ (tSorted.slot .s0).state = .active ∧
    (tSorted.chute 5).oldBox = 0 := by
  unfold ShapeInv DwellInv; decide

theorem witness_IndexFinishesSorted_lost : finishing (tLast .decided (some 5)) = true ∧
    ShapeInv (tLast .decided (some 5)) ∧ DwellInv (tLast .decided (some 5)) ∧
    ((tLast .decided (some 5)).pocket 10).state = .decided ∧ ((tLast .decided (some 5)).pocket 10).chute = some 5 ∧
    ((tLast .decided (some 5)).slot .s0).state = .draining ∧ ((tLast .decided (some 5)).slot .s0).resident ≤ 1 ∧
    (tLast .decided (some 5)).report.lotEnd.length < 2 ∧ (tLast .decided (some 5)).report.event .partLost = none ∧
    finishing (tLast .held none) = true ∧ ((tLast .held none).pocket 10).state = .held ∧
    ((tLast .held none).pocket 10).chute = none := by
  unfold ShapeInv DwellInv; decide

/-- A first miss in RUN, and a second in STOPPED. -/
def tMissed : State := (lineAt tSorted .stopped false).modPocket 10 fun p => { p with misses := 1 }

theorem witness_EjectMissAndJam : 10 < tSorted.track.pockets.length ∧ 1 ≤ 5 ∧ 5 ≤ tSorted.chutes.length ∧
    (tSorted.pocket 10).state = .ejected ∧ (tSorted.pocket 10).chute = some 5 ∧ (tSorted.pocket 10).misses = 0 ∧
    10 < tMissed.track.pockets.length ∧ 5 ≤ tMissed.chutes.length ∧ (tMissed.pocket 10).state = .ejected ∧
    (tMissed.pocket 10).chute = some 5 ∧ (tMissed.pocket 10).misses ≠ 0 ∧ tMissed.line.state = .stopped := by decide

theorem witness_DrainEndsAtEmptyTrack : (lineAt tLine .drain false).pins.motion = false ∧
    (lineAt tLine .drain false).line.state = .drain ∧ (lineAt tLine .drain false).track.occupiedCount = 0 ∧
    (lineAt tSorted .drain false).line.state = .drain ∧ (lineAt tSorted .drain false).pins.motion = false ∧
    (lineAt tSorted .drain false).track.p ≠ 0 ∧ 10 = (lineAt tSorted .drain false).track.pocketAt 10 ∧
    (∃ t, exec (.indexStart false true) (lineAt tSorted .drain false) = .next t ∧ t.track.occupiedCount ≠ 0) ∧
    ∃ t, exec (.indexStart false false) (lineAt tSorted .drain false) = .next t ∧ t.track.occupiedCount = 0 := by
  refine ⟨by decide, by decide, by decide, by decide, by decide, by decide, by decide, ⟨_, rfl, by decide⟩, _, rfl, by decide⟩

theorem witness_DrainEndsAtEmptyTrack_last : ((lineAt tSorted .drain false).pocket 10).state.targeted ∧
    ∀ r, r ≠ 10 → ((lineAt tSorted .drain false).pocket r).state = .empty := by
  refine ⟨.inr (.inr (by decide)), fun r hr => ?_⟩
  by_cases h : r < 12
  · interval_cases r <;> first | exact absurd rfl hr | decide
  · have : (lineAt tSorted .drain false).track.pockets.length = 12 := by decide
    unfold State.pocket
    rw [List.getD, List.getElem?_eq_none (by omega)]
    rfl

/-! Settle and scheduling. -/

theorem witness_SettleTaken_at_rest : TransmitInv tLine ∧ tLine.pins.motion = false ∧
    (lineAt tTwo .stopping true).pins.motion = true ∧ (∀ p ∈ (lineAt tTwo .stopping true).track.pockets, p.state ≠ .held) ∧
    (lineAt tTwo .stopping true).line.state = .stopping ∧ (lineAt tTwo .faulted true).line.state = .faulted := by
  unfold TransmitInv; decide

/-- A RUN line in motion with an EJECTED and a REFERRED pocket. -/
def tQuiet : State := hold (hold (lineAt tLine .run true) 9 (tPocket .ejected 8 (some 5))) 4 (tPocket .referred 9 none)

theorem witness_SettleTaken_worked : TransmitInv tQuiet ∧ DwellInv tQuiet ∧ tQuiet.pins.motion = true ∧
    tQuiet.line.phase = .moving ∧ tQuiet.line.state.worked = true ∧
    (∀ p ∈ tQuiet.track.pockets, p.state = .empty ∨ p.state = .referred ∨ p.state = .ejected) ∧
    tQuiet.dueCheck .A = none ∧ tQuiet.dueCheck .B = none := by
  unfold TransmitInv DwellInv; decide

/-- Pockets 3 and 9, HELD for chute 1 at position 5: the retry of pocket 3 succeeds, that of pocket 9, past it, fails. -/
def tHeld (l : LineState) (motion : Bool) : State :=
  sending (hold (hold (lineAt tLine l motion) 9 (tPocket .held 8 none)) 3 (tPocket .held 9 none))

/-- Pocket 3 alone. -/
def tHeldOne (l : LineState) (motion : Bool) : State := sending (hold (lineAt tLine l motion) 3 (tPocket .held 9 none))

/-- The retries of a settle in RUN or DRAIN. -/
def tSettling (s : State) : State := State.retried
  { s with
    pins := { s.pins with motion := false }
    line := { s.line with phase := .working, motionTimer := none, budget := some (1000 * s.line.budgetMs) } }

theorem witness_SettleTaken_held : (tHeld .stopping true).report.tx = some ⟨0x81#8, 0x01#8, []⟩ ∧
    (tHeld .stopping true).pins.motion = true ∧ (tHeld .stopping true).line.state = .stopping ∧
    (tHeld .faulted true).line.state = .faulted ∧ (tHeld .run true).line.state.worked = true ∧
    (tHeld .run true).heldTargets = [(3, 1), (9, 1)] ∧
    ((tSettling (tHeld .run true)).pocket 3).state = .decided ∧ ((tSettling (tHeld .run true)).pocket 9).state = .held ∧
    (tHeldOne .drain true).heldTargets = [(3, 1)] ∧ ((tSettling (tHeldOne .drain true)).pocket 3).state = .decided := by
  decide +kernel

/-- Two requests and a check of channel B in the set, a time left that the check of 15,600 µs fits exactly. -/
def tSet : State :=
  { tLine with
    line := { tLine.line with budget := some 15600 }
    sched := ⟨[.station 1 1 .s0 1 4 4, .station 3 3 .s0 2 32 4, .check .B 4], none, none⟩ }

theorem witness_GrantsInOrder : (∀ i q sl g n r, .station i q sl g n r ∈ tSet.sched.requests → i ≤ tSet.track.stations.length) ∧
    (tSet.chan .B).service = .inService ∧ (tSet.chan .B).jobState = .idle ∧
    (∃ r ∈ tSet.sched.requests, tSet.fits .B r = true) ∧
    (∀ r ∈ ({ tSet with line := { tSet.line with budget := some 3599 } } : State).sched.requests,
      ({ tSet with line := { tSet.line with budget := some 3599 } } : State).fits .A r = false) ∧
    ¬((tWorking .samplePos).chanA.service = .inService ∧ (tWorking .samplePos).chanA.jobState = .idle) := by
  refine ⟨?_, by decide, by decide, by decide, by decide, by decide⟩
  intro i q sl g n r h
  simp only [tSet, List.mem_cons, List.not_mem_nil, or_false, SchedReq.station.injEq, reduceCtorEq] at h
  rcases h with ⟨rfl, _⟩ | ⟨rfl, _⟩ <;> decide

/-- At 15,600 µs left nothing is late; at 15,599 the check of B; at 3,599 a station request too, counted on A, where the durations
are equal, or on B, where a shorter frame period makes it shorter there. -/
theorem witness_GrantsInOrder_late : tSet.line.budget.getD 0 = 15600 ∧ tSet.chanA.cnt.noTime ≤ 4294967295 ∧
    tSet.chanB.cnt.noTime ≤ 4294967295 ∧ tSet.sched.requests ≠ [] ∧ tSet.sched.requests.countP (tSet.lateOn .B 15600) = 0 ∧
    tSet.sched.requests.countP (tSet.lateOn .B 15599) = 1 ∧ tSet.lateOn .A 3600 (.station 1 1 .s0 1 4 4) = false ∧
    tSet.lateOn .A 3599 (.station 1 1 .s0 1 4 4) = true ∧ tSet.lateOn .B 3599 (.station 1 1 .s0 1 4 4) = false ∧
    (tSet.modChan .B fun c => { c with framePeriod := 99 }).lateOn .B 3583 (.station 1 1 .s0 1 4 4) = true ∧
    tLine.sched.requests = [] := by decide

/-! Channels. -/

theorem witness_ConverterFrameRead : -8388608 ≤ (-8388608 : Int) ∧ (-8388608 : Int) ≤ 8388607 ∧
    -8388608 ≤ (8388607 : Int) ∧ (8388607 : Int) ≤ 8388607 ∧ (List.replicate 11 true).length = 11 := by decide

/-- The bits of a good frame with these codes and this echo. -/
def tBits (dut ref : Int) (echo : Bool) : List Bool :=
  converterBits dut ref (true, true, true, true) echo (List.replicate 11 false)

/-- A job in a job state, with a polarity driven. -/
def tSampling (st : JobState) (pol : Polarity) (j : Job) : State :=
  (tWorking st).modChan .A fun c => { c with pol := pol, job := some j }

theorem witness_GoodSampleAdded : TransmitInv (tWorking .samplePos) ∧ (tBits 100 (-100) false).length = 64 ∧
    ((tWorking .samplePos).chan .A).strict = false ∧ ((tWorking .samplePos).chan .A).receiver = .waiting ∧
    ((tWorking .samplePos).chan .A).service = .inService ∧ ((tWorking .samplePos).chan .A).job = some tJob ∧
    tJob.phaseCount + 1 < tJob.n ∧ (parseSample (tBits 100 (-100) false)).leads = true ∧
    (parseSample (tBits 100 (-100) false)).echo = ((tWorking .samplePos).chan .A).pol ∧
    ((tWorking .samplePos).chan .A).jobState = .samplePos ∧ ((tWorking .settleNeg).chan .A).jobState = .settleNeg ∧
    ((tWorking .settlePos).chan .A).jobState = .settlePos ∧
    ((tWorking .sampleNeg).chan .A).jobState = .sampleNeg ∧
    (parseSample (tBits 8388607 (-8388608) true)).echo = Polarity.negative ∧
    ((tSampling .samplePos .positive { tJob with phaseCount := 1 }).chan .A).job = some { tJob with phaseCount := 1 } ∧
    tJob.n ≤ ({ tJob with phaseCount := 1 } : Job).phaseCount + 1 := by
  unfold TransmitInv; decide

/-- What a channel takes with strict frame length off, and the sync that ends a frame with it on. -/
theorem witness_GoodSampleAdded_frames :
    ((tWorking .samplePos).chan .A).takes (.sync :: (tBits 100 (-100) false).map .bit) (tBits 100 (-100) false) .waiting ∧
    (((tWorking .samplePos).modChan .A fun c =>
        { c with strict := true, receiver := .counting true (tBits 100 (-100) false) }).chan .A).takes
      [.sync] (tBits 100 (-100) false) (.counting true []) :=
  ⟨⟨by decide, .inl ⟨by decide, by decide, rfl, rfl⟩⟩, ⟨by decide, .inr ⟨rfl, rfl, rfl⟩⟩⟩

/-- A station job of two samples with these differences of sums. -/
def tDone (dut ref : Int) : Job := { tJob with phaseCount := 2, sdp := dut, srp := ref }

/-- The last sample of a station job, against a trim of −10,000: a deviation of 950 at grade 1 is undecided, 0 is class 1,
10,000 is NO CLASS, and a weak reference is a source fault. The pocket is LOADED without a decision, its chute can take it. -/
theorem witness_GoodSampleAdded_complete : 11 < (tWorking .sampleNeg).track.pockets.length ∧
    ((tWorking .sampleNeg).pocket 11).slot = some .s0 ∧ ((tWorking .sampleNeg).slot .s0).definition = some tDef ∧
    tJob.kind = .station 1 11 1 ∧ (tWorking .sampleNeg).sched.requests = [] ∧
    ((tWorking .sampleNeg).pocket 11).state = .loaded ∧ ((tWorking .sampleNeg).pocket 11).decision = none ∧
    stationResult 10000000 tDef .neverSet (some ⟨-10000, 0⟩) (tDone 990950 1000000) =
      .measured .accepted 950 ⟨false, false, true⟩ ∧
    stationResult 10000000 { tDef with emfLimit := 1 } .neverSet (some ⟨-10000, 0⟩) (tDone 990950 1000000) =
      .measured .unstable 950 ⟨false, false, true⟩ ∧
    stationResult 10000000 tDef .neverSet none (tDone 0 159999) = .sourceFault ∧
    ((tWorking .sampleNeg).chan .A).srcRun < 2 ∧ ((tWorking .sampleNeg).chan (chanOther .A)).job = none ∧
    judgement tDef 950 ⟨false, false, true⟩ 1 = .undecided ∧ judgement tDef 0 ⟨false, false, true⟩ 1 = .cls 1 .early ∧
    judgement tDef 10000 ⟨false, false, true⟩ 1 = .noClass .early ∧ tDef.referral = true ∧ tDef.rejectChute = 1 ∧
    (tDef.classAt 1).chute = 3 ∧ (tWorking .sampleNeg).canTake 3 ((tWorking .sampleNeg).track.positionOf 11) = true ∧
    (tWorking .sampleNeg).canTake 1 ((tWorking .sampleNeg).track.positionOf 11) = true ∧
    (sending (tWorking .sampleNeg)).report.refer.length < 48 := by decide +kernel

/-- A check job whose reference codes are strong enough for a value. -/
def tCheckJob : Job := ⟨.check, 64, 1, 0, 5120000, 5120000, 0, 0, false, false, 0⟩

theorem test_check_result : checkResult 1000000000 tCheckJob = some 0 := by decide +kernel

theorem witness_GoodSampleAdded_check : ∃ s : State, s = tSampling .sampleNeg .negative { tCheckJob with phaseCount := 63 } ∧
    tCheckJob.kind = .check ∧ (s.cal.working.pair 1).c = 1000000000 ∧ (s.cal.trims .A).length = 6 ∧
    (0 : Int).natAbs ≤ s.shared.driftLimit ∧ s.sched.requests = [] ∧ 64 ≤ 63 + 1 := ⟨_, rfl, by decide⟩

/-- A STALLED channel with a run of good frames. -/
def tStalled (run : Nat) : State :=
  tLine.modChan .A fun c => { c with service := .stalled, watchdog := none, goodRun := run }

theorem witness_GoodSampleAdded_stalled : TransmitInv (tStalled 3) ∧ ((tStalled 3).chan .A).service = .stalled ∧
    ((tStalled 3).chan .A).jobState = .idle ∧ 3 ≤ ((tStalled 3).chan .A).goodRun ∧ ((tStalled 2).chan .A).goodRun < 3 ∧
    (tStalled 3).sched.requests = [] ∧ (tStalled 3).line.phase ≠ .working := by unfold TransmitInv; decide

/-- A channel that takes a frame in CONNECTING, with no job, and in SUSPECT. -/
theorem witness_GoodSampleAdded_unused : ∀ s ∈ [tWorking .connecting, tLine, tLine.modChan .A fun c => { c with service := .suspect }],
    (s.chan .A).strict = false ∧ (s.chan .A).receiver = .waiting ∧
    (((s.chan .A).service = .inService ∧ ((s.chan .A).jobState = .connecting ∨ (s.chan .A).jobState = .idle)) ∨
      ((s.chan .A).service = .suspect ∧ (s.chan .A).jobState = .idle)) := by decide

/-- The same, with bits of a strict frame counted and a run of two errored frames. -/
def tCounted (bits : List Bool) : State :=
  (tWorking .samplePos).modChan .A fun c =>
    { c with strict := true, receiver := .counting true bits, job := some { tJob with errRun := 2 } }

def tShort : State := tCounted (List.replicate 63 false)

theorem witness_FailedAttemptsRecorded : TransmitInv tShort ∧ (tShort.chan .A).service = .inService ∧
    (tShort.chan .A).jobState = .samplePos ∧ (tShort.chan .A).job = some tJob ∧ tJob.kind = .station 1 11 1 ∧ tJob.errRun = 2 ∧
    (tShort.chan .A).receiver = .counting true (List.replicate 63 false) ∧ (List.replicate 63 false).length < 64 ∧
    tShort.sched.requests = [] ∧ 11 < tShort.track.pockets.length ∧
    (∃ j, ((tWorking .samplePos).modChan .A fun c => { c with job := some { tJob with errRun := 1 } }).chanA.job = some j ∧
      j.errRun < 2) ∧
    (⟨1, .A, 1, .unstable, some 0, none⟩ : Attempt).outcome = .unstable ∧ (tPocket .loaded 1 none).retries = some (0 + 1) ∧
    Pocket.emptied.retries = none ∧ (⟨1, .A, 1, .cut, none, none⟩ : Attempt).outcome = .cut := by
  refine ⟨by unfold TransmitInv; decide, by decide, by decide, by decide, by decide, by decide, by decide, by decide,
    by decide, by decide, ⟨_, rfl, by decide⟩, by decide, by decide, by decide, by decide⟩

/-- The three kinds of errored frame, and a good frame with a lead flag clear. -/
theorem witness_FailedAttemptsRecorded_frames : ∀ cnt : ChanCounters, cnt = .zero →
    (tShort.chan .A).errs [.sync] (.counting true []) { cnt with short := 1 } ∧
    ((tCounted (tBits 0 0 false)).chan .A).errs [.bit true] .waiting { cnt with long := 1 } ∧
    ((tCounted (tBits 0 0 true)).chan .A).errs [.sync] (.counting true []) { cnt with polarity := 1 } ∧
    (parseSample (converterBits 0 0 (true, true, true, false) false (List.replicate 11 false))).leads = false ∧
    (parseSample (converterBits 0 0 (true, true, true, false) false (List.replicate 11 false))).echo = (tShort.chan .A).pol := by
  rintro _ rfl
  refine ⟨.inl (.inl ⟨_, _, rfl, by decide, rfl, rfl, by decide⟩), .inl (.inr ⟨_, _, rfl, by decide, rfl, rfl, by decide⟩),
    .inr ⟨tBits 0 0 true, ⟨by decide, .inr ⟨rfl, rfl, rfl⟩⟩, by decide, by decide⟩, by decide, by decide⟩

theorem witness_FailedAttemptsRecorded_stalled : ∃ s : State, s = ((tStalled 3).modChan .A fun c =>
      { c with receiver := .counting false (List.replicate 63 true) }) ∧
    TransmitInv s ∧ (s.chan .A).service = .stalled ∧ (s.chan .A).receiver = .counting false (List.replicate 63 true) :=
  ⟨_, rfl, by unfold TransmitInv; decide, by decide, by decide⟩

/-- Frames of a wrong length in a settle phase, in CONNECTING, with no job, and in SUSPECT. -/
theorem witness_FailedAttemptsRecorded_missized : ∀ s ∈ [tWorking .settleNeg, tWorking .connecting, tLine, tLine.modChan .A fun c =>
      { c with service := .suspect }], ∃ u : State,
    u = s.modChan .A (fun c => { c with receiver := .counting true (List.replicate 64 true) }) ∧
    (u.chan .A).missizes [.bit false] .waiting { (u.chan .A).cnt with long := satInc 4294967295 (u.chan .A).cnt.long } ∧
    ((u.chan .A).service = .suspect ∨ (u.chan .A).service = .inService) ∧ (u.chan .A).jobState ≠ .samplePos := by
  intro s hs
  refine ⟨_, rfl, .inr ⟨List.replicate 64 true, false, rfl, by decide, rfl, rfl, rfl⟩, ?_⟩
  revert s
  decide

theorem witness_ChannelTimersExpire : TransmitInv tShort ∧ (tShort.chan .A).watchdog ≠ none ∧
    (tShort.chan .A).job = some tJob ∧ tJob.kind = .station 1 11 1 ∧ 11 < tShort.track.pockets.length ∧
    TransmitInv tLine ∧ (tLine.chan .B).watchdog ≠ none ∧ (tLine.chan .B).job = none ∧
    tLine.report.events.length = 14 ∧ tLine.report.tx = none ∧ tLine.report.masked .channelStall = false ∧
    (sending tLine).report.tx ≠ none ∧ (sending tLine).report.event .channelStall = none ∧
    (State.reset.chan .A).watchdog = none ∧ (tLine.chan .A).jobState ≠ .connecting ∧
    ((tWorking .connecting).chan .A).jobState = .connecting ∧ ((tWorking .connecting).chan .A).job = some tJob := by
  unfold TransmitInv; decide

theorem witness_ChanSetTaken : tLine.taking ∧ tLine.line.state = .idle ∧ (lineAt tLine .run false).taking ∧
    (lineAt tLine .run false).line.state ≠ .idle ∧ (lineAt tLine .run false).line.state ≠ .stopped ∧ 1 = chanCode .B ∧
    firstFails (chanPasses ⟨2, 9, 65, 4, 2, 9, 49⟩) 1 ∧ firstFails (chanPasses ⟨1, 2001, 65, 4, 2, 9, 49⟩) 2 ∧
    firstFails (chanPasses ⟨1, 10, 65, 4, 2, 9, 49⟩) 3 ∧ firstFails (chanPasses ⟨1, 10, 64, 4, 2, 9, 49⟩) 4 ∧
    firstFails (chanPasses ⟨1, 10, 64, 5, 2, 9, 49⟩) 5 ∧ firstFails (chanPasses ⟨1, 10, 64, 5, 1, 9, 49⟩) 6 ∧
    firstFails (chanPasses ⟨1, 10, 64, 5, 1, 10, 49⟩) 7 := by
  refine ⟨by unfold State.taking TransmitInv; decide, by decide, by unfold State.taking TransmitInv; decide, by decide,
    by decide, by decide, ?_, ?_, ?_, ?_, ?_, ?_, ?_⟩ <;> unfold chanPasses <;>
    exact ⟨by decide, fun m hm => by interval_cases m <;> decide⟩

theorem witness_ChanSetTaken_all : ∀ n, chanPasses ⟨1, 10, 64, 5, 1, 10000, 50⟩ n := by simp [chanPasses]

theorem witness_ChanResetAndRestore : tLine.taking ∧ (tLine.chan .A).job = none ∧ tLine.line.phase ≠ .working ∧
    tLine.sched.requests = [] ∧ (tLine.chan .A).service ≠ .suspect ∧ 1 < 2 ∧
    (tLine.modChan .A fun c => { c with service := .suspect, watchdog := none }).taking ∧
    ((tLine.modChan .A fun c => { c with service := .suspect, watchdog := none }).chan .A).service = .suspect := by
  unfold State.taking TransmitInv; decide

/-- A job on channel A, a check job there, and channel B SUSPECT in a WORKING dwell, with that job running or with none. -/
theorem witness_ChanResetAndRestore_working : (tWorking .samplePos).taking ∧ ((tWorking .samplePos).chan .A).service = .inService ∧
    ((tWorking .samplePos).chan .A).job = some tJob ∧ tJob.kind = .station 1 11 1 ∧ 11 < (tWorking .samplePos).track.pockets.length ∧
    (tWorking .samplePos).line.phase = .working ∧ (tWorking .samplePos).line.state.worked = true ∧
    (tWorking .samplePos).sched.requests = [] ∧ ((tWorking .samplePos).chan (chanOther .A)).job = none ∧
    (∀ e ∈ (tWorking .samplePos).chutes, e.jet = none) ∧
    ((tSampling .sampleNeg .negative tCheckJob).chan .A).job = some tCheckJob ∧ tCheckJob.kind = .check ∧
    (tWorking .samplePos).dwellDone = false ∧
    ∃ s : State, s = (tWorking .samplePos).modChan .B (fun c => { c with service := .suspect, watchdog := none }) ∧ s.taking ∧
      (s.chan .B).service = .suspect ∧ s.line.phase = .working ∧ (State.review s).dwellDone = false ∧
      (State.review (s.endJob .A)).dwellDone = true := by
  refine ⟨by unfold State.taking TransmitInv; decide, by decide, by decide, by decide, by decide, by decide, by decide, by decide,
    by decide, by decide, by decide, by decide, by decide, _, rfl, by unfold State.taking TransmitInv; decide, by decide, by decide,
    by decide, by decide⟩

theorem witness_IdentAnswered : State.reset.taking := by unfold State.taking TransmitInv; decide

theorem witness_ReadsChangeNothing : tLine.taking ∧ State.reset.taking ∧ State.reset.track.p = 0 ∧ tLine.track.p ≠ 0 ∧
    tLine.track.p ≤ 12 ∧ 11 < tLine.track.p ∧ 1 < 2 ∧ (tLine.slot .s1).definition = none ∧
    (tLine.pocket 11).state = .empty := by
  unfold State.taking TransmitInv; decide

/-- No check is due for channel A; with its trim on range 4 absent one is. -/
theorem witness_ReadsChangeNothing_due : (∀ r, none = some r ↔ tLine.checkDue .A r) ∧
    ∀ r, some 4 = some r ↔ ({ tLine with cal := { tLine.cal with trimsA := noTrims } } : State).checkDue .A r := by
  refine ⟨fun r => ⟨nofun, ?_⟩, fun r => ⟨?_, ?_⟩⟩
  · rintro ⟨i, d, hi, hd, hr, h⟩
    obtain rfl : SlotId.s0 = i := Option.some.inj hi
    obtain rfl : tDef = d := Option.some.inj hd
    subst hr
    exact absurd h (by decide)
  · intro h
    obtain rfl := Option.some.inj h
    exact ⟨.s0, tDef, by decide, by decide, by decide, .inl (by decide)⟩
  · rintro ⟨i, d, hi, hd, hr, -⟩
    obtain rfl : SlotId.s0 = i := Option.some.inj hi
    obtain rfl : tDef = d := Option.some.inj hd
    exact congrArg some hr

/-! Arithmetic and decisions. -/

theorem witness_QuotientsRoundedOnce : 0 < 1 ∧ (0 : Int) ≤ 0 ∧ 2 * ((roundDiv 1 2 * 2 - 1).natAbs : Int) = 2 ∧
    ((2 : Nat) : Int) ∣ 4 ∧ ∃ v, checkResult 1000000000 tCheckJob = some v :=
  ⟨by decide, by decide, by decide, by decide, 0, test_check_result⟩

theorem witness_DeviationResults :
    stationResult 10000000 tDef (.current 2500) none ⟨.station 1 1 1, 1, 4, 0, 80000, 80000, 0, 0, false, false, 0⟩ =
      .measured .accepted 0 ⟨false, true, false⟩ ∧
    stationResult 10000000 tDef .neverSet none ⟨.station 1 1 1, 1, 4, 0, 80000, 80000, 0, 0, true, false, 0⟩ =
      .measured .accepted 999999 ⟨true, true, true⟩ ∧
    stationResult 10000000 tDef .neverSet none ⟨.station 1 1 1, 1, 4, 0, 160000, 80000, 0, 0, false, false, 0⟩ =
      .measured .accepted 999999 ⟨true, true, true⟩ ∧
    stationResult 10000000 tDef .neverSet none ⟨.station 1 1 1, 1, 4, 0, 0, 80000, 0, 0, false, false, 0⟩ =
      .measured .accepted (-999999) ⟨true, true, true⟩ := by decide +kernel

theorem witness_EarlyDecisionsHold : guardedJudgement (tBands .preserve) 10201 200 = .noClass .early ∧
    ((10001 : Int) - 10201).natAbs ≤ 200 ∧ (tBands .preserve).mode = .preserve ∧
    guardedJudgement (tBands .preserve) 60 40 = .cls 1 .early ∧ ((100 : Int) - 60).natAbs ≤ 40 := by decide

/-- Pocket 4 stands at DECIDE in a state. -/
def tDecide (st : PocketState) : State := hold tLine 4 (tPocket st 5 none)

theorem witness_DefaultsAtDecide : 4 < (tDecide .loaded).track.pockets.length ∧
    ((tDecide .loaded).pocket 4).slot = some .s0 ∧ ((tDecide .loaded).slot .s0).definition = some tDef ∧
    (tDecide .loaded).canTake tDef.retestChute ((tDecide .loaded).track.positionOf 4) = true ∧
    (tDecide .loaded).canTake tDef.rejectChute ((tDecide .loaded).track.positionOf 4) = true ∧
    ((tDecide .loaded).pocket 4).state = .loaded ∧ ((tDecide .measuring).pocket 4).state = .measuring ∧
    tDef.fallback = .retest ∧ ((tDecide .referred).pocket 4).state = .referred ∧
    ((tDecide .referred).pocket 4).decision = some ⟨some 1, .early, some 1⟩ ∧
    ((tDecide .held).pocket 4).state = .held := by decide

/-- CLASSIFY-LAST: the latest ACCEPTED attempt, before a CUT one, gives the second class at its limit, or none past it. -/
def tClassify (v : Int) : State :=
  ((tDecide .measuring).modSlot0 fun sl => { sl with definition := some { tDef with fallback := .classifyLast } }).modPocket 4
    fun p => { p with attempts := p.attempts ++ [⟨2, .B, 1, .accepted, some v, none⟩, ⟨3, .A, 2, .cut, none, none⟩] }

theorem witness_DefaultsAtDecide_last : ∃ d : LotDef, ((tClassify 5000).slot .s0).definition = some d ∧
    d.fallback = .classifyLast ∧ ((tClassify 5000).pocket 4).state = .measuring ∧
    ((tClassify 5000).pocket 4).attempts = (tPocket .measuring 5 none).attempts ++
      ⟨2, .B, 1, .accepted, some 5000, none⟩ :: [⟨3, .A, 2, .cut, none, none⟩] ∧
    (∀ b ∈ [(⟨3, .A, 2, .cut, none, none⟩ : Attempt)], b.outcome ≠ .accepted) ∧ 2 ≤ d.classes.length ∧
    (d.classAt 2).lower ≤ 5000 ∧ 5000 ≤ (d.classAt 2).upper ∧ ¬((d.classAt 1).lower ≤ 5000 ∧ 5000 ≤ (d.classAt 1).upper) ∧
    (tClassify 5000).canTake (d.classAt 2).chute ((tClassify 5000).track.positionOf 4) = true ∧
    (tClassify 5000).canTake d.retestChute 4 = true ∧ (tClassify 5000).canTake d.rejectChute 4 = true ∧
    ¬((d.classAt 1).lower ≤ 5001 ∧ 5001 ≤ (d.classAt 1).upper) ∧ ¬((d.classAt 2).lower ≤ 5001 ∧ 5001 ≤ (d.classAt 2).upper) :=
  ⟨_, rfl, by decide⟩

/-! Lots. -/

theorem witness_LotLoadInstalls : tLine.taking ∧ tLine.track.p ≠ 0 ∧ tLine.cal.valid = true ∧ tLot.slot = SlotId.num .s1 ∧
    (tLine.slot .s1).state = .free ∧ State.reset.taking ∧ State.reset.track.p = 0 ∧ 1 < ({ tLot with slot := 2 } : LotLoadReq).slot ∧
    ({ tLot with slot := 0 } : LotLoadReq).slot = SlotId.num .s0 ∧ (tLine.slot .s0).state = .active := by
  unfold State.taking TransmitInv; decide

theorem witness_LotLoadInstalls_all : ∀ n, lotPasses tLot tLine .s1 n := by
  intro n
  refine ⟨⟨fun _ => ⟨by decide, .inr fun d hd => ?_⟩, ?_⟩, ?_, fun _ => by decide, ?_⟩
  · obtain rfl : tDef = d := Option.some.inj hd
    decide
  · unfold State.namable
    repeat' apply And.intro
    all_goals (intro _; decide)
  · intro g h1 h2
    have h3 : g ≤ 2 := h2
    interval_cases g <;> exact ⟨fun _ => by decide, fun _ => by decide⟩
  · intro j h1 h2
    have h3 : j ≤ 2 := h2
    unfold State.namable
    interval_cases j <;> exact ⟨fun _ => by decide, fun _ => by decide, fun _ => by decide⟩

/-- The first field judged and the last: the lot number of the other slot, ordinal 2; a chute 21 in class 16, ordinal 71. -/
theorem witness_LotLoadInstalls_first : firstFails (lotPasses { tLot with lotNumber := 77 } tLine .s1) 2 := by
  refine ⟨fun h => ?_, fun m hm => ?_⟩
  · rcases (h.1.1 rfl).2 with h | h
    · exact absurd h (by decide)
    · exact h tDef rfl rfl
  · refine ⟨⟨fun h => absurd h (by omega), ?_⟩, ?_⟩
    · repeat' apply And.intro
      all_goals (intro _; omega)
    · refine ⟨fun g h1 _ => ⟨fun _ => by omega, fun _ => by omega⟩, fun _ => by omega, fun j h1 _ => ?_⟩
      exact ⟨fun _ => by omega, fun _ => by omega, fun _ => by omega⟩

theorem witness_LotLoadInstalls_last : firstFails (lotPasses
    { tLot with classCount := 16, classes := List.replicate 15 ⟨-1, 1, 3⟩ ++ [⟨0, 0, 21⟩] } tLine .s1) 71 := by
  refine ⟨fun h => absurd ((h.2.2.2 16 (by decide) (by decide)).2.2 rfl) (by unfold State.namable; decide), fun m hm => ?_⟩
  refine ⟨(witness_LotLoadInstalls_all m).1, (witness_LotLoadInstalls_all m).2.1, fun _ => by decide, ?_⟩
  intro j h1 h2
  have h3 : j ≤ 16 := h2
  unfold State.namable
  interval_cases j <;> exact ⟨fun _ => by decide, fun _ => by decide, fun _ => by first | decide | omega⟩

/-- Slot 1 in a state, with a definition. -/
def tSlot (st : SlotState) : State := { tLine with slot1 := ⟨st, some tDef, 0, none, .zero⟩ }

theorem witness_LotArmAndFree : (tSlot .ready).taking ∧ 1 < 2 ∧ (tLine.slot .s1).state = .free ∧
    ((tSlot .pending).slot .s1).state = .pending ∧ ((tSlot .ready).slot .s1).state = .ready ∧
    ((tSlot .ready).slot SlotId.s1.other).state = .active ∧
    ({ tSlot .ready with slot0 := ⟨.pending, some tDef, 0, none, .zero⟩ } : State).slot0.state = .pending ∧
    ({ tSlot .ready with slot0 := .freed } : State).slot0.state ≠ .pending ∧
    ({ tSlot .ready with slot0 := .freed } : State).slot0.state ≠ .active ∧
    ((tSlot .draining).slot .s1).state = .draining ∧
    ((sending tLine).slot .s0).state = .active ∧ ((sending tLine).slot .s0).resident = 0 ∧
    (sending tLine).line.state ≠ .run ∧ (sending tLine).line.state ≠ .drain ∧
    ((sending tLine).slot .s0).definition = some tDef ∧ (sending tLine).taking ∧
    (sending tLine).report.tx = some ⟨0x81#8, 0x01#8, []⟩ ∧ (sending tLine).report.lotEnd.length < 2 := by
  unfold State.taking TransmitInv; decide

/-- An ACTIVE slot with one resident and the other PENDING. -/
def tChange : State := { tTwo with slot1 := ⟨.pending, some tDef, 0, none, .zero⟩ }

theorem witness_ChangeOverTaken : (tChange.slot .s1).state = .pending ∧ (tChange.slot SlotId.s1.other).state = .active ∧
    (tChange.slot SlotId.s1.other).resident ≠ 0 ∧ tChange.report.event .lotChange = none ∧
    tChange.report.events.length = 14 := by decide

/-- The ACTIVE slot left with no resident; no slot ACTIVE beside the PENDING one. -/
theorem witness_ChangeOverTaken_others : ∃ s : State, s = { tLine with slot1 := ⟨.pending, some tDef, 0, none, .zero⟩ } ∧
    (s.slot .s1).state = .pending ∧ (s.slot SlotId.s1.other).state = .active ∧ (s.slot SlotId.s1.other).resident = 0 ∧
    (s.slot SlotId.s1.other).definition = some tDef ∧ s.report.lotEnd.length < 2 ∧
    ({ s with slot0 := .freed } : State).slot0.state ≠ .active ∧ ({ s with slot0 := .freed } : State).slot0.state ≠ .pending ∧
    (s.raise .lotChange (.pocket 3)).report.event .lotChange = some ⟨1, .pocket 3, 0⟩ := ⟨_, rfl, by decide⟩

/-! Line requests. -/

theorem witness_LineStartTaken : tLine.taking ∧ tLine.line.state = .idle ∧ tLine.startFailed = 0 ∧
    State.reset.taking ∧ State.reset.startFailed ≠ 0 ∧ (lineAt tLine .run false).line.state ≠ .idle ∧
    firstFails (startPasses 4 19 99) 1 ∧ firstFails (startPasses 5 5001 99) 2 ∧ firstFails (startPasses 1000 20 99) 3 ∧
    tLine.pins.motion = false ∧ (tLine.pocket (tLine.track.pocketAt 0)).state = .empty ∧
    (lineAt tLine .idle true).taking ∧ (lineAt tLine .idle true).startFailed = 0 ∧
    (lineAt tLine .idle true).pins.motion = true ∧ (hold tLine 0 (tPocket .loaded 5 none)).startFailed = 0 ∧
    ((hold tLine 0 (tPocket .loaded 5 none)).pocket 0).state ≠ .empty := by
  refine ⟨by unfold State.taking TransmitInv; decide, by decide, by decide, by unfold State.taking TransmitInv; decide,
    by decide, by decide, ?_, ?_, ?_, by decide, by decide, by unfold State.taking TransmitInv; decide, by decide, by decide,
    by decide, by decide⟩ <;> unfold startPasses <;> exact ⟨by decide, fun m hm => by interval_cases m <;> decide⟩

theorem witness_LineStartTaken_all : (∀ n, startPasses 5 5000 100 n) ∧ ∀ n, startPasses 1000 20 0 n := by simp [startPasses]

theorem witness_LineStopTaken : (lineAt tLine .run false).taking ∧ (lineAt tLine .run false).line.phase = .waiting ∧
    (lineAt tLine .drain true).taking ∧ (lineAt tLine .drain true).line.phase ≠ .waiting ∧
    (lineAt tLine .faulted false).taking ∧ (lineAt tLine .stopping true).taking := by
  unfold State.taking TransmitInv; decide

/-- Both channels SUSPECT. -/
def tSuspects : State :=
  { lineAt tLine .stopped false with
    chanA := { tLine.chanA with service := .suspect }, chanB := { tLine.chanB with service := .suspect } }

theorem witness_DrainAndResumeTaken : (lineAt tLine .stopped false).taking ∧ (lineAt tLine .stopped false).line.state = .stopped ∧
    (lineAt tLine .stopped false).chanA.service ≠ .suspect ∧ (lineAt tLine .stopped false).pins.motion = false ∧
    (∀ p ∈ (lineAt tLine .stopped false).track.pockets, p.state ≠ .held) ∧
    ((lineAt tLine .stopped false).pocket ((lineAt tLine .stopped false).track.pocketAt 0)).state = .empty ∧
    (lineAt tLine .stopped false).activeSlot ≠ none ∧ tSuspects.taking ∧ tSuspects.line.state = .stopped ∧
    tSuspects.chanA.service = .suspect ∧ tSuspects.chanB.service = .suspect ∧ (lineAt tLine .run false).taking ∧
    (lineAt tLine .drain false).taking ∧ tLine.taking ∧ tLine.line.state ≠ .stopped := by
  unfold State.taking TransmitInv; decide

/-- The retries of an entry to RUN or DRAIN from STOPPED. -/
def tEntering (target : LineState) (s : State) : State := State.retried { s with line := { s.line with
  state := target, phase := if s.pins.motion then .moving else .waiting
  motionTimer := if s.pins.motion then some (1000 * s.line.motionLimitMs) else s.line.motionTimer } }

/-- HELD pockets of a STOPPED line, one of which stays HELD, with MOTION low and high; and one whose retry succeeds. -/
theorem witness_DrainAndResumeTaken_held : (tHeld .stopped false).taking ∧ (tHeld .stopped true).taking ∧
    (tHeld .stopped false).line.state = .stopped ∧ (tHeld .stopped false).chanA.service ≠ .suspect ∧
    (tHeld .stopped false).report.tx ≠ none ∧ (tHeld .stopped true).pins.motion = true ∧
    (tHeld .stopped false).heldTargets = [(3, 1), (9, 1)] ∧
    ((tEntering .run (tHeld .stopped false)).pocket 9).state = .held ∧ (tEntering .run (tHeld .stopped false)).line.state = .stopped ∧
    ((tEntering .drain (tHeld .stopped true)).pocket 9).state = .held ∧
    (tEntering .drain (tHeld .stopped true)).line.state = .stopping ∧ (tHeldOne .stopped false).taking ∧
    (tHeldOne .stopped false).heldTargets = [(3, 1)] ∧ ((tEntering .run (tHeldOne .stopped false)).pocket 3).state = .decided ∧
    (tEntering .run (tHeldOne .stopped false)).line.state = .run := by
  unfold State.taking TransmitInv; decide +kernel

theorem witness_LineClearTaken : (lineAt tLine .faulted true).taking ∧ (lineAt tLine .stopped false).taking ∧
    (∀ p ∈ (lineAt tLine .stopped false).track.pockets, p.state = .empty) ∧ (lineAt tTwo .stopped false).taking ∧
    (∃ p ∈ (lineAt tTwo .stopped false).track.pockets, p.state ≠ .empty) ∧ tLine.taking := by
  unfold State.taking TransmitInv; decide

theorem witness_LineResetTaken : (lineAt tTwo .faulted true).taking := by unfold State.taking TransmitInv; decide

theorem witness_TimersExpire : TransmitInv (tWorking .samplePos) ∧ (tWorking .samplePos).line.budget ≠ none ∧
    (tWorking .samplePos).line.phase = .working ∧ (tWorking .samplePos).line.state.worked = true ∧
    (∀ e ∈ (tWorking .samplePos).chutes, e.jet = none) ∧
    (∃ e ∈ ((tWorking .samplePos).modChute 5 fun e => { e with jet := some 3000 }).chutes, e.jet ≠ none) ∧
    tLine.line.budget = none ∧ tLine.line.motionTimer = none ∧ tLine.line.stallTimer = none ∧
    (lineAt tLine .stopping true).line.motionTimer ≠ none ∧ (lineAt tLine .stopping true).line.state.underWay = true ∧
    (tLine.modLine fun l => { l with stallTimer := some 0 }).line.stallTimer ≠ none ∧
    (sending (lineAt tLine .run true)).temp.running = true ∧ (sending (lineAt tLine .run true)).line.state.underWay = true ∧
    (sending (lineAt tLine .run true)).temp.record = .neverSet ∧
    (sending (lineAt tLine .run true)).report.event .tempStale = none ∧
    (sending (lineAt tLine .run true)).report.events.length = 14 ∧ (sending (lineAt tLine .run true)).report.tx ≠ none ∧
    TransmitInv (lineAt tLine .stopping true) ∧ (lineAt tLine .stopping true).report.tx = none ∧
    (∀ k ∈ [.motionFault, .turretIdle, .tempStale], (lineAt tLine .stopping true).report.masked k = false) ∧
    (tLine.modTemp fun t => { t with record := .current 12500, running := false }).temp.running = false ∧
    (tLine.modTemp fun t => { t with record := .current 12500 }).temp.record = .current 12500 := by
  unfold TransmitInv; decide

theorem witness_FaultsTaken : (lineAt tLine .stopped true).line.state = .stopped ∧
    (lineAt tLine .faulted true).line.state = .faulted ∧ tLine.line.state = .idle := by decide

/-! Track and chutes. -/

/-- No slot in use. -/
def tBare : State := { tLine with slot0 := .freed }

theorem witness_TrackSetTaken : tBare.taking ∧ tBare.line.state = .idle ∧ (∀ p ∈ tBare.track.pockets, p.state = .empty) ∧
    tBare.slot0.state = .free ∧ tBare.slot1.state = .free ∧ tLine.taking ∧ tLine.slot0.state ≠ .free := by
  unfold State.taking TransmitInv; decide

/-- Each ordinal of TRACK.SET, with the fields after it failing too. -/
theorem witness_TrackSetTaken_fields : firstFails (trackPasses ⟨7, [], 0, 0⟩) 1 ∧
    firstFails (trackPasses ⟨8, [1, 2, 3, 4, 5, 6, 7], 0, 0⟩) 2 ∧ firstFails (trackPasses ⟨48, [0, 0, 48], 0, 0⟩) 3 ∧
    firstFails (trackPasses ⟨8, [1, 1], 1, 1⟩) 4 ∧ firstFails (trackPasses ⟨8, [1, 2, 3, 4, 5, 8], 8, 8⟩) 8 ∧
    firstFails (trackPasses ⟨8, [1, 2, 3, 4, 5, 6], 8, 8⟩) 9 ∧ firstFails (trackPasses ⟨8, [1, 2, 3, 4, 5], 6, 8⟩) 10 := by
  refine ⟨?_, ?_, ?_, ?_, ?_, ?_, ?_⟩ <;> unfold trackPasses <;>
    exact ⟨by decide, fun m hm => by interval_cases m <;> decide⟩

theorem witness_TrackSetTaken_all : ∀ n, trackPasses ⟨8, [1, 2, 3, 4, 5], 6, 7⟩ n := by
  intro n
  refine ⟨fun _ => by decide, fun _ => by decide, fun i hi _ => ?_, fun _ => by decide, fun _ => by decide⟩
  have h : i < 5 := hi
  interval_cases i <;> decide

/-- Chute 2, of no lot, configured at position 9 with one place in flight and an old-box count; chute 5 not configured. -/
def tStore : State :=
  ((hold { tBare with slot0 := ⟨.active, some { tDef with retestChute := 1 }, 0, some 1, .zero⟩ } 2
    (tPocket .decided 7 (some 2))).modChute 2 fun e => { e with oldBox := 1 }).modChute 5 fun _ => .powerOn

theorem witness_ChuteSetTaken : tLine.taking ∧ State.reset.taking ∧ State.reset.track.p = 0 ∧ tLine.track.p ≠ 0 ∧
    tLine.line.state = .idle ∧ (lineAt tLine .run false).taking ∧ 20 < 21 ∧ tStore.taking ∧ tStore.chutes.length = 20 ∧
    (tStore.chute 20).cfg = none ∧ (tStore.chute 2).cfg = some ⟨6, 3, 2, none, 3⟩ ∧
    1 < (tStore.chute 2).fill + (tStore.chute 2).inFlight + (tStore.chute 2).oldBox ∧
    (tStore.chute 2).fill + (tStore.chute 2).inFlight + (tStore.chute 2).oldBox ≤ 2 ∧ 9 ≠ 6 ∧ 0 < (tStore.chute 2).inFlight ∧
    ({ tStore.chute 2 with cfg := some ⟨6, 2, 1, some 1, 100⟩ } : Chute).state = .full ∧
    (tStore.chute 2).state = .near ∧ (tStore.modChute 2 fun e => { e with inFlight := 0 }).taking := by
  unfold State.taking TransmitInv; decide

/-- The eject positions of the other chutes of tStore. -/
theorem others_elsewhere {x : Nat} {g : ChuteCfg} {c : Nat} (hx : x ≠ c) (h1 : 1 ≤ x) (h2 : x ≤ 20)
    (hg : (tStore.chute x).cfg = some g) : g.ejectPos ≠ 9 ∧ (c = 2 → g.ejectPos ≠ 6) := by
  have key : ∀ x ∈ List.range 21, (tStore.chute x).cfg.all (fun g => g.ejectPos != 9 && (x == 2 || g.ejectPos != 6)) = true := by
    decide
  have h := key x (List.mem_range.mpr (by omega))
  rw [hg] at h
  simp at h
  exact ⟨h.1, fun e => h.2.resolve_left (by omega)⟩

/-- A new chute 20 with chute 1 as alternate; chute 2 within its places where it stands, or short of them, or moved. -/
theorem witness_ChuteSetTaken_all : (∀ n, chutePasses ⟨9, 65535, 1, 1, 100⟩ tStore 20 n) ∧
    (∀ n, chutePasses ⟨6, 2, 1, 1, 100⟩ tStore 2 n) ∧ (∀ n, chutePasses ⟨6, 1, 1, 0, 1⟩ tStore 2 n) ∧
    ∀ n, chutePasses ⟨9, 3, 1, 0, 1⟩ tStore 2 n := by
  refine ⟨fun n => ⟨fun _ => by decide, fun _ => ⟨by decide, by decide, fun x g hx h1 h2 hg => (others_elsewhere hx h1 h2 hg).1⟩,
      fun _ => by decide, fun _ => by decide, fun _ => by decide, fun _ => by decide⟩,
    fun n => ⟨fun _ => by decide, fun _ => ⟨by decide, by decide, fun x g hx h1 h2 hg => (others_elsewhere hx h1 h2 hg).2 rfl⟩,
      fun _ => by decide, fun _ => by decide, fun _ => by decide, fun _ => by decide⟩,
    fun n => ⟨fun _ => by decide, fun _ => ⟨by decide, by decide, fun x g hx h1 h2 hg => (others_elsewhere hx h1 h2 hg).2 rfl⟩,
      fun _ => by decide, fun _ => by decide, fun _ => by decide, fun _ => by decide⟩,
    fun n => ⟨fun _ => by decide, fun _ => ⟨by decide, by decide, fun x g hx h1 h2 hg => (others_elsewhere hx h1 h2 hg).1⟩,
      fun _ => by decide, fun _ => by decide, fun _ => by decide, fun _ => by decide⟩⟩

/-- Ordinals 1, 3, 6 and 7 of CHUTE.SET. -/
theorem witness_ChuteSetTaken_fields : firstFails (chutePasses ⟨4, 0, 0, 5, 0⟩ tStore 21) 1 ∧
    firstFails (chutePasses ⟨10, 0, 0, 5, 0⟩ tStore 20) 3 ∧ firstFails (chutePasses ⟨9, 1, 1, 5, 101⟩ tStore 20) 6 ∧
    firstFails (chutePasses ⟨9, 1, 1, 0, 101⟩ tStore 20) 7 := by
  refine ⟨⟨fun h => absurd (h.1 rfl) (by decide), fun m hm => ?_⟩, ⟨fun h => absurd (h.2.1 rfl).2.1 (by decide), fun m hm => ?_⟩,
    ⟨fun h => absurd (h.2.2.2.2.1 rfl) (by decide), fun m hm => ?_⟩, ⟨fun h => absurd (h.2.2.2.2.2 rfl) (by decide), fun m hm => ?_⟩⟩
  · exact ⟨fun _ => by omega, fun _ => by omega, fun _ => by omega, fun _ => by omega, fun _ => by omega, fun _ => by omega⟩
  · exact ⟨fun _ => by decide, fun _ => by omega, fun _ => by omega, fun _ => by omega, fun _ => by omega, fun _ => by omega⟩
  · exact ⟨fun _ => by decide, fun _ => ⟨by decide, by decide, fun x g hx h1 h2 hg => (others_elsewhere hx h1 h2 hg).1⟩,
      fun _ => by decide, fun _ => by decide, fun _ => by omega, fun _ => by omega⟩
  · exact ⟨fun _ => by decide, fun _ => ⟨by decide, by decide, fun x g hx h1 h2 hg => (others_elsewhere hx h1 h2 hg).1⟩,
      fun _ => by decide, fun _ => by decide, fun _ => by decide, fun _ => by omega⟩

/-- The removal of chute 2 is barred by its accounts; chute 1 by the lot; chute 3, once no lot names it, by nothing. -/
theorem witness_ChuteSetTaken_remove : (tStore.chute 2).cfg ≠ none ∧ tStore.removalBarred 2 ∧ tStore.removalBarred 1 ∧
    (tLine.chute 20).cfg = none ∧ (tBare.chute 3).cfg ≠ none ∧ ¬tBare.removalBarred 3 := by
  refine ⟨by decide, .inr (.inr (.inr (.inl (by decide)))), .inl ⟨.s0, _, by decide, rfl, .inl rfl⟩, by decide, by decide, ?_⟩
  rintro (⟨i, d, h, _⟩ | ⟨x, g, h1, h2, _, hg, ha⟩ | ⟨q, hq, h, _⟩ | h | h)
  · cases i <;> exact absurd rfl h
  · have key : ∀ x ∈ List.range 21, (tBare.chute x).cfg.all (fun g => g.alternate == none) = true := by decide
    have h := key x (List.mem_range.mpr (by omega))
    rw [hg] at h
    simp [ha] at h
  · revert q
    decide
  · exact absurd h (by decide)
  · exact absurd h (by decide)

/-- Chute 1 FULL with alternate 2; chute 3 FULL without one. -/
def tFull : State :=
  (tTwo.modChute 1 fun e => { e with cfg := some ⟨5, 1, 1, some 2, 1⟩ }).modChute 3 fun e => { e with fill := 3 }

theorem witness_CommitSteps : 6 < tFull.track.pockets.length ∧ tFull.chutes.length = 20 ∧
    tFull.canTake 4 (tFull.track.positionOf 4) = true ∧ tFull.canTake 1 (tFull.track.positionOf 2) = false ∧
    (tFull.chute 1).cfg = some ⟨5, 1, 1, some 2, 1⟩ ∧ tFull.canTake 2 (tFull.track.positionOf 2) = true ∧
    (tFull.pocket 2).slot = some .s0 ∧ tFull.canTake 3 (tFull.track.positionOf 2) = false ∧
    (tFull.chute 3).cfg.bind ChuteCfg.alternate = none ∧ tFull.line.state.worked = false ∧
    (lineAt tFull .run false).line.state.worked = true ∧ (lineAt tFull .run false).canTake 3 2 = false := by decide

/-- A commit that makes chute 4 FULL, one that makes it NEAR, and one that leaves it OPEN. -/
theorem witness_CommitSteps_events : ∀ fill ∈ [2, 1, 0], ∃ s : State, s = tFull.modChute 4 (fun e => { e with fill := fill }) ∧
    s.canTake 4 (s.track.positionOf 4) = true ∧ (s.chute 4).cfg = some ⟨8, 3, 2, none, 3⟩ ∧
    ((fill + 1 = 3) ∨ (fill < 2 ∧ 2 ≤ fill + 1 ∧ fill + 1 < 3) ∨ fill = 0) := by
  intro fill h
  refine ⟨_, rfl, ?_⟩
  revert fill
  decide

/-- Pocket 5 stands at chute 1, DECIDED to it; in the second state its jet pulses with nothing else to do. -/
def tFire : State := hold (lineAt tLine .run false) 5 (tPocket .decided 7 (some 1))

def tPulse : State :=
  { tFire.fireChute 1 with line := { tFire.line with phase := .working, ready := false, budget := some 1 } }

theorem witness_JetFiresAndCompletes : 1 ≤ 1 ∧ 1 ≤ tFire.chutes.length ∧ (tFire.chute 1).cfg = some ⟨5, 3, 2, none, 3⟩ ∧
    5 = tFire.track.pocketAt 5 ∧ (tFire.pocket 5).state = .decided ∧ (tFire.pocket 5).chute = some 1 ∧
    (tFire.pocket 5).jetFired = false ∧ 5 < tFire.track.pockets.length ∧ TransmitInv tPulse ∧ (tPulse.chute 1).jet ≠ none ∧
    tPulse.line.phase = .working ∧ tPulse.chanA.job = none ∧ tPulse.chanB.job = none ∧ tPulse.sched.requests = [] ∧
    tPulse.line.state.worked = true ∧ (tPulse.chute 2).jet = none ∧
    (tPulse.modLine fun l => { l with state := .stopping }).line.state = .stopping := by
  unfold TransmitInv; decide

theorem witness_JetFiresAndCompletes_others : ∀ x, x ≠ 1 → (tPulse.chute x).jet = none := by
  intro x hx
  by_cases h : x ≤ 20
  · interval_cases x <;> first | exact absurd rfl hx | decide
  · have : tPulse.chutes.length = 20 := by decide
    unfold State.chute
    rw [if_neg (by omega), List.getD, List.getElem?_eq_none (by omega)]
    rfl

theorem witness_BoxExchangeTaken : tTwo.taking ∧ (tTwo.chute 6).cfg = none ∧ 20 < 21 ∧ tTwo.chutes.length = 20 ∧
    (tTwo.chute 5).cfg ≠ none ∧ ChuteInv tTwo 5 ∧ (tTwo.chute 5).jet = none ∧ tPulse.taking ∧ (tPulse.chute 1).cfg ≠ none ∧
    ChuteInv tPulse 1 ∧ (tPulse.chute 1).jet ≠ none := by
  unfold State.taking TransmitInv ChuteInv; decide

/-! Purges and verdicts. -/

def tPurge : State := sending (lineAt tTwo .stopped false)

theorem witness_PurgeTaken : tPurge.taking ∧ State.reset.taking ∧ State.reset.track.p = 0 ∧ tPurge.track.p ≠ 0 ∧
    tPurge.line.state = .stopped ∧ tPurge.track.p ≤ 12 ∧ 12 ≠ 255 ∧ (tPurge.pocket 11).state = .empty ∧ 2 < tPurge.track.p ∧
    ShapeInv tPurge ∧ (tPurge.pocket 2).state = .decided ∧ (tPurge.pocket 2).chute = some 1 ∧
    (tPurge.pocket 2).slot = some .s0 ∧ (tPurge.slot .s0).definition = some tDef ∧ (tPurge.slot .s0).state = .active ∧
    tPurge.report.tx = some ⟨0x81#8, 0x01#8, []⟩ ∧ tPurge.report.part.length < 64 ∧ tLine.taking ∧
    tLine.line.state ≠ .stopped ∧ tLine.line.state ≠ .faulted ∧ 3 < tPurge.track.p ∧ (tPurge.pocket 3).state = .ejected ∧
    (tPurge.pocket 3).slot = some .s0 ∧ tPurge.report.part.length ≤ 64 ∧
    2 = (tPurge.track.pockets.countP fun p => p.state != .empty) ∧ tPurge.lineCnt.purged + 2 ≤ 4294967295 := by
  unfold State.taking TransmitInv ShapeInv; decide

/-- Pocket 4, REFERRED with the largest serial. -/
def tReferred : State := hold tLine 4 (tPocket .referred 4294967295 none)

theorem witness_VerdictTaken : tReferred.taking ∧ State.reset.taking ∧ State.reset.track.p = 0 ∧ tReferred.track.p ≠ 0 ∧
    (tReferred.chute 6).cfg = none ∧ 6 ≠ 128 ∧ 6 ≠ 129 ∧ 4294967295 ≠ 0 ∧
    (∀ p ∈ tReferred.track.pockets, p.state ≠ .empty → p.serial ≠ some 1) ∧ SerialInv tReferred ∧
    4 < tReferred.track.pockets.length ∧ (tReferred.pocket 4).state = .referred ∧
    (tReferred.pocket 4).serial = some 4294967295 ∧ (tReferred.pocket 4).slot = some .s0 ∧
    (tReferred.slot .s0).definition = some tDef ∧ (tReferred.pocket 4).decision = some ⟨some 1, .early, some 1⟩ ∧
    tDef.rejectChute = 1 ∧ tReferred.canTake 1 (tReferred.track.positionOf 4) = true ∧
    tReferred.canTake 5 (tReferred.track.positionOf 4) = true := by
  refine ⟨by unfold State.taking TransmitInv; decide, by unfold State.taking TransmitInv; decide, by decide, by decide,
    by decide, by decide, by decide, by decide, by decide, by unfold SerialInv; decide, by decide, by decide, by decide,
    by decide, by decide, by decide, by decide, by decide, by decide⟩

/-- Chute 1 FULL, with no alternate or with chute 2 as alternate. -/
def tRefused (alternate : Option Nat) : State := tReferred.modChute 1 fun e => { e with cfg := some ⟨5, 3, 2, alternate, 3⟩, fill := 3 }

theorem witness_VerdictTaken_refused : (tRefused none).taking ∧ SerialInv (tRefused none) ∧ (tRefused none).chutes.length = 20 ∧
    (tRefused none).canTake 1 ((tRefused none).track.positionOf 4) = false ∧ (tRefused none).alternateOf 1 = none ∧
    (tRefused (some 2)).taking ∧ SerialInv (tRefused (some 2)) ∧ (tRefused (some 2)).canTake 1 4 = false ∧
    ((tRefused (some 2)).chute 1).cfg = some ⟨5, 3, 2, some 2, 3⟩ ∧ (tRefused (some 2)).canTake 2 4 = true ∧
    (lineAt (tRefused none) .run false).line.state.worked = true := by
  refine ⟨by unfold State.taking TransmitInv; decide, by unfold SerialInv; decide, by decide, by decide, by decide,
    by unfold State.taking TransmitInv; decide, by unfold SerialInv; decide, by decide, by decide, by decide, by decide⟩

/-- Pocket 4 holds the serial of a VERDICT in another state: never decided, or defaulted at DECIDE. -/
theorem witness_VerdictTaken_late : (tDecide .loaded).taking ∧ SerialInv (tDecide .loaded) ∧ 4 < (tDecide .loaded).track.pockets.length ∧
    ((tDecide .loaded).pocket 4).state ≠ .empty ∧ ((tDecide .loaded).pocket 4).state ≠ .referred ∧
    ((tDecide .loaded).pocket 4).serial = some 5 ∧ ((tDecide .loaded).pocket 4).decision = none ∧
    ∃ s : State, s = (tDecide .decided).modPocket 4 (fun p => { p with decision := some ⟨none, .referDefault, some 1⟩ }) ∧ SerialInv s ∧
      s.taking ∧ (s.pocket 4).decision = some ⟨none, .referDefault, some 1⟩ ∧ (s.pocket 4).slot = some .s0 ∧
      (s.pocket 4).state = .decided := by
  refine ⟨by unfold State.taking TransmitInv; decide, by unfold SerialInv; decide, by decide, by decide, by decide, by decide,
    by decide, _, rfl, by unfold SerialInv; decide, by unfold State.taking TransmitInv; decide, by decide, by decide, by decide⟩

/-! Calibration and temperature. -/

theorem witness_CalWriteTakenAndCompleted : tLine.taking ∧ tPairs.length = 6 ∧ tLine.line.state = .idle ∧
    (lineAt tLine .run false).taking ∧ (lineAt tLine .run false).line.state ≠ .idle ∧
    (∀ p ∈ tPairs, (5000 ≤ p.rref ∧ p.rref ≤ 2000000000) ∧ (50000000 ≤ p.c ∧ p.c ≤ 2000000000)) ∧
    (tPairs.set 5 ⟨4999, 49999999⟩).length = 6 ∧ firstFails (pairsPass (tPairs.set 5 ⟨4999, 49999999⟩)) 11 ∧
    firstFails (pairsPass (tPairs.set 5 ⟨5000, 2000000001⟩)) 12 ∧ tLine.link.inProgress = none ∧
    (tLine.modLink fun l => { l with inProgress := some ⟨1, tPairs, 0⟩ }).link.inProgress = some ⟨1, tPairs, 0⟩ ∧
    TransmitInv (tLine.modLink fun l => { l with inProgress := some ⟨1, tPairs, 0⟩ }) ∧ tLine.report.reply = none := by
  refine ⟨by unfold State.taking TransmitInv; decide, by decide, by decide, by unfold State.taking TransmitInv; decide,
    by decide, by decide, by decide, ?_, ?_, by decide, by decide, by unfold TransmitInv; decide, by decide⟩ <;>
    unfold pairsPass <;> exact ⟨by decide, fun m hm => by interval_cases m <;> decide⟩

theorem witness_ChecksJudged : 1 ≤ 6 ∧ 6 ≤ 6 ∧ (tLine.cal.trims .B).length = 6 ∧ (tLine.chan .B).job = none ∧
    (-200 : Int).natAbs ≤ tLine.shared.driftLimit ∧ tLine.shared.driftLimit < (201 : Int).natAbs ∧
    ((lineAt (tLine.modChan .A fun c => { c with service := .suspect }) .run false).chan (chanOther .B)).service = .suspect ∧
    (lineAt (tLine.modChan .A fun c => { c with service := .suspect }) .run false).line.state.underWay = true := by decide

theorem witness_TempSetTaken : tLine.taking ∧ (32767 : Int) = 32767 := by unfold State.taking TransmitInv; decide

/-! Link Port and Report Queue. -/

/-- Four frames wait. -/
def tBuffered : State := tLine.modLink fun l => { l with buffer := List.replicate 4 ⟨0x11#8, 0x02#8, []⟩ }

theorem witness_FrameBytesReceived : TransmitInv tLine ∧
    (⟨0x7F#8, 0x00#8, List.replicate 500 0x5A#8⟩ : Frame).payload.length ≤ 500 ∧
    tLine.link.receiver = .hunting none ∧ tLine.link.buffer.length < 4 ∧ TransmitInv tBuffered ∧
    tBuffered.link.receiver = .hunting none ∧ 4 ≤ tBuffered.link.buffer.length := by
  refine ⟨by unfold TransmitInv; decide, le_of_eq List.length_replicate, by decide, by decide, by unfold TransmitInv; decide,
    by decide, by decide⟩

theorem witness_RequestsReadBack : (Request.lotLoad tLot).wf = true ∧
    (Instr.lotLoad 1 tLot).request = some (1, .lotLoad tLot) ∧
    (tLine.modLink fun l => { l with buffer := [(Request.lotLoad tLot).frame 1] }).link.inProgress = none ∧
    (tLine.modLink fun l => { l with buffer := [(Request.lotLoad tLot).frame 1] }).report.reply = none ∧
    TransmitInv tBuffered ∧ tBuffered.link.buffer ≠ [] ∧ 4 ≤ tBuffered.link.buffer.length ∧
    (tBuffered.modLink fun l => { l with buffer := [(Request.lotLoad tLot).frame 1] }).link.buffer.length < 4 := by
  unfold TransmitInv; decide

theorem witness_RequestTakenJudged : TransmitInv tBuffered ∧ tBuffered.link.inProgress = none ∧
    tBuffered.report.reply = none ∧ tBuffered.link.buffer = ⟨0x11#8, 0x02#8, []⟩ :: List.replicate 3 ⟨0x11#8, 0x02#8, []⟩ ∧
    (⟨0x11#8, 0x02#8, []⟩ : Frame).payload = [] ∧ (lineAt tBuffered .faulted false).line.state = .faulted ∧
    (0x71 ≤ (0x74#8).toNat ∧ (0x74#8).toNat ≤ 0x74) ∧ 0x80 ≤ (0x80#8).toNat ∧ tLine.link.buffer = [] ∧
    (∀ t ∈ [0x00#8, 0x27#8, 0x70#8, 0x75#8, 0x7F#8], t.toNat < 0x80 ∧ ¬(0x71 ≤ t.toNat ∧ t.toNat ≤ 0x74) ∧ t.toNat ≠ 0x02 ∧
      ∀ e ∈ lengthTable, t.toNat ≠ e.1) ∧
    ((0x0A, 1) ∈ lengthTable ∧ (⟨0x0A#8, 0x02#8, []⟩ : Frame).payload.length ≠ 1) ∧
    ([0x0C#8, 0x01#8, 0x01#8, 0x02#8, 0x03#8, 0x04#8] : List Byte).length ≠ 4 + 1 ∧ ([0x0C#8] : List Byte).length < 2 := by
  unfold TransmitInv; decide

theorem witness_BadFramesCounted : TransmitInv tLine ∧ tLine.link.receiver = .hunting none ∧
    (tLine.modLink fun l => { l with receiver := .hunting (some 0) }).link.receiver = .hunting (some 0) ∧
    (tLine.modLink fun l => { l with receiver := .inFrame [0x5A#8] 0 }).link.receiver = .inFrame [0x5A#8] 0 := by
  unfold TransmitInv; decide

/-- A length of 501 and one of 500; a frame of no payload whose check bytes are both wrong. -/
theorem witness_BadFramesCounted_bytes : 500 < (0xF5#8).toNat + 256 * (0x01#8).toNat ∧ (0xF4#8).toNat + 256 * (0x01#8).toNat ≤ 500 ∧
    (0x5B#8 : Byte) ≠ 0x5A#8 ∧ (tLine.modLink fun l => { l with receiver := .inFrame [0x5A#8, 0xF5#8] 1 }).link.receiver =
      .inFrame [0x5A#8, 0xF5#8] 1 ∧
    [0x00#8, 0x00#8] ≠ le 2 (checkCode (le 2 0 ++ [0x11#8, 0x02#8] ++ [])).toNat := by decide +kernel

/-- A LOT_CHANGE pends unmasked, MOTION_FAULT masked. -/
def tEvents : State :=
  (((sending tLine).raise .lotChange (.pocket 3)).raise .motionFault .none).modReport fun r => { r with mask := 1#14 }

theorem witness_TransmitOrder : tLine.report.tx = none ∧ tEvents.report.tx = some ⟨0x81#8, 0x01#8, []⟩ ∧
    tEvents.report.reply = none ∧ tEvents.report.refer = [] ∧
    tEvents.report.event .lotChange = some ⟨1, .pocket 3, 0⟩ ∧ tEvents.report.masked .lotChange = false ∧
    tEvents.report.masked .motionFault = true ∧ tEvents.report.event .jam = none ∧
    (∀ k, k.priority < EventKind.lotChange.priority →
      tEvents.report.event k = none ∨ tEvents.report.masked k = true) ∧
    (sending tLine).report.lotEnd = [] ∧ (sending tLine).report.part = [] := by
  refine ⟨by decide, by decide, by decide, by decide, by decide, by decide, by decide, by decide, ?_, by decide, by decide⟩
  intro k; cases k <;> decide

theorem witness_ReportsHandedOver : tLine.report.part.length < 64 ∧ tLine.report.events.length = 14 ∧
    tLine.report.event .jam = none ∧ tEvents.report.event .lotChange = some ⟨1, .pocket 3, 0⟩ ∧
    64 ≤ (tLine.modReport fun r =>
      { r with part := List.replicate 64 ⟨1, 0, 1, 1, .lost, none, none, none, false, 0, 0, []⟩ }).report.part.length := by
  decide

/-- A full REFER queue whose third report is the oldest no longer live, and a full LOT.END queue. -/
theorem witness_ReportsHandedOver_full : ∀ live : ReferReport, live = ⟨1, 0, .s0, 1, 0, 4, true⟩ → ∃ s : State,
    s = tLine.modReport (fun r => { r with
      refer := List.replicate 2 live ++ { live with live := false } :: List.replicate 45 live
      lotEnd := List.replicate 2 ⟨.s0, 77, [], .drained, 1, 1, .zero⟩ }) ∧
    48 ≤ s.report.refer.length ∧ s.report.refer = List.replicate 2 live ++ { live with live := false } :: List.replicate 45 live ∧
    (∀ x ∈ List.replicate 2 live, x.live = true) ∧
    s.report.lotEnd = ⟨.s0, 77, [], .drained, 1, 1, .zero⟩ :: List.replicate 1 ⟨.s0, 77, [], .drained, 1, 1, .zero⟩ ∧
    tLine.report.refer.length < 48 ∧ tLine.report.lotEnd.length < 2 := by
  rintro _ rfl
  exact ⟨_, rfl, by decide, rfl, by decide, rfl, by decide, by decide⟩

theorem witness_CountReadTaken : tLine.taking ∧ 4 < 5 ∧ (20 < 21 ∧ 1 < 2) ∧ 1 ≤ 20 ∧ 20 ≤ 20 ∧ (tLine.chute 20).cfg = none ∧
    (tLine.chute 1).cfg = some ⟨5, 3, 2, none, 3⟩ := by
  unfold State.taking TransmitInv; decide

theorem witness_EventMaskTaken : tLine.taking ∧ 65535 < 65536 ∧ 16384 ≤ 16384 ∧ 16383 < 16384 ∧ (sending tLine).taking ∧
    (sending tLine).report.tx = some ⟨0x81#8, 0x01#8, []⟩ := by
  unfold State.taking TransmitInv; decide

/-! ### Single steps -/

/-- The reply being sent or waiting after a command, with the state. -/
def after (c : Instr) (s : State) : State :=
  match exec c s with
  | .next t => t
  | .fault _ => s
  | .refused _ => s

def replyOf (s : State) : Option (List Byte) := (s.report.reply <|> s.report.tx).map Frame.payload

/-- R173: right after reset, both straps low: NK-612, version 01H, 115,200 bit/s, table invalid, number FFFFH, P 0. -/
theorem test_ident : replyOf (after (.ident 7) State.reset) =
    some [0x00, 0x4E, 0x4B, 0x2D, 0x36, 0x31, 0x32, 0x01, 0x00, 0xC2, 0x01, 0x00, 0x00, 0xFF, 0xFF, 0x00] := by
  decide +kernel

/-- R174: the request 130.00 °C is stored as 125.00 °C, with the clamped mark. -/
theorem test_temp_clamped : replyOf (after (.tempSet 7 13000) State.reset) = some [0x00, 0xD4, 0x30, 0x01] ∧
    (after (.tempSet 7 13000) State.reset).temp.record = .current 12500 := by decide +kernel

/-- R28: LINE.START right after reset fails conditions 1 to 5. -/
theorem test_start_refused : (after (.lineStart 7 20 250 0) State.reset).line = State.reset.line ∧
    State.reset.startFailed = 31 := by decide +kernel

/-- R25: an index start before TRACK.SET only advances k. -/
theorem test_index_unconfigured : (after (.indexStart true true) State.reset).track = { Track.powerOn with k := 1 } := by
  decide +kernel

/-- R37: the motion timer of a RUN line runs out. -/
theorem test_motion_fault : (after .motionTimerExpiry (lineAt tLine .run true)).line.state = .faulted := by decide +kernel

/-- R16: the load takes the last serial, and the next one is 1. -/
theorem test_load : (after (.indexStart true false) tLoad).track.nextSerial = 1 ∧
    ((after (.indexStart true false) tLoad).pocket 0).state = .loaded := by decide +kernel

/-- R136, R138: the reply of a configured chute carries its alternate none as present, value 0. -/
theorem test_alternate_none : replyOf (after (.chuteConfigure 7 20 ⟨9, 1, 1, 0, 1⟩) tStore) =
    some [0x00, 0x01, 0x01, 0x09, 0x01, 0x01, 0x00, 0x01, 0x01, 0x00, 0x01, 0x00, 0x01, 0x01, 0x00, 0x00, 0x00, 0x00, 0x00,
      0x00, 0x00, 0x03] := by decide +kernel

end Sys2Proof.Tests
end

