-- ==== Sys2Proof/Proofs/Reads.lean ====
section
/-! PROOFS. What the named reads of State (a pocket, a chute, a slot, a channel, an event's entry) return after each named
update, and what a step of the machine can be. -/

namespace Sys2Proof.Machine

/-! ### Pockets -/

theorem State.pocket_congr {s t : State} (h : t.track = s.track) (q : Nat) : t.pocket q = s.pocket q := by
  simp only [State.pocket, h]

@[simp] theorem State.modPocket_length (s : State) (q : Nat) (f : Pocket → Pocket) :
    (s.modPocket q f).track.pockets.length = s.track.pockets.length := by
  simp [State.modPocket]

theorem State.pocket_outside {s : State} {q : Nat} (h : s.track.pockets.length ≤ q) : s.pocket q = .emptied :=
  List.getD_eq_default _ _ h

/-- A pocket that is occupied has a number in the table. -/
theorem State.lt_of_occupied {s : State} {q : Nat} (h : (s.pocket q).occupied = true) : q < s.track.pockets.length := by
  by_contra hq
  rw [State.pocket_outside (by omega)] at h
  exact absurd h (by decide)

theorem State.pocket_mem {s : State} {q : Nat} (h : q < s.track.pockets.length) : s.pocket q ∈ s.track.pockets := by
  rw [State.pocket, List.getD_eq_getElem _ _ h]
  exact List.getElem_mem h

/-- A record of the table is that of some pocket number. -/
theorem State.exists_pocket {s : State} {p : Pocket} (h : p ∈ s.track.pockets) :
    ∃ q, q < s.track.pockets.length ∧ s.pocket q = p := by
  obtain ⟨q, hq, rfl⟩ := List.getElem_of_mem h
  exact ⟨q, hq, List.getD_eq_getElem _ _ hq⟩

theorem State.modPocket_same {s : State} {q : Nat} (h : q < s.track.pockets.length) (f : Pocket → Pocket) :
    (s.modPocket q f).pocket q = f (s.pocket q) := by
  simp [State.pocket, State.modPocket, List.getD_eq_getElem?_getD, List.getElem?_eq_getElem h]

theorem State.modPocket_ne {s : State} {q r : Nat} (h : r ≠ q) (f : Pocket → Pocket) :
    (s.modPocket q f).pocket r = s.pocket r := by
  simp [State.pocket, State.modPocket, List.getD_eq_getElem?_getD, Ne.symm h]

/-- The record of any pocket after an update of pocket q. -/
theorem State.modPocket_cases (s : State) (q r : Nat) (f : Pocket → Pocket) :
    (s.modPocket q f).pocket r = s.pocket r ∨ (r = q ∧ (s.modPocket q f).pocket r = f (s.pocket r)) := by
  by_cases hr : r = q
  · subst hr
    by_cases hq : r < s.track.pockets.length
    · exact .inr ⟨rfl, State.modPocket_same hq f⟩
    · left
      rw [State.pocket_outside (s := s) (by omega), State.pocket_outside (by simpa using hq)]
  · exact .inl (State.modPocket_ne hr f)

/-- Updates of one pocket one after the other are one update. -/
theorem State.modPocket_modPocket (s : State) (q : Nat) (f g : Pocket → Pocket) :
    ((s.modPocket q f).modPocket q g).track = (s.modPocket q (g ∘ f)).track := by
  simp only [State.modPocket, State.modTrack_track, List.modify_modify_eq]

/-- An update of a pocket depends on the track alone. -/
theorem State.modPocket_congr {s t : State} (h : t.track = s.track) (q : Nat) (f : Pocket → Pocket) :
    (t.modPocket q f).track = (s.modPocket q f).track := by
  simp only [State.modPocket, State.modTrack_track, h]

/-! ### Positions (R7, R8) -/

theorem Track.pocketAt_lt {t : Track} (h : t.p ≠ 0) (pos : Nat) : t.pocketAt pos < t.p :=
  Nat.mod_lt _ (Nat.pos_of_ne_zero h)

theorem Track.positionOf_pocketAt {t : Track} {pos : Nat} (hphi : t.phi < t.p) (h : pos < t.p) :
    t.positionOf (t.pocketAt pos) = pos := by
  have h1 : pos + (t.p - t.phi) + t.phi = pos + t.p := by omega
  rw [Track.positionOf, Track.pocketAt, Nat.mod_add_mod, h1, Nat.add_mod_right, Nat.mod_eq_of_lt h]

theorem Track.pocketAt_positionOf {t : Track} {q : Nat} (hphi : t.phi < t.p) (h : q < t.p) :
    t.pocketAt (t.positionOf q) = q := by
  have h1 : q + t.phi + (t.p - t.phi) = q + t.p := by omega
  rw [Track.positionOf, Track.pocketAt, Nat.mod_add_mod, h1, Nat.add_mod_right, Nat.mod_eq_of_lt h]

/-- Two positions of the track hold two pockets. -/
theorem Track.pocketAt_ne {t : Track} {a b : Nat} (hphi : t.phi < t.p) (ha : a < t.p) (hb : b < t.p) (h : a ≠ b) :
    t.pocketAt a ≠ t.pocketAt b := fun he =>
  h (by rw [← Track.positionOf_pocketAt hphi ha, he, Track.positionOf_pocketAt hphi hb])

theorem State.modShared_only (s : State) (f : Shared → Shared) : Only [.shared] s (s.modShared f) := by
  intro b hb
  cases b
  case shared => simp at hb
  all_goals rfl

/-! ### Chutes -/

theorem State.chute_congr {s t : State} (h : t.chutes = s.chutes) (c : Nat) : t.chute c = s.chute c := by
  simp only [State.chute, h]

theorem State.modChute_same {s : State} {c : Nat} (h1 : 1 ≤ c) (h2 : c ≤ s.chutes.length) (f : Chute → Chute) :
    (s.modChute c f).chute c = f (s.chute c) := by
  have hc : c ≠ 0 := by omega
  have hl : c - 1 < s.chutes.length := by omega
  simp [State.chute, State.modChute, hc, List.getD_eq_getElem?_getD, List.getElem?_eq_getElem hl]

theorem State.modChute_ne {s : State} {c x : Nat} (h : x ≠ c) (f : Chute → Chute) :
    (s.modChute c f).chute x = s.chute x := by
  by_cases hx : x = 0
  · simp [State.chute, hx]
  by_cases hc : c = 0
  · simp [State.modChute, hc]
  have hne : c - 1 ≠ x - 1 := by omega
  simp [State.chute, State.modChute, hx, hc, List.getD_eq_getElem?_getD, hne]

/-- The table after an update of chute c (R136). -/
theorem State.modChute_chutes {s : State} {c : Nat} (h : 1 ≤ c) (f : Chute → Chute) :
    (s.modChute c f).chutes = s.chutes.modify (c - 1) f := by
  simp [State.modChute, Nat.ne_of_gt h]

/-- The entry of any chute after an update of chute c. -/
theorem State.modChute_cases (s : State) (c x : Nat) (f : Chute → Chute) :
    (s.modChute c f).chute x = s.chute x ∨ (x = c ∧ (s.modChute c f).chute x = f (s.chute x)) := by
  by_cases hx : x = c
  · subst hx
    by_cases h1 : x = 0
    · left; simp [State.modChute, h1]
    by_cases h2 : x ≤ s.chutes.length
    · exact .inr ⟨rfl, State.modChute_same (by omega) h2 f⟩
    · left
      have hl : s.chutes.length ≤ x - 1 := by omega
      simp [State.chute, State.modChute, h1, List.modify_eq_self hl]
  · exact .inl (State.modChute_ne hx f)

/-- An account's update of the chute table, whatever event it raises (R137). -/
theorem State.account_chutes (s : State) (c : Nat) (f : Chute → Chute) :
    (s.account c f).chutes = (s.modChute c f).chutes := by
  unfold State.account
  dsimp only
  split
  · exact (State.raise_only _ _ _) .chutes (by decide)
  · rfl

/-! ### Slots and channels -/

theorem State.slot_congr {s t : State} (h0 : t.slot0 = s.slot0) (h1 : t.slot1 = s.slot1) (i : SlotId) :
    t.slot i = s.slot i := by
  cases i
  · exact h0
  · exact h1

theorem State.chan_congr {s t : State} (hA : t.chanA = s.chanA) (hB : t.chanB = s.chanB) (ch : Chan) :
    t.chan ch = s.chan ch := by
  cases ch
  · exact hA
  · exact hB

theorem Chan.eq_or_other (ch x : Chan) : x = ch ∨ x = chanOther ch := by
  cases ch <;> cases x <;> simp [chanOther]

theorem SlotId.eq_or_other (i x : SlotId) : x = i ∨ x = i.other := by
  cases i <;> cases x <;> simp [SlotId.other]

/-! ### What a step can be -/

/-- A step of the part is what happens when no command waits, or the command at the front of the queue. -/
theorem step_cases {s t : State} (h : step s = .next t) :
    t = s.idle ∨ ∃ c rest, s.pending = c :: rest ∧ exec c { s with pending := rest } = .next t := by
  unfold step at h
  split at h
  · exact .inl (Host.Outcome.next.inj h).symm
  · exact .inr ⟨_, _, ‹_›, h⟩

/-- A request row that its owner answers by the common rule: every request but CAL.WRITE, and but EVENT.MASK, whose change of the
mask the transmitter judges in its own way. -/
def commonRequest : Request → Bool
  | .calWrite _ => false
  | .eventMask _ => false
  | _ => true

/-- A row of a common request is taken at once by its owner or waits (log entry 1). -/
theorem exec_common {c : Instr} {tag : Byte} {r : Request} (h : c.request = some (tag, r))
    (hr : commonRequest r = true) (s : State) : exec c s = .next (s.ask tag r (State.owner r)).transmit := by
  cases c <;> simp only [Instr.request, Option.some.injEq, Prod.mk.injEq, reduceCtorEq] at h
  all_goals obtain ⟨rfl, rfl⟩ := h
  case calWrite => simp [commonRequest] at hr
  case eventMask => simp [commonRequest] at hr
  all_goals rfl

/-- The rows of requests: the common ones, CAL.WRITE and EVENT.MASK. -/
theorem request_cases {c : Instr} {tag : Byte} {r : Request} (h : c.request = some (tag, r)) :
    commonRequest r = true ∨ (∃ ps b, c = .calWrite tag ps b) ∨ ∃ m, c = .eventMask tag m := by
  cases c <;> simp only [Instr.request, Option.some.injEq, Prod.mk.injEq, reduceCtorEq] at h
  all_goals obtain ⟨rfl, rfl⟩ := h
  case calWrite ps b => exact .inr (.inl ⟨ps, b, rfl⟩)
  case eventMask m => exact .inr (.inr ⟨m, rfl⟩)
  all_goals exact .inl rfl

end Sys2Proof.Machine
end

