-- ==== Sys2Proof/Proofs/Pockets.lean ====
section
/-! PROOFS. How a pocket record moves from state to state while it stays occupied, and which updates keep it in agreement with
its state (R9 to R13, R133, R134). -/

namespace Sys2Proof.Machine

theorem Pocket.occupied_iff (p : Pocket) : p.occupied = true ↔ p.state ≠ .empty := by simp [Pocket.occupied]

theorem Pocket.unoccupied_iff (p : Pocket) : p.occupied = false ↔ p.state = .empty := by simp [Pocket.occupied]

theorem targeted_ne_empty {x : PocketState} (h : x.targeted) : x ≠ .empty := by
  rintro rfl
  simp [PocketState.targeted] at h

theorem pocketInv_emptied : PocketInv .emptied := by
  simp [PocketInv, Pocket.emptied, PocketState.targeted]

/-- What becomes of a pocket's record while its part stays in it: the same part in the same lot; the record still agrees with its
state; a pocket with a target keeps having one, and none goes on to lap 2 without (R13, R16, R134). -/
structure Pocket.Evolves (p p' : Pocket) : Prop where
  occupied : p'.occupied = p.occupied
  serial : p'.serial = p.serial
  slot : p'.slot = p.slot
  inv : p.occupied = true → PocketInv p →
    PocketInv p' ∧ (p.state.targeted → p'.state.targeted) ∧ (p'.lap = 2 → p.lap = 2 ∨ p'.state.targeted)

theorem Pocket.Evolves.refl (p : Pocket) : p.Evolves p :=
  ⟨rfl, rfl, rfl, fun _ h => ⟨h, id, .inl⟩⟩

theorem Pocket.Evolves.trans {p p' p'' : Pocket} (h : p.Evolves p') (k : p'.Evolves p'') : p.Evolves p'' := by
  refine ⟨k.occupied.trans h.occupied, k.serial.trans h.serial, k.slot.trans h.slot, fun ho hi => ?_⟩
  obtain ⟨hi', ht, hl⟩ := h.inv ho hi
  obtain ⟨hi'', kt, kl⟩ := k.inv (h.occupied.trans ho) hi'
  exact ⟨hi'', kt ∘ ht, fun h2 => (kl h2).elim (fun h1 => (hl h1).imp_right kt) .inr⟩

/-! ### The updates of a record -/

/-- A pocket committed to a chute (R142 steps 1 and 2). -/
def Pocket.committed (c : Nat) (overflow : Bool) (p : Pocket) : Pocket :=
  { p with state := .decided, chute := some c, overflow := overflow }

/-- A pocket held (R142 step 3). -/
def Pocket.putOnHold (p : Pocket) : Pocket := { p with state := .held, chute := none, overflow := false }

/-- What a commit makes of a record (R142). -/
def Pocket.Commit (f : Pocket → Pocket) : Prop := (∃ c o, f = Pocket.committed c o) ∨ f = Pocket.putOnHold

/-- A decision and a target written (R121, R129). -/
def Pocket.withTarget (dec : Option Decision) (target : Option Nat) (p : Pocket) : Pocket :=
  { p with decision := dec, target := target }

/-- An attempt entry appended and charged leaves the rest of the record. -/
theorem Pocket.addAttempt_eq (a : Attempt) (p : Pocket) :
    ∃ r e, p.addAttempt a = { p with attempts := p.attempts ++ [a], retries := r, exhausted := e } := by
  unfold Pocket.addAttempt Pocket.charge
  dsimp only
  split
  · split
    · exact ⟨_, _, rfl⟩
    · exact ⟨_, _, rfl⟩
  · exact ⟨_, _, rfl⟩

theorem Pocket.evolves_addAttempt (a : Attempt) (p : Pocket) : p.Evolves (p.addAttempt a) := by
  obtain ⟨r, e, h⟩ := p.addAttempt_eq a
  rw [h]
  refine ⟨rfl, rfl, rfl, fun ho hi => ⟨?_, id, .inl⟩⟩
  rw [Pocket.occupied_iff] at ho
  obtain ⟨-, h2, h3, h4, h5, h6, h7, h8, h9, h10⟩ := hi
  refine ⟨fun he => absurd he ho, h2, h3, h4, h5, fun hm => ?_, h7, h8, h9, h10⟩
  obtain ⟨x, hx, hxo⟩ := h6 hm
  exact ⟨x, List.mem_append_left _ hx, hxo⟩

/-- A commit of an occupied pocket that has a decision and a target, or is given them (R121, R129, R144). -/
theorem Pocket.evolves_commit {p : Pocket} {f : Pocket → Pocket} (hf : Pocket.Commit f) (ho : p.occupied = true)
    {dec : Option Decision} {target : Option Nat}
    (hd : PocketInv p → dec.isSome = true ∧ target.isSome = true) : p.Evolves (f (p.withTarget dec target)) := by
  have hstate : (f (p.withTarget dec target)).state.targeted := by
    obtain ⟨c, o, rfl⟩ | rfl := hf
    · exact .inl rfl
    · exact .inr (.inl rfl)
  refine ⟨?_, ?_, ?_, fun _ hi => ⟨?_, fun _ => hstate, fun _ => .inr hstate⟩⟩
  · rw [ho, Pocket.occupied_iff]
    exact targeted_ne_empty hstate
  · obtain ⟨c, o, rfl⟩ | rfl := hf <;> rfl
  · obtain ⟨c, o, rfl⟩ | rfl := hf <;> rfl
  · obtain ⟨hdec, htar⟩ := hd hi
    rw [Pocket.occupied_iff] at ho
    obtain ⟨-, h2, h3, h4, -⟩ := hi
    obtain ⟨c, o, rfl⟩ | rfl := hf
    · simp [PocketInv, Pocket.committed, Pocket.withTarget, PocketState.targeted, h2 ho, h3, h4, hdec, htar]
    · simp [PocketInv, Pocket.putOnHold, Pocket.withTarget, PocketState.targeted, h2 ho, h3, h4, hdec, htar]

/-- A LOADED or MEASURING pocket referred (R126). -/
theorem Pocket.evolves_refer {p : Pocket} (h : p.state = .loaded ∨ p.state = .measuring) (dec : Decision) :
    p.Evolves { p with state := .referred, decision := some dec } := by
  have ho : p.state ≠ .empty := by rcases h with h | h <;> simp [h]
  have hnt : ¬p.state.targeted := by rcases h with h | h <;> simp [h, PocketState.targeted]
  refine ⟨?_, rfl, rfl, fun _ hi => ⟨?_, fun ht => absurd ht hnt, .inl⟩⟩
  · rw [(p.occupied_iff).mpr ho]; rfl
  · obtain ⟨-, h2, h3, h4, h5, -⟩ := hi
    obtain ⟨hlap, -, htar, hch⟩ := h5 h
    simp [PocketInv, PocketState.targeted, h2 ho, h4, hlap, htar, hch]

/-- A LOADED or MEASURING pocket with an ACCEPTED attempt raised to the next grade (R125, R133). -/
theorem Pocket.evolves_escalate {p : Pocket} (h : p.state = .loaded ∨ p.state = .measuring)
    (ha : ∃ a ∈ p.attempts, a.outcome = .accepted) (g : Nat) :
    p.Evolves { p with state := .measuring, nextGrade := g } := by
  have ho : p.state ≠ .empty := by rcases h with h | h <;> simp [h]
  have hnt : ¬p.state.targeted := by rcases h with h | h <;> simp [h, PocketState.targeted]
  refine ⟨?_, rfl, rfl, fun _ hi => ⟨?_, fun ht => absurd ht hnt, .inl⟩⟩
  · rw [(p.occupied_iff).mpr ho]; rfl
  · obtain ⟨-, h2, h3, h4, h5, -⟩ := hi
    obtain ⟨hlap, hdec, htar, hch⟩ := h5 h
    simpa [PocketInv, PocketState.targeted, h2 ho, h4, hlap, hdec, htar, hch] using ha

/-- A DECIDED pocket fired (R145). -/
theorem Pocket.evolves_fire {p : Pocket} (h : p.state = .decided) :
    p.Evolves { p with state := .ejected, jetFired := true } := by
  have ht : PocketState.ejected.targeted := .inr (.inr rfl)
  refine ⟨by rw [Pocket.occupied, Pocket.occupied, h]; rfl, rfl, rfl, fun _ hi => ⟨?_, fun _ => ht, .inl⟩⟩
  obtain ⟨-, h2, h3, h4, -, -, -, h8, -, h10⟩ := hi
  simp [PocketInv, PocketState.targeted, h2 (by simp [h]), h3, h4, h8 (.inl h), h10 (.inl h)]

/-- A pocket with a target goes on to lap 2 (R13). -/
theorem Pocket.evolves_secondLap {p : Pocket} (h : p.state.targeted) : p.Evolves p.secondLap := by
  refine ⟨rfl, rfl, rfl, fun _ hi => ⟨?_, fun _ => h, fun _ => .inr h⟩⟩
  obtain ⟨h1, h2, h3, h4, -, -, -, h8, h9, h10⟩ := hi
  have hne := targeted_ne_empty h
  rcases h with h | h | h <;>
    simp_all [PocketInv, Pocket.secondLap, PocketState.targeted]

/-- An eject miss makes an EJECTED pocket DECIDED again on lap 2 (R20). -/
theorem Pocket.evolves_ejectMiss {p : Pocket} (h : p.state = .ejected) :
    p.Evolves { p.secondLap with state := .decided, misses := 1 } := by
  have ht : PocketState.decided.targeted := .inl rfl
  refine ⟨by rw [Pocket.occupied, Pocket.occupied, h]; rfl, rfl, rfl, fun _ hi => ⟨?_, fun _ => ht, fun _ => .inr ht⟩⟩
  obtain ⟨-, h2, -, -, -, -, -, h8, -, h10⟩ := hi
  simp [PocketInv, Pocket.secondLap, PocketState.targeted, h2 (by simp [h]), h8 (.inr (.inr h)), h10 (.inr h)]

end Sys2Proof.Machine
end

