-- ==== Sys2Proof/Proofs/Evolution.lean ====
section
/-! PROOFS. The operations that leave every part in its pocket: they only evolve the pocket records (R9 to R13), and jobs and
requests go on naming occupied pockets (R8, R75). -/

namespace Sys2Proof.Machine

/-! ### Work (R8, R75) -/

/-- A station job that runs or a station request that waits names pocket q. -/
def State.worksOn (s : State) (q : Nat) : Prop :=
  (∃ ch, ∃ j ∈ (s.chan ch).job, ∃ i g, j.kind = .station i q g) ∨
    ∃ i sl g n r, SchedReq.station i q sl g n r ∈ s.sched.requests

theorem workInv_iff (s : State) : WorkInv s ↔ ∀ q, s.worksOn q → (s.pocket q).occupied = true := by
  constructor
  · rintro ⟨hj, hr⟩ q (⟨ch, j, hm, i, g, hk⟩ | ⟨i, sl, g, n, r, hm⟩)
    · exact hj ch j hm i q g hk
    · exact hr i q sl g n r hm
  · intro h
    exact ⟨fun ch j hm i q g hk => h q (.inl ⟨ch, j, hm, i, g, hk⟩), fun i q sl g n r hm => h q (.inr ⟨i, sl, g, n, r, hm⟩)⟩

/-- No job runs and no request waits. -/
def State.atRest (s : State) : Prop := s.chanA.job = none ∧ s.chanB.job = none ∧ s.sched.requests = []

theorem State.atRest.job {s : State} (h : s.atRest) (ch : Chan) : (s.chan ch).job = none := by
  cases ch
  · exact h.1
  · exact h.2.1

theorem State.atRest.workInv {s : State} (h : s.atRest) : WorkInv s := by
  refine ⟨fun ch j hj => ?_, fun i q sl g n r hr => ?_⟩
  · rw [h.job ch] at hj; contradiction
  · rw [h.2.2] at hr; contradiction

/-- Work in t names pockets that work in s names, or occupied ones. -/
def WorkFrom (s t : State) : Prop := ∀ q, t.worksOn q → s.worksOn q ∨ (s.pocket q).occupied = true

theorem State.worksOn_congr {s t : State} (hA : t.chanA = s.chanA) (hB : t.chanB = s.chanB) (hS : t.sched = s.sched)
    (q : Nat) : t.worksOn q ↔ s.worksOn q := by
  simp only [State.worksOn, hS, State.chan_congr hA hB]

/-- The blocks that name pockets under work: the jobs, and the requests. -/
def workBlocks : List Block := [.chanA, .chanB, .sched]

theorem WorkFrom.of_only {l : List Block} {s t : State} (h : Only l s t) (hw : ∀ b ∈ workBlocks, b ∉ l) : WorkFrom s t :=
  fun q hq => .inl ((State.worksOn_congr (h .chanA (hw _ (by decide))) (h .chanB (hw _ (by decide)))
    (h .sched (hw _ (by decide))) q).mp hq)

/-- A channel's update that keeps the kind of its job, or ends it. -/
theorem State.modChan_workFrom (s : State) (ch : Chan) (f : Channel → Channel)
    (hf : ∀ j' ∈ (f (s.chan ch)).job, ∃ j ∈ (s.chan ch).job, j.kind = j'.kind) : WorkFrom s (s.modChan ch f) := by
  rintro q (⟨x, j', hm, i, g, hk⟩ | ⟨i, sl, g, n, r, hm⟩)
  · rcases Chan.eq_or_other ch x with rfl | rfl
    · rw [State.modChan_same] at hm
      obtain ⟨j, hj, hjk⟩ := hf j' hm
      exact .inl (.inl ⟨x, j, hj, i, g, hjk.trans hk⟩)
    · rw [State.modChan_other] at hm
      exact .inl (.inl ⟨_, j', hm, i, g, hk⟩)
  · rw [State.modChan_sched] at hm
    exact .inl (.inr ⟨i, sl, g, n, r, hm⟩)

/-- The request set made smaller. -/
theorem State.modSched_workFrom (s : State) (f : Sched → Sched) (hf : ∀ r ∈ (f s.sched).requests, r ∈ s.sched.requests) :
    WorkFrom s (s.modSched f) := by
  rintro q (⟨ch, j, hm, i, g, hk⟩ | ⟨i, sl, g, n, r, hm⟩)
  · rw [State.chan_congr (s := s) (t := s.modSched f) rfl rfl] at hm
    exact .inl (.inl ⟨ch, j, hm, i, g, hk⟩)
  · exact .inl (.inr ⟨i, sl, g, n, r, hf _ hm⟩)

/-! ### Evolution -/

/-- Between s and t the geometry, the counts and the serials to come stand, each pocket keeps its part or stays without one, and work
that names occupied pockets goes on doing so without touching an EMPTY record. -/
structure Evolves (s t : State) : Prop where
  geometry : t.track = { s.track with pockets := t.track.pockets, loadPermit := t.track.loadPermit }
  length : t.track.pockets.length = s.track.pockets.length
  pocket : ∀ q, (s.pocket q).Evolves (t.pocket q)
  work : WorkInv s → WorkInv t
  rest : WorkInv s → ∀ q, (s.pocket q).occupied = false → t.pocket q = s.pocket q

theorem Evolves.refl (s : State) : Evolves s s :=
  ⟨rfl, rfl, fun _ => .refl _, id, fun _ _ _ => rfl⟩

theorem Evolves.trans {s t u : State} (h : Evolves s t) (k : Evolves t u) : Evolves s u := by
  refine ⟨?_, k.length.trans h.length, fun q => (h.pocket q).trans (k.pocket q), k.work ∘ h.work, fun hw q hq => ?_⟩
  · rw [k.geometry, h.geometry]
  · rw [k.rest (h.work hw) q ((h.pocket q).occupied.trans hq), h.rest hw q hq]

theorem Evolves.foldl {α : Type} {f : State → α → State} (h : ∀ s a, Evolves s (f s a)) (xs : List α) (s : State) :
    Evolves s (xs.foldl f s) := by
  induction xs generalizing s with
  | nil => exact .refl s
  | cons x xs ih => exact (h s x).trans (ih (f s x))

theorem Evolves.ite {c : Prop} [Decidable c] {s t u : State} (h : Evolves s t) (k : Evolves s u) :
    Evolves s (if c then t else u) := by
  split
  · exact h
  · exact k

/-- Evolution from the pockets, one by one, and the work. -/
theorem Evolves.intro {s t : State}
    (hg : t.track = { s.track with pockets := t.track.pockets, loadPermit := t.track.loadPermit })
    (hl : t.track.pockets.length = s.track.pockets.length) (hp : ∀ q, (s.pocket q).Evolves (t.pocket q))
    (hw : WorkFrom s t) (hr : ∀ q, (s.pocket q).occupied = false → t.pocket q = s.pocket q) : Evolves s t := by
  refine ⟨hg, hl, hp, fun h => ?_, fun _ => hr⟩
  rw [workInv_iff] at h ⊢
  exact fun q hq => (hp q).occupied.trans ((hw q hq).elim (h q) id)

/-- With the pocket table as it was, only the work can change. -/
theorem Evolves.of_work {s t : State} (ht : t.track = { s.track with loadPermit := t.track.loadPermit })
    (hw : WorkFrom s t) : Evolves s t := by
  have hp : ∀ q, t.pocket q = s.pocket q := fun q => by rw [State.pocket, State.pocket, ht]
  refine .intro (by rw [ht]) (by rw [ht]) (fun q => ?_) hw fun q _ => hp q
  rw [hp]; exact .refl _

theorem Evolves.of_only {l : List Block} {s t : State} (h : Only l s t) (hl : ∀ b ∈ .track :: workBlocks, b ∉ l) :
    Evolves s t :=
  .of_work (by rw [show t.track = s.track from h .track (hl _ (.head _))])
    (.of_only h fun b hb => hl b (.tail _ hb))

/-- One occupied pocket evolves, and the work stands. -/
theorem Evolves.of_pocket {l : List Block} {s t : State} {q : Nat} {f : Pocket → Pocket} (h : Only l s t)
    (hw : ∀ b ∈ workBlocks, b ∉ l) (ht : t.track = (s.modPocket q f).track) (ho : (s.pocket q).occupied = true)
    (hf : (s.pocket q).Evolves (f (s.pocket q))) : Evolves s t := by
  have hp : ∀ r, t.pocket r = s.pocket r ∨ (r = q ∧ t.pocket r = f (s.pocket r)) := fun r => by
    rw [State.pocket_congr ht r]; exact s.modPocket_cases q r f
  refine .intro (by rw [ht]; rfl) (by rw [ht, State.modPocket_length]) (fun r => ?_) (.of_only h hw) fun r hr => ?_
  · obtain hr | ⟨rfl, hr⟩ := hp r <;> rw [hr]
    · exact .refl _
    · exact hf
  · obtain h1 | ⟨rfl, -⟩ := hp r
    · exact h1
    · rw [ho] at hr; contradiction

/-- An attempt recorded at pocket q, where the work at the start named it. -/
theorem Evolves.record {s t : State} (h : Evolves s t) (q : Nat) (a : Attempt)
    (hq : WorkInv s → (s.pocket q).occupied = true) : Evolves s (t.recordAttempt q a) := by
  have ht : (t.recordAttempt q a).track = (t.modPocket q (Pocket.addAttempt a)).track := by
    simp [State.recordAttempt]
  have hp : ∀ r, (t.recordAttempt q a).pocket r = t.pocket r ∨
      (r = q ∧ (t.recordAttempt q a).pocket r = (t.pocket r).addAttempt a) := fun r => by
    rw [State.pocket_congr ht r]; exact t.modPocket_cases q r _
  have hev : ∀ r, (t.pocket r).Evolves ((t.recordAttempt q a).pocket r) := fun r => by
    obtain hr | ⟨-, hr⟩ := hp r <;> rw [hr]
    · exact .refl _
    · exact Pocket.evolves_addAttempt a _
  have hwf : WorkFrom (t.modPocket q (Pocket.addAttempt a)) (t.recordAttempt q a) :=
    State.modChan_workFrom _ _ _ fun j hj => ⟨j, hj, rfl⟩
  refine ⟨?_, ?_, fun r => (h.pocket r).trans (hev r), fun hw => ?_, fun hw r hr => ?_⟩
  · rw [ht, State.modPocket, State.modTrack_track, h.geometry]
  · rw [ht, State.modPocket_length, h.length]
  · have hwt := (workInv_iff t).mp (h.work hw)
    rw [workInv_iff]
    intro r hr
    rcases hwf r hr with h1 | h1
    · exact (hev r).occupied.trans (hwt r ((State.worksOn_congr rfl rfl rfl r).mp h1))
    · rwa [State.pocket_congr ht r]
  · obtain h1 | ⟨rfl, -⟩ := hp r
    · rw [h1, h.rest hw r hr]
    · rw [hq hw] at hr; contradiction

/-! ### Updates of one block -/

section
variable (s : State)

/-- A channel's update that keeps the kind of its job, or ends it. -/
theorem State.modChan_evolves (ch : Chan) (f : Channel → Channel)
    (hf : ∀ j' ∈ (f (s.chan ch)).job, ∃ j ∈ (s.chan ch).job, j.kind = j'.kind) : Evolves s (s.modChan ch f) :=
  .of_work (by rw [State.modChan_track]) (s.modChan_workFrom ch f hf)

/-- A channel's update that leaves its job alone. -/
theorem State.modChan_evolves_same (ch : Chan) (f : Channel → Channel) (hf : (f (s.chan ch)).job = (s.chan ch).job) :
    Evolves s (s.modChan ch f) :=
  s.modChan_evolves ch f fun j hj => ⟨j, by rwa [hf] at hj, rfl⟩

/-- A channel's update that keeps the kind of its job. -/
theorem State.modChan_evolves_kind (ch : Chan) (f : Channel → Channel)
    (hf : (f (s.chan ch)).job.map Job.kind = (s.chan ch).job.map Job.kind) : Evolves s (s.modChan ch f) := by
  refine s.modChan_evolves ch f fun j' hj' => ?_
  have h : (s.chan ch).job.map Job.kind = some j'.kind := by rw [← hf, hj']; rfl
  exact Option.map_eq_some_iff.mp h

theorem State.modSched_evolves (f : Sched → Sched) (hf : ∀ r ∈ (f s.sched).requests, r ∈ s.sched.requests) :
    Evolves s (s.modSched f) :=
  .of_work (by rw [State.modSched_track]) (s.modSched_workFrom f hf)

theorem State.modLine_evolves (f : LineCtl → LineCtl) : Evolves s (s.modLine f) := .of_only (s.modLine_only f) (by decide)

theorem State.raise_evolves (k : EventKind) (d : Detail) : Evolves s (s.raise k d) := .of_only (s.raise_only k d) (by decide)

theorem State.judgeDwell_evolves : Evolves s s.judgeDwell := .of_only s.judgeDwell_only (by decide)

theorem State.transmit_evolves : Evolves s s.transmit := .of_only s.transmit_only (by decide)

/-! ### Commits and decisions (R121 to R144) -/

/-- A commit's part in the track: the record of the pocket takes what the commit makes of it (R142). -/
theorem State.commit_track (q t : Nat) :
    ∃ f, Pocket.Commit f ∧ (s.commit q t).track = (s.modPocket q f).track := by
  have hold : (s.holdPocket q t).track = (s.modPocket q Pocket.putOnHold).track :=
    (((s.modPocket q Pocket.putOnHold).raise_only .chuteBlocked (.chute t)).mono (m := [.report, .line]) (by decide)).trans
      ((State.lineBlocked_only _).mono (by decide)) .track (by decide)
  have committed (c : Nat) (o : Bool) : (s.commitTo q c o).track = (s.modPocket q (Pocket.committed c o)).track :=
    State.account_only _ _ _ .track (by decide)
  unfold State.commit
  dsimp only
  split
  · exact ⟨_, .inl ⟨t, false, rfl⟩, committed t false⟩
  · split
    · split
      · exact ⟨_, .inl ⟨_, true, rfl⟩, (State.bumpLotOf_only _ _ _ .track (by decide)).trans (committed _ true)⟩
      · exact ⟨_, .inr rfl, hold⟩
    · exact ⟨_, .inr rfl, hold⟩

/-- A decision's part in the track (R121). -/
theorem State.decide_track (q : Nat) (dec : Decision) (target : Nat) (count : LotCounters → LotCounters) :
    ∃ f, Pocket.Commit f ∧ (s.decide q dec target count).track =
      (s.modPocket q fun p => f (p.withTarget (some dec) (some target))).track := by
  obtain ⟨f, hf, ht⟩ := State.commit_track
    ((s.modPocket q (Pocket.withTarget (some dec) (some target))).bumpLotOf q count) q target
  refine ⟨f, hf, ht.trans ?_⟩
  rw [State.modPocket_congr (State.bumpLotOf_only _ _ _ .track (by decide)), State.modPocket_modPocket]
  rfl

theorem State.decide_evolves {q : Nat} (ho : (s.pocket q).occupied = true) (dec : Decision) (target : Nat)
    (count : LotCounters → LotCounters) : Evolves s (s.decide q dec target count) := by
  obtain ⟨f, hf, ht⟩ := s.decide_track q dec target count
  exact .of_pocket (s.decide_only _ _ _ _) (by decide) ht ho (Pocket.evolves_commit hf ho fun _ => ⟨rfl, rfl⟩)

theorem State.clearLive_track (q : Nat) (serial : Option Nat) : (s.clearLive q serial).track = s.track := rfl

/-- The part that an answered referral has in the track (R129, R131). -/
theorem State.answerReferral_track (q target : Nat) (src : Source) (count : LotCounters → LotCounters) :
    ∃ f, Pocket.Commit f ∧ (s.answerReferral q target src count).track =
      (s.modPocket q fun p => f (p.withTarget (resource src p.decision) (some target))).track := by
  obtain ⟨f, hf, ht⟩ := State.commit_track
    (((s.modPocket q fun p => p.withTarget (resource src p.decision) (some target)).clearLive q
      (s.pocket q).serial).bumpLotOf q count) q target
  refine ⟨f, hf, ht.trans ?_⟩
  rw [State.modPocket_congr (State.bumpLotOf_only _ _ _ .track (by decide)),
    State.modPocket_congr (State.clearLive_track _ _ _), State.modPocket_modPocket]
  rfl

theorem resource_isSome (src : Source) (d : Option Decision) : (resource src d).isSome = true := by
  cases d <;> rfl

theorem State.answerReferral_evolves {q : Nat} (ho : (s.pocket q).occupied = true) (target : Nat) (src : Source)
    (count : LotCounters → LotCounters) : Evolves s (s.answerReferral q target src count) := by
  obtain ⟨f, hf, ht⟩ := s.answerReferral_track q target src count
  exact .of_pocket (s.answerReferral_only _ _ _ _) (by decide) ht ho
    (Pocket.evolves_commit hf ho fun _ => ⟨resource_isSome _ _, rfl⟩)

/-- A HELD pocket retried (R144). -/
theorem State.retryPocket_evolves (q : Nat) : Evolves s (s.retryPocket q) := by
  unfold State.retryPocket
  split
  · next t hstate htarget =>
    obtain ⟨f, hf, ht⟩ := s.commit_track q t
    have ho : (s.pocket q).occupied = true := by rw [Pocket.occupied_iff, hstate]; decide
    refine .of_pocket (s.commit_only _ _) (by decide) ht ho (Pocket.evolves_commit (p := s.pocket q)
      (dec := (s.pocket q).decision) (target := (s.pocket q).target) hf ho fun hi => ?_)
    obtain ⟨-, -, -, -, -, -, -, h8, -⟩ := hi
    exact h8 (.inr (.inl hstate))
  · exact .refl s

theorem State.retryHeld_evolves : Evolves s s.retryHeld := .foldl State.retryPocket_evolves _ s

theorem State.refer_evolves {q : Nat} (h : (s.pocket q).state = .loaded ∨ (s.pocket q).state = .measuring) (dec : Decision)
    (g : Nat) (d : Int) (count : LotCounters → LotCounters) : Evolves s (s.refer q dec g d count) := by
  have ho : (s.pocket q).occupied = true := by rw [Pocket.occupied_iff]; rcases h with h | h <;> rw [h] <;> decide
  have h1 : Evolves s (s.modPocket q fun p => { p with state := .referred, decision := some dec }) :=
    .of_pocket (s.modPocket_only _ _) (by decide) rfl ho (Pocket.evolves_refer h dec)
  have bump (t : State) (f : LotCounters → LotCounters) : Evolves t (t.bumpLotOf q f) :=
    .of_only (t.bumpLotOf_only _ _) (by decide)
  exact ((h1.trans (bump _ _)).trans (.of_only (State.handRefer_only _ _) (by decide))).trans (bump _ _)

/-- An ACCEPTED result judged, where the attempts of the pocket hold it (R119 to R126). -/
theorem State.judgeAccepted_evolves {q : Nat}
    (ha : (s.pocket q).occupied = true → ∃ a ∈ (s.pocket q).attempts, a.outcome = .accepted) (g : Nat) (d : Int)
    (m : Marks) : Evolves s (s.judgeAccepted q g d m) := by
  unfold State.judgeAccepted
  dsimp only
  split
  · split
    · next hj =>
      have hstate : (s.pocket q).state = .loaded ∨ (s.pocket q).state = .measuring := by
        simp only [Pocket.judged, Bool.and_eq_true, Bool.or_eq_true, beq_iff_eq] at hj
        exact hj.1
      have ho : (s.pocket q).occupied = true := by
        rw [Pocket.occupied_iff]; rcases hstate with h | h <;> rw [h] <;> decide
      unfold State.applyJudgement
      split
      · exact s.decide_evolves ho _ _ _
      · split
        · exact s.refer_evolves hstate _ _ _ _
        · exact s.decide_evolves ho _ _ _
      · exact .of_pocket (s.modPocket_only _ _) (by decide) rfl ho (Pocket.evolves_escalate hstate (ha ho) _)
    · exact .refl s
  · exact .refl s

/-- The pocket leaving DECIDE takes its default (R131 to R134). -/
theorem State.leaveDecide_evolves (q : Nat) : Evolves s (s.leaveDecide q) := by
  unfold State.leaveDecide
  split
  · exact .refl s
  · have occupied {x : PocketState} (h : (s.pocket q).state = x) (hx : x ≠ .empty) : (s.pocket q).occupied = true := by
      rw [Pocket.occupied_iff, h]; exact hx
    split
    · next h => exact s.answerReferral_evolves (occupied h (by decide)) _ _ _
    · next h => exact s.decide_evolves (occupied h (by decide)) _ _ _
    · next h =>
      unfold State.defaultMeasuring
      split
      · unfold State.classifyLast
        split
        · exact .refl s
        · split
          · exact s.decide_evolves (occupied h (by decide)) _ _ _
          · exact s.decide_evolves (occupied h (by decide)) _ _ _
      · exact s.decide_evolves (occupied h (by decide)) _ _ _
    all_goals exact .refl s

/-! ### Ends of jobs, faults and SUSPECT (R45, R58, R67, R70) -/

theorem State.endJob_evolves (ch : Chan) : Evolves s (s.endJob ch) :=
  (s.modChan_evolves ch Channel.endJob fun _ hj => nomatch hj).trans
    (State.modSched_evolves _ _ fun _ hr => by cases ch <;> exact hr)

/-- A job that is cut short names an occupied pocket, where its attempt is recorded (R70, R82). -/
theorem State.abortJob_evolves (ch : Chan) (o : JobOutcome) : Evolves s (s.abortJob ch o) := by
  unfold State.abortJob
  split
  · exact .refl s
  · next j hj =>
    dsimp only
    split
    · next i q g hk => exact (s.endJob_evolves ch).record q _ fun hw => hw.1 ch j hj i q g hk
    · exact (s.endJob_evolves ch).trans (State.modChan_evolves_same _ _ _ rfl)

theorem State.cutDwell_evolves : Evolves s s.cutDwell :=
  ((s.modSched_evolves _ fun _ hr => absurd hr List.not_mem_nil).trans (State.abortJob_evolves _ _ _)).trans
    (State.abortJob_evolves _ _ _)

theorem State.raiseFault_evolves (k : FaultKind) (d : Detail) : Evolves s (s.raiseFault k d) := by
  have entry : Evolves s (s.faultEntry k d) :=
    (((s.modLine_evolves _).trans (State.cutDwell_evolves _)).trans (.of_only (State.cutJets_only _) (by decide))).trans
      (State.raise_evolves _ _ _)
  unfold State.raiseFault
  split
  · exact entry
  · exact entry
  · exact entry
  · exact entry
  · exact (s.raise_evolves _ _).trans (State.modLine_evolves _ _)
  · exact s.raise_evolves _ _

theorem State.judgeNoChannel_evolves (ch : Chan) : Evolves s (s.judgeNoChannel ch) :=
  .ite (s.raiseFault_evolves _ _) (.refl s)

theorem State.enterSuspect_evolves (ch : Chan) : Evolves s (s.enterSuspect ch) :=
  (((s.modChan_evolves_same _ _ rfl).trans (State.raise_evolves _ _ _)).trans
    (State.modSched_evolves _ _ fun _ hr => List.mem_of_mem_filter hr)).trans (State.judgeNoChannel_evolves _ _)

theorem State.judgeSource_evolves (ch : Chan) (faulted : Bool) : Evolves s (s.judgeSource ch faulted) :=
  .ite ((s.modChan_evolves_same ch _ rfl).trans (State.enterSuspect_evolves _ _)) (s.modChan_evolves_same ch _ rfl)

/-! ### The scheduler (R74 to R86) -/

theorem firstRequest_mem {n : Nat} {l : List SchedReq} {r : SchedReq} (h : firstRequest n l = some r) : r ∈ l := by
  induction l generalizing r with
  | nil => contradiction
  | cons x xs ih =>
    unfold firstRequest at h
    split at h
    · exact List.mem_cons.mpr (.inl (Option.some.inj h).symm)
    · next b hb =>
      split at h
      · exact List.mem_cons_of_mem _ (Option.some.inj h ▸ ih hb)
      · exact List.mem_cons.mpr (.inl (Option.some.inj h).symm)

/-- A grant makes a job of a request that waited (R81). -/
theorem State.grant_evolves (ch : Chan) {r : SchedReq} (hr : r ∈ s.sched.requests) : Evolves s (s.grant ch r) := by
  refine .of_work (by simp [State.grant]) ?_
  rintro q (⟨x, j, hm, i, g, hk⟩ | ⟨i, sl, g, n, rg, hm⟩)
  · rcases Chan.eq_or_other ch x with rfl | rfl
    · rw [State.grant, State.modChan_same] at hm
      obtain rfl : r.job.1 = j := Option.some.inj hm
      cases r with
      | station i' q' sl g' n rg =>
        obtain ⟨-, rfl, -⟩ := JobKind.station.inj hk
        exact .inl (.inr ⟨i', sl, g', n, rg, hr⟩)
      | check c rg => contradiction
    · rw [State.grant, State.modChan_other] at hm
      exact .inl (.inl ⟨_, j, hm, i, g, hk⟩)
  · rw [State.grant, State.modChan_sched] at hm
    have he : .station i q sl g n rg ∈ s.sched.requests.erase r := by cases ch <;> exact hm
    exact .inl (.inr ⟨i, sl, g, n, rg, List.mem_of_mem_erase he⟩)

theorem State.grantPass_evolves (ch : Chan) : Evolves s (s.grantPass ch) := by
  unfold State.grantPass
  split
  · split
    · next h => exact s.grant_evolves ch (List.mem_of_mem_filter (firstRequest_mem h))
    · exact .refl s
  · exact .refl s

theorem State.review_evolves : Evolves s s.review := by
  unfold State.review
  split
  · exact .refl s
  · have drop : Evolves s s.dropLate :=
      (Evolves.foldl (f := State.noTime) (fun u r => u.modChan_evolves_same _ _ rfl) _ s).trans
        (State.modSched_evolves _ _ fun _ hr => List.mem_of_mem_filter hr)
    exact (drop.trans (State.grantPass_evolves _ _)).trans (State.grantPass_evolves _ _)

theorem State.offer_evolves : Evolves s s.offer := s.review_evolves.trans (State.judgeDwell_evolves _)

/-- The set formed at a settle names pockets that are LOADED or MEASURING (R75). -/
theorem State.formRequests_evolves : Evolves s s.formRequests := by
  refine .of_work (by simp [State.formRequests]) ?_
  rintro q (⟨ch, j, hm, i, g, hk⟩ | ⟨i, sl, g, n, r, hm⟩)
  · rw [State.chan_congr (s := s) (t := s.formRequests) rfl rfl] at hm
    exact .inl (.inl ⟨ch, j, hm, i, g, hk⟩)
  · right
    simp only [State.formRequests, State.modSched_sched, List.mem_append, List.mem_filterMap] at hm
    obtain ⟨i', -, h⟩ | ⟨ch, -, h⟩ := hm
    · simp only [State.stationRequest] at h
      split at h
      · split at h
        · next hw =>
          obtain ⟨-, rfl, -⟩ := SchedReq.station.inj (Option.some.inj h)
          simp only [Pocket.wants, Bool.and_eq_true, Bool.or_eq_true, beq_iff_eq] at hw
          obtain ⟨⟨⟨hst, -⟩, -⟩, -⟩ := hw
          rw [Pocket.occupied_iff]
          rcases hst with hst | hst <;> rw [hst] <;> decide
        · contradiction
      · contradiction
    · unfold State.checkRequest at h
      split at h
      · contradiction
      · obtain ⟨r', -, hr'⟩ := Option.map_eq_some_iff.mp h
        contradiction

end

end Sys2Proof.Machine
end

