-- ==== Sys2Proof/Proofs/EvolvingCommands.lean ====
section
/-! PROOFS. Every command but POWER_ON_RESET, INDEX_START, TRACK.SET, LINE.RESET and POCKET.PURGE leaves every part in its
pocket. -/

namespace Sys2Proof.Machine

section
variable (s : State)

/-! ### Completion of a job (R67, R82, R102) -/

/-- A recorded attempt stands among the attempts of its pocket. -/
theorem State.mem_attempts_recordAttempt {q : Nat} (h : q < s.track.pockets.length) (a : Attempt) :
    a ∈ ((s.recordAttempt q a).pocket q).attempts := by
  have hp : (s.recordAttempt q a).pocket q = (s.pocket q).addAttempt a := by
    rw [State.pocket_congr (t := s.recordAttempt q a) (s := s.modPocket q (Pocket.addAttempt a)) (by simp [State.recordAttempt]),
      State.modPocket_same h]
  obtain ⟨r, e, he⟩ := (s.pocket q).addAttempt_eq a
  rw [hp, he]
  simp

/-- A station job that named an occupied pocket completes: its attempt is recorded there and an ACCEPTED result judged. -/
theorem Evolves.completeStation {s t : State} (h : Evolves s t) (ch : Chan) {q : Nat}
    (hq : WorkInv s → (s.pocket q).occupied = true) (i g : Nat) (r : StationResult) :
    Evolves s (t.completeStation ch i q g r) := by
  have hrec := (h.trans (t.judgeSource_evolves ch (r == .sourceFault))).record q (resultAttempt i ch g r) hq
  refine hrec.trans ?_
  unfold State.completeStation State.handResult
  split
  · next d m =>
    refine State.judgeAccepted_evolves _ (fun ho => ⟨_, State.mem_attempts_recordAttempt _ ?_ _, rfl⟩) g d m
    have hl := State.lt_of_occupied ho
    simpa [State.recordAttempt] using hl
  · exact .refl _

theorem State.completeCheck_evolves (ch : Chan) (r : Nat) (result : Option Int) :
    Evolves s (s.completeCheck ch r result) := by
  have count : Evolves s (s.modChan ch fun c => { c with cnt := countCheck c.cnt }) := s.modChan_evolves_same ch _ rfl
  unfold State.completeCheck
  split
  · exact count.trans (State.judgeSource_evolves _ _ _)
  · have h := count.trans (State.judgeSource_evolves _ ch false)
    exact .ite (h.trans ((Evolves.of_only (State.modCal_only _ _) (by decide)).trans (State.modChan_evolves_same _ _ _ rfl)))
      (h.trans (State.enterSuspect_evolves _ _))

theorem State.completeJob_evolves (ch : Chan) {j j' : Job} (hj : (s.chan ch).job = some j) (hk : j'.kind = j.kind) :
    Evolves s (s.completeJob ch j') := by
  unfold State.completeJob
  dsimp only
  split
  · next i q g h =>
    exact ((s.endJob_evolves ch).completeStation ch (fun hw => hw.1 ch j hj i q g (hk.symm.trans h)) i g _).trans
      (State.offer_evolves _)
  · exact ((s.endJob_evolves ch).trans (State.completeCheck_evolves _ _ _ _)).trans (State.offer_evolves _)

/-! ### Frames of the converter link (R53 to R69) -/

theorem Channel.enterSample_kind (st : JobState) (c : Channel) :
    (c.enterSample st).job.map Job.kind = c.job.map Job.kind := by
  simp [Channel.enterSample, Option.map_map, Function.comp_def]

theorem Channel.enterSettle_kind (pol : Polarity) (settle sample : JobState) (c : Channel) :
    (c.enterSettle pol settle sample).job.map Job.kind = c.job.map Job.kind := by
  unfold Channel.enterSettle
  dsimp only
  split <;> simp [Channel.enterSample_kind, Option.map_map, Function.comp_def]

theorem Channel.settleFrame_kind (sample : JobState) (j : Job) (c : Channel) :
    (c.settleFrame sample j).job.map Job.kind = some j.kind := by
  unfold Channel.settleFrame
  dsimp only
  split <;> simp [Channel.enterSample_kind]

theorem Job.addSample_kind (positive : Bool) (f : Sample) (j : Job) : (j.addSample positive f).kind = j.kind := by
  cases positive <;> rfl

theorem State.sampleError_evolves (ch : Chan) {j : Job} (hj : (s.chan ch).job = some j) : Evolves s (s.sampleError ch j) :=
  .ite ((s.abortJob_evolves ch .linkError).trans (State.offer_evolves _))
    (s.modChan_evolves_kind ch _ (by rw [hj]; rfl))

theorem State.goodSample_evolves (ch : Chan) (positive : Bool) (f : Sample) {j : Job} (hj : (s.chan ch).job = some j) :
    Evolves s (s.goodSample ch positive f j) := by
  have hk := j.addSample_kind positive f
  have same : Evolves s (s.modChan ch fun c => { c with job := some (j.addSample positive f) }) :=
    s.modChan_evolves_kind ch _ (by rw [hj, Option.map_some, hk]; rfl)
  have turn : Evolves s (s.modChan ch (Channel.endPositive (j.addSample positive f))) :=
    s.modChan_evolves_kind ch _ (by rw [Channel.endPositive, Channel.enterSettle_kind, hj, Option.map_some, hk]; rfl)
  exact .ite (.ite (.ite turn (s.completeJob_evolves ch hj hk)) same)
    ((s.abortJob_evolves ch .contactLost).trans (State.offer_evolves _))

theorem State.useFrame_evolves (ch : Chan) (err : Option FrameError) (f : Taken) : Evolves s (s.useFrame ch err f) := by
  unfold State.useFrame
  split
  · exact .refl s
  · next j hj =>
    split
    · exact .refl s
    · exact .refl s
    · exact s.modChan_evolves_kind ch _ (by rw [Channel.settleFrame_kind, hj]; rfl)
    · exact s.modChan_evolves_kind ch _ (by rw [Channel.settleFrame_kind, hj]; rfl)
    · split
      · exact s.goodSample_evolves ch _ _ hj
      · exact s.sampleError_evolves ch hj
    · split
      · exact s.goodSample_evolves ch _ _ hj
      · exact s.sampleError_evolves ch hj

theorem State.countGood_evolves (ch : Chan) (err : Option FrameError) : Evolves s (s.countGood ch err) :=
  .ite (s.modChan_evolves_same ch _ rfl)
    (.ite ((s.modChan_evolves_same ch Channel.enterService rfl).trans (State.offer_evolves _))
      (s.modChan_evolves_same ch _ rfl))

theorem State.takeFrame_evolves (ch : Chan) (f : Taken) : Evolves s (s.takeFrame ch f) := by
  have h (n : ChanCounters → ChanCounters) :
      Evolves s (s.modChan ch fun c => { c.restartWatchdog with cnt := n c.cnt }) := s.modChan_evolves_same ch _ rfl
  unfold State.takeFrame
  dsimp only
  split
  · exact (h _).trans (State.useFrame_evolves _ _ _ _)
  · exact (h _).trans (State.countGood_evolves _ _ _)
  · exact h _

theorem State.linkSymbol_evolves (ch : Chan) (y : LinkSymbol) : Evolves s (s.linkSymbol ch y) := by
  have h (r : Receiver) : Evolves s (s.modChan ch fun c => { c with receiver := r }) := s.modChan_evolves_same ch _ rfl
  unfold State.linkSymbol
  dsimp only
  split
  · exact (h _).trans (State.takeFrame_evolves _ _ _)
  · exact h _

theorem State.stallJob_evolves (ch : Chan) : Evolves s (s.stallJob ch) :=
  .ite ((s.abortJob_evolves ch .stall).trans (State.offer_evolves _)) (.refl s)

/-! ### The settle (R33, R144, R145) -/

theorem State.judgeLoadOk_evolves : Evolves s s.judgeLoadOk := by
  refine .ite (.of_work rfl ?_) (.refl s)
  exact .of_only (((s.modLine_only _).mono (m := [.line, .track]) (by decide)).trans
    ((State.modTrack_only _ _).mono (by decide))) (by decide)

/-- One chute's firing: its account, and the pocket at its eject position EJECTED (R145). -/
theorem State.fireChute_evolves (c : Nat) : Evolves s (s.fireChute c) := by
  unfold State.fireChute
  split
  · exact .refl s
  · next g _ =>
    dsimp only
    split
    · next h =>
      have hst : (s.pocket (s.track.pocketAt g.ejectPos)).state = .decided := by
        simp only [Pocket.firesFor, Bool.and_eq_true, beq_iff_eq] at h
        exact h.1.1
      have ho : (s.pocket (s.track.pocketAt g.ejectPos)).occupied = true := by rw [Pocket.occupied_iff, hst]; decide
      have hacc := s.account_only c (fired g.pulseMs)
      exact .of_pocket ((hacc.mono (m := [.chutes, .report, .track]) (by decide)).trans
        ((State.modPocket_only _ _ _).mono (by decide))) (by decide) (State.modPocket_congr (hacc .track (by decide)) _ _) ho
        (Pocket.evolves_fire hst)
    · exact .refl s

theorem State.workedSettle_evolves : Evolves s s.workedSettle :=
  ((((((s.modLine_evolves openDwell).trans (State.retryHeld_evolves _)).trans (State.judgeLoadOk_evolves _)).trans
    (State.formRequests_evolves _)).trans (.foldl State.fireChute_evolves _ _)).trans (State.offer_evolves _))

theorem State.settle_evolves : Evolves s s.settle := by
  have h : Evolves s ((s.modPins fun p => { p with motion := false }).modLine fun l => { l with motionTimer := none }) :=
    (Evolves.of_only (s.modPins_only _) (by decide)).trans (State.modLine_evolves _ _)
  unfold State.settle
  dsimp only
  split
  · exact h.trans (State.workedSettle_evolves _)
  · exact h.trans (State.workedSettle_evolves _)
  · exact (h.trans (State.modLine_evolves _ _)).trans (State.retryHeld_evolves _)
  · exact (h.trans (State.modLine_evolves _ _)).trans (State.retryHeld_evolves _)
  · exact (h.trans (State.modLine_evolves _ _)).trans (State.retryHeld_evolves _)
  · exact (h.trans (State.modLine_evolves _ _)).trans (State.retryHeld_evolves _)

/-! ### The requests -/

theorem State.enterRun_evolves (target : LineState) : Evolves s (s.enterRun target) := by
  have h (f : LineCtl → LineCtl) (c : Prop) [Decidable c] :
      Evolves s (if c then (s.modLine f).retryHeld else s.modLine f) :=
    .ite ((s.modLine_evolves f).trans (State.retryHeld_evolves _)) (s.modLine_evolves f)
  have ready (u : State) : Evolves u u.readyAtRest :=
    .ite ((u.modLine_evolves _).trans (State.judgeLoadOk_evolves _)) (.refl u)
  exact .ite (h _ _) ((h _ _).trans (ready _))

theorem State.enterStopping_evolves : Evolves s s.enterStopping := .of_only s.enterStopping_only (by decide)

theorem State.verdict_evolves (n c : Nat) : Evolves s (s.verdict n c).2 := by
  unfold State.verdict
  split
  · exact .refl s
  · split
    · exact .refl s
    · split
      · next q hq =>
        refine s.answerReferral_evolves ?_ _ _ _
        obtain ⟨hl, hq, -⟩ := List.findIdx?_eq_some_iff_getElem.mp hq
        simp only [Bool.and_eq_true, beq_iff_eq] at hq
        rw [State.pocket, List.getD_eq_getElem _ _ hl, Pocket.occupied_iff, hq.1]
        decide
      · unfold State.lateVerdict
        dsimp only
        split
        · exact .ite (.of_only (s.bumpLotOf_only _ _) (by decide)) (.refl s)
        · exact .refl s

end

/-- The requests that empty or install pocket records. -/
def movesParts : Request → Bool
  | .trackSet _ => true
  | .lineReset => true
  | .pocketPurge _ => true
  | _ => false

section
variable (s : State)

theorem State.chuteSet_evolves (c a : Nat) (f : ChuteFields) : Evolves s (s.chuteSet c a f).2 := by
  have h (g : Chute → Chute) : Evolves s (s.account c g) := .of_only (s.account_only c g) (by decide)
  unfold State.chuteSet
  split
  · exact .refl s
  · split
    · split
      · exact .refl s
      · split
        · unfold State.removeChute
          split
          · split
            · exact .refl s
            · exact h _
          · exact .refl s
        · unfold State.configureChute
          split
          · exact .refl s
          · exact h _
    · exact .refl s

theorem State.chanSet_evolves (r : ChanSetReq) : Evolves s (s.chanSet r).2 := by
  unfold State.chanSet
  split
  · split
    · exact (s.modChan_evolves_same _ _ rfl).trans
        (.of_only (l := [.shared, .cal]) (((State.modShared_only _ _).mono (by decide)).trans
          ((State.modCal_only _ _).mono (by decide))) (by decide))
    · exact .refl s
    · exact .refl s
  · exact .refl s

theorem State.chanReset_evolves (n : Nat) : Evolves s (s.chanReset n).2 := by
  unfold State.chanReset
  split
  · exact .refl s
  · next ch _ =>
    have h : Evolves s (s.modChan ch Channel.enterStalled) := s.modChan_evolves_same ch _ rfl
    split
    · exact .refl s
    · exact h.trans (State.stallJob_evolves _ _)
    · exact h

theorem State.chanRestore_evolves (n : Nat) : Evolves s (s.chanRestore n).2 := by
  unfold State.chanRestore
  split
  · exact .refl s
  · split
    · exact .refl s
    · exact .refl s
    · exact ((s.modChan_evolves_same _ _ rfl).trans (.of_only (State.modCal_only _ _) (by decide))).trans (State.offer_evolves _)

theorem State.lotLoad_evolves (r : LotLoadReq) : Evolves s (s.lotLoad r).2 := by
  unfold State.lotLoad
  split
  · exact .refl s
  · split
    · exact .refl s
    · split
      · split
        · exact .refl s
        · exact .of_only (s.modSlot_only _ _) (by decide)
      · exact .refl s

theorem State.lotArm_evolves (n : Nat) : Evolves s (s.lotArm n).2 := by
  unfold State.lotArm
  split
  · exact .refl s
  · split
    · exact .refl s
    · exact .refl s
    · exact .refl s
    · exact .refl s
    · split
      · exact .refl s
      · unfold State.armReady
        split
        · exact .of_only (s.modSlot_only _ _) (by decide)
        · exact .of_only (s.modSlot_only _ _) (by decide)

theorem State.lotFree_evolves (n : Nat) : Evolves s (s.lotFree n).2 := by
  unfold State.lotFree
  split
  · exact .refl s
  · split
    · exact .of_only (s.modSlot_only _ _) (by decide)
    · exact .of_only (s.modSlot_only _ _) (by decide)
    · split
      · exact .of_only (s.retire_only _ _) (by decide)
      · exact .refl s
    · exact .refl s
    · exact .refl s

theorem State.lineStart_evolves (b m t : Nat) : Evolves s (s.lineStart b m t).2 := by
  unfold State.lineStart
  split
  · split
    · split
      · exact .refl s
      · exact (s.modLine_evolves _).trans (State.enterRun_evolves _ _)
    · exact .refl s
  · exact .refl s

theorem State.lineStop_evolves : Evolves s s.lineStop.2 := by
  unfold State.lineStop
  split
  · exact s.enterStopping_evolves
  · exact s.enterStopping_evolves
  all_goals exact .refl s

theorem State.lineDrain_evolves : Evolves s s.lineDrain.2 := by
  unfold State.lineDrain
  split
  · exact s.modLine_evolves fun l => { l with state := .drain, loadOk := false }
  · split
    · exact .refl s
    · exact s.enterRun_evolves _
  all_goals exact .refl s

theorem State.lineResume_evolves : Evolves s s.lineResume.2 := by
  unfold State.lineResume
  split
  · split
    · exact .refl s
    · exact s.enterRun_evolves _
  · exact .refl s

theorem State.lineClear_evolves : Evolves s s.lineClear.2 := by
  unfold State.lineClear
  split
  · exact s.modLine_evolves _
  · split
    · refine .of_work rfl (.of_only (l := [.line, .track]) ?_ (by decide))
      exact ((s.modLine_only _).mono (by decide)).trans ((State.modTrack_only _ _).mono (by decide))
    · exact .refl s
  all_goals exact .refl s

theorem State.boxExchanged_evolves (c : Nat) : Evolves s (s.boxExchanged c).2 := by
  unfold State.boxExchanged
  split
  · exact .of_only (s.account_only _ _) (by decide)
  · exact .refl s

theorem State.countRead_evolves (g i c : Nat) : Evolves s (s.countRead g i c).2 := by
  have clear (g : Group) : Evolves s (s.clearGroup g) := by
    cases g with
    | line => exact .of_only (s.modLineCnt_only _) (by decide)
    | lot i => exact .of_only (s.modSlot_only _ _) (by decide)
    | chute c => exact .of_only (s.modChute_only _ _) (by decide)
    | chan ch => exact s.modChan_evolves_same _ _ rfl
    | link => exact .of_only (s.modLinkCnt_only _) (by decide)
  unfold State.countRead
  split
  · exact .refl s
  · exact .ite (clear _) (.refl s)
  · exact .refl s

theorem State.eventMask_evolves (m : Nat) : Evolves s (s.eventMask m).2 := by
  unfold State.eventMask
  split
  · exact .of_only (s.modReport_only _) (by decide)
  · exact .refl s

/-- A read answers from the state and leaves it (R6, R24, R73, R116, R160, R173). -/
theorem State.reads_state :
    s.ident.2 = s ∧ s.trackRead.2 = s ∧ (∀ n, (s.chanRead n).2 = s) ∧ (∀ n, (s.lotRead n).2 = s) ∧
      (∀ q, (s.pocketRead q).2 = s) ∧ s.calRead.2 = s := by
  refine ⟨rfl, rfl, fun n => ?_, fun n => ?_, fun q => ?_, rfl⟩
  · unfold State.chanRead; split <;> rfl
  · unfold State.lotRead; split <;> rfl
  · unfold State.pocketRead; split
    · rfl
    · split <;> rfl

/-- A request's owner leaves every part in its pocket, but for the three that empty or install records. -/
theorem State.owner_evolves {r : Request} (hr : movesParts r = false) : Evolves s (s.owner r).2 := by
  obtain ⟨hident, htrack, hchan, hlot, hpocket, hcal⟩ := s.reads_state
  have same {u : State} (h : u = s) : Evolves s u := h ▸ .refl s
  cases r with
  | trackSet _ => contradiction
  | lineReset => contradiction
  | pocketPurge _ => contradiction
  | ident => exact same hident
  | trackRead => exact same htrack
  | chanRead c => exact same (hchan c)
  | lotRead i => exact same (hlot i)
  | pocketRead q => exact same (hpocket q)
  | calRead => exact same hcal
  | calWrite _ => exact .refl s
  | chuteSet c a f => exact s.chuteSet_evolves c a f
  | chanSet r => exact s.chanSet_evolves r
  | chanReset c => exact s.chanReset_evolves c
  | chanRestore c => exact s.chanRestore_evolves c
  | lotLoad r => exact s.lotLoad_evolves r
  | lotArm i => exact s.lotArm_evolves i
  | lotFree i => exact s.lotFree_evolves i
  | lineStart b m t => exact s.lineStart_evolves b m t
  | lineStop => exact s.lineStop_evolves
  | lineDrain => exact s.lineDrain_evolves
  | lineResume => exact s.lineResume_evolves
  | lineClear => exact s.lineClear_evolves
  | verdict n c => exact s.verdict_evolves n c
  | boxExchanged c => exact s.boxExchanged_evolves c
  | tempSet v => exact .of_only (s.modTemp_only _) (by decide)
  | countRead g i c => exact s.countRead_evolves g i c
  | eventMask m => exact s.eventMask_evolves m

/-- With no command waiting, an event is queued or time passes (log entry 2). -/
theorem State.idle_evolves : Evolves s s.idle := by
  unfold State.idle
  split
  · refine .of_work rfl ?_
    rintro q (⟨ch, j, hm, i, g, hk⟩ | h)
    · exact .inl (.inl ⟨ch, j, by cases ch <;> exact hm, i, g, hk⟩)
    · exact .inl (.inr h)
  · exact .of_work rfl fun q hq => .inl hq
  · exact .of_work rfl fun q hq => .inl hq

end

/-! ### The Link Port (R168 to R171) -/

/-- The blocks that the Link Port and the transmitter write around an owner's rule. -/
def portBlocks : List Block := [.cal, .link, .linkCnt, .report, .choices]

/-- The state as an owner finds it: CALEN sampled, the oldest frame out of the buffer (R157, R171). -/
def State.offering (calen : Bool) (buffer : List Frame) (s : State) : State :=
  (s.sampleCalen calen).modLink fun l => { l with buffer := buffer }

/-- One owner's rule at most, and then the Link Port and the transmitter alone. -/
def Answers (s t : State) : Prop := ∃ v, (v = s ∨ ∃ r, v = (s.owner r).2) ∧ Only portBlocks v t

/-- What a command that hands a request over can do. -/
def HandsOver (s t : State) : Prop := ∃ calen buffer, Answers (s.offering calen buffer) t

theorem Answers.of_only {s t : State} (h : Only portBlocks s t) : Answers s t := ⟨s, .inl rfl, h⟩

theorem Answers.of_owner {s t : State} (r : Request) (h : Only portBlocks (s.owner r).2 t) : Answers s t :=
  ⟨_, .inr ⟨r, rfl⟩, h⟩

theorem Answers.andThen {s t u : State} (h : Answers s t) (k : Only portBlocks t u) : Answers s u := by
  obtain ⟨v, hv, hl⟩ := h
  exact ⟨v, hv, hl.trans k⟩

theorem Answers.handsOver {s t : State} (h : Answers s t) : HandsOver s t := ⟨_, _, h⟩

section
variable (s : State)

theorem State.place_only (f : Frame) : Only [.report] s (s.place f) := s.modReport_only _

theorem State.setReceiver_only (r : LinkReceiver) : Only [.link] s (s.setReceiver r) := s.modLink_only _

theorem State.bufferFrame_only (f : Frame) : Only [.link, .linkCnt] s (s.bufferFrame f) := by
  unfold State.bufferFrame
  split
  · exact (s.modLink_only _).mono (by decide)
  · exact (s.modLinkCnt_only _).mono (by decide)

theorem State.calWrite_only (tag : Byte) (ps : List CalPair) : Only [.cal, .link] s (s.calWrite tag ps).2 := by
  unfold State.calWrite
  split
  · split
    · split
      · exact .refl _ s
      · exact ((s.modCal_only _).mono (by decide)).trans ((State.modLink_only _ _).mono (by decide))
    · exact .refl _ s
  · exact .refl _ s

theorem State.replyIf_only (tag : Byte) (r : Request) (a : Option Answer × State) :
    Only [.report] a.2 (State.replyIf tag r a) := by
  unfold State.replyIf
  split
  · exact a.2.place_only _
  · exact .refl _ _

theorem State.linkByte_only (b : LinkByte) : Only [.link, .linkCnt] s (s.linkByte b) := by
  have receive (u : State) (r : LinkReceiver) : Only [.link, .linkCnt] u (u.setReceiver r) :=
    (u.setReceiver_only r).mono (by decide)
  have count (u : State) : Only [.link, .linkCnt] u u.countBadFrame := (u.modLinkCnt_only _).mono (by decide)
  unfold State.linkByte
  split
  · unfold State.huntByte
    split
    · refine Only.trans ?_ (receive _ _)
      split
      · exact count s
      · exact .refl _ s
    · exact receive s _
  · unfold State.frameByte
    split
    · split
      · exact receive s _
      · exact (receive s _).trans (count _)
      · exact (receive s _).trans (State.bufferFrame_only _ _)
    · exact (receive s _).trans (count _)

end

theorem State.ask_answers (s : State) (tag : Byte) (r : Request) : Answers s (s.ask tag r (State.owner r)) := by
  unfold State.ask
  split
  · exact .of_owner r ((State.place_only _ _).mono (by decide))
  · exact .of_only ((s.bufferFrame_only _).mono (by decide))

theorem State.replyCalWrite_only (s : State) (tag : Byte) (r : Request) (ps : List CalPair) :
    Only portBlocks s (State.replyIf tag r (s.calWrite tag ps)) :=
  ((s.calWrite_only tag ps).mono (by decide)).trans ((State.replyIf_only _ _ _).mono (by decide))

/-- A frame taken from the buffer is refused, or its request answered as its row is (R171). -/
theorem State.judgeFrame_answers (s : State) (f : Frame) : Answers s (s.judgeFrame f) := by
  unfold State.judgeFrame
  split
  · exact .of_only ((s.modLinkCnt_only _).mono (by decide))
  · exact .of_only (((s.modLinkCnt_only _).mono (by decide)).trans ((State.place_only _ _).mono (by decide)))
  · exact .of_only ((s.place_only _).mono (by decide))
  · unfold State.handle
    split
    · exact .of_only (s.replyCalWrite_only _ _ _)
    · exact .of_owner _ ((State.place_only _ _).mono (by decide))

theorem exec_requestTaken_handsOver {s t : State} {b : Bool} (he : exec (.requestTaken b) s = .next t) :
    HandsOver s t := by
  have transmit (u : State) : Only portBlocks u u.transmit := u.transmit_only.mono (by decide)
  have transmitTop (u : State) : Only portBlocks u u.transmitTop := u.transmitTop_only.mono (by decide)
  have taken : HandsOver s (s.takeFrameOf b) := by
    unfold State.takeFrameOf
    split
    · exact (Answers.of_only (.refl _ s)).handsOver
    · next f rest _ => exact ⟨b, rest, State.judgeFrame_answers _ f⟩
  obtain ⟨calen, buffer, ha⟩ := taken
  obtain rfl := Host.Outcome.next.inj he
  split
  · split
    · exact ⟨calen, buffer, ha.andThen (transmitTop _)⟩
    · exact ⟨calen, buffer, ha.andThen (transmit _)⟩
  · exact (Answers.of_only (transmit s)).handsOver

theorem exec_request_handsOver {c : Instr} {s t : State} {tag : Byte} {r : Request} (hr : c.request = some (tag, r))
    (he : exec c s = .next t) : HandsOver s t := by
  have transmit (u : State) : Only portBlocks u u.transmit := u.transmit_only.mono (by decide)
  obtain hcommon | ⟨ps, b, rfl⟩ | ⟨m, rfl⟩ := request_cases hr
  · rw [exec_common hr hcommon] at he
    obtain rfl := Host.Outcome.next.inj he
    exact ((s.ask_answers tag r).andThen (transmit _)).handsOver
  · obtain rfl := Host.Outcome.next.inj he
    split
    · exact ⟨b, s.link.buffer, (Answers.of_only ((s.sampleCalen b).replyCalWrite_only tag _ ps)).andThen (transmit _)⟩
    · exact ((Answers.of_only ((s.bufferFrame_only _).mono (by decide))).andThen (transmit _)).handsOver
  · obtain rfl := Host.Outcome.next.inj he
    exact ((s.ask_answers tag (.eventMask m)).andThen ((State.transmitTop_only _).mono (by decide))).handsOver

/-- A command that carries no request, of the part's own or of its lines, leaves every part in its pocket, but for power-on
and the index start. -/
theorem exec_evolves {c : Instr} {s t : State} (hc : c.request = none) (hp : ∀ m a b, c ≠ .powerOnReset m a b)
    (hi : ∀ l k, c ≠ .indexStart l k) (hr : ∀ b, c ≠ .requestTaken b) (he : exec c s = .next t) : Evolves s t := by
  have offered {u : State} (h : Evolves s u) : Evolves s u.transmit := h.trans u.transmit_evolves
  cases c <;> simp only [Instr.request, reduceCtorEq] at hc
  case powerOnReset m a b => exact absurd rfl (hp m a b)
  case indexStart l k => exact absurd rfl (hi l k)
  case requestTaken b => exact absurd rfl (hr b)
  all_goals obtain rfl := Host.Outcome.next.inj he
  case settle => exact .ite (offered s.settle_evolves) (offered (.refl s))
  case frameTaken ch symbols => exact offered (.foldl (fun u y => u.linkSymbol_evolves ch y) symbols s)
  case watchdogExpiry ch =>
    exact .ite (offered (((s.modChan_evolves_same _ _ rfl).trans (State.raise_evolves _ _ _)).trans
      (State.stallJob_evolves _ _))) (offered (.refl s))
  case relaySettleExpiry ch =>
    exact .ite (offered (s.modChan_evolves_kind _ _ (Channel.enterSettle_kind _ _ _ _))) (offered (.refl s))
  case dwellBudgetExpiry =>
    exact .ite (offered (((s.modLine_evolves _).trans (State.cutDwell_evolves _)).trans (State.judgeDwell_evolves _)))
      (offered (.refl s))
  case motionTimerExpiry =>
    exact .ite (offered ((s.modLine_evolves _).trans (State.raiseFault_evolves _ _ _))) (offered (.refl s))
  case stallTimerExpiry =>
    exact .ite (offered (((s.modLine_evolves _).trans (State.raise_evolves _ _ _)).trans
      (.of_only (State.modLineCnt_only _ _) (by decide)))) (offered (.refl s))
  case jetCompletion c =>
    exact .ite (offered ((Evolves.of_only (s.modChute_only _ _) (by decide)).trans (State.judgeDwell_evolves _)))
      (offered (.refl s))
  case stalenessExpiry =>
    exact .ite (offered ((Evolves.of_only (s.modTemp_only _) (by decide)).trans (State.raise_evolves _ _ _))) (offered (.refl s))
  case linkFrameReceived bytes => exact offered (.of_only (Only.foldl State.linkByte_only bytes s) (by decide))
  case gapExpiry =>
    split
    · exact offered ((Evolves.of_only (s.setReceiver_only _) (by decide)).trans
        (.of_only (State.modLinkCnt_only _ _) (by decide)))
    · exact offered (.refl s)
  case huntingPause =>
    split
    · exact offered ((Evolves.of_only (s.setReceiver_only _) (by decide)).trans
        (.of_only (State.modLinkCnt_only _ _) (by decide)))
    · exact offered (.refl s)
    · exact offered (.refl s)
  case transmitEnd => exact .of_only s.frameSent_only (by decide)
  case calWriteCompletion =>
    split
    · exact offered ((Evolves.of_only (s.modCal_only _) (by decide)).trans
        ((Evolves.of_only (State.modLink_only _ _) (by decide)).trans (.of_only (State.modReport_only _ _) (by decide))))
    · exact offered (.refl s)

/-- What one command can do: power-on, an index start, one owner's rule, or nothing that moves a part. -/
theorem exec_cases {c : Instr} {s t : State} (he : exec c s = .next t) :
    (∃ m a b, c = .powerOnReset m a b) ∨ (∃ l k, c = .indexStart l k) ∨ HandsOver s t ∨ Evolves s t := by
  cases hr : c.request with
  | some x => exact .inr (.inr (.inl (exec_request_handsOver hr he)))
  | none =>
    by_cases hp : ∃ m a b, c = .powerOnReset m a b
    · exact .inl hp
    by_cases hi : ∃ l k, c = .indexStart l k
    · exact .inr (.inl hi)
    by_cases hb : ∃ b, c = .requestTaken b
    · obtain ⟨b, rfl⟩ := hb
      exact .inr (.inr (.inl (exec_requestTaken_handsOver he)))
    push Not at hp hi hb
    exact .inr (.inr (.inr (exec_evolves hr hp hi hb he)))

end Sys2Proof.Machine
end

