-- ==== Sys2Proof/Proofs/Serials.lean ====
section
/-! PROOFS. Serials (R16): a load takes a value that no occupied pocket holds, and no other operation gives a serial out. -/

namespace Sys2Proof.Machine

/-! ### The serial of a load (R16) -/

/-- Counting upward from a value, wrapping from 4,294,967,295 to 1, in as many steps as a track has pockets. -/
theorem serialAfter_iterate {k : Nat} (hk : k ≤ 48) (n : Nat) :
    serialAfter^[k] n = if k = 0 then n else if n + k ≤ 4294967295 then n + k else k - (4294967295 - n) := by
  induction k with
  | zero => rfl
  | succ k ih =>
    have hk' := ih (by omega)
    rw [Function.iterate_succ_apply', serialAfter, if_neg (Nat.succ_ne_zero k)]
    split_ifs at hk' ⊢ <;> omega

/-- The values counted are distinct. -/
theorem serialAfter_injective {i j n : Nat} (hi : i < 48) (hj : j < 48) (h : serialAfter^[i] n = serialAfter^[j] n) :
    i = j := by
  rw [serialAfter_iterate (by omega), serialAfter_iterate (by omega)] at h
  split_ifs at h <;> omega

/-- The search ends at a value that is free, or finds every value it tries held. -/
theorem Track.freeSerial_spec (t : Track) (fuel n : Nat) :
    t.serialHeld (t.freeSerial fuel n) = false ∨ ∀ k < fuel, t.serialHeld (serialAfter^[k] n) = true := by
  induction fuel generalizing n with
  | zero => exact .inr fun k hk => absurd hk (by omega)
  | succ fuel ih =>
    unfold Track.freeSerial
    split
    · next h =>
      refine (ih (serialAfter n)).imp_right fun hall k hk => ?_
      cases k with
      | zero => exact h
      | succ k => exact hall k (by omega)
    · next h => exact .inl (by simpa using h)

/-- The serials that occupied pockets hold. -/
def Track.heldSerials (t : Track) : List Nat := t.pockets.filterMap fun p => if p.occupied then p.serial else none

theorem Track.serialHeld_iff (t : Track) (n : Nat) : t.serialHeld n = true ↔ n ∈ t.heldSerials := by
  simp [Track.serialHeld, Track.heldSerials]

/-- An unoccupied pocket leaves fewer serials held than there are pockets. -/
theorem Track.heldSerials_length_lt {t : Track} {p : Pocket} (hp : p ∈ t.pockets) (ho : p.occupied = false) :
    t.heldSerials.length < t.pockets.length := by
  unfold Track.heldSerials
  rw [List.length_filterMap_eq_countP]
  refine lt_of_le_of_ne List.countP_le_length fun h => ?_
  have := List.countP_eq_length.mp h p hp
  simp [ho] at this

/-- The serial that a load takes is held by no occupied pocket, while a pocket is unoccupied (R16). -/
theorem Track.loadSerial_free {t : Track} (hl : t.pockets.length ≤ 48) {p : Pocket} (hp : p ∈ t.pockets)
    (ho : p.occupied = false) : t.serialHeld t.loadSerial = false := by
  refine (t.freeSerial_spec t.pockets.length t.nextSerial).resolve_right fun hall => ?_
  let tried := (List.range t.pockets.length).map fun k => serialAfter^[k] t.nextSerial
  have hnodup : tried.Nodup := List.Nodup.map_on (fun i hi j hj h =>
    serialAfter_injective (by rw [List.mem_range] at hi; omega) (by rw [List.mem_range] at hj; omega) h) List.nodup_range
  have hsub : tried ⊆ t.heldSerials := by
    intro n hn
    obtain ⟨k, hk, rfl⟩ := List.mem_map.mp hn
    exact (t.serialHeld_iff _).mp (hall k (List.mem_range.mp hk))
  have hle : t.pockets.length ≤ t.heldSerials.length := by
    simpa [tried] using (List.subperm_of_subset hnodup hsub).length_le
  exact absurd (heldSerials_length_lt hp ho) (by omega)

/-! ### Where serials come from -/

/-- Every part of t stands in s in the same pocket, with the same serial. -/
def SerialsFrom (s t : State) : Prop :=
  ∀ q, (t.pocket q).occupied = true → (s.pocket q).occupied = true ∧ (t.pocket q).serial = (s.pocket q).serial

theorem SerialsFrom.trans {s t u : State} (h : SerialsFrom s t) (k : SerialsFrom t u) : SerialsFrom s u := fun q hq =>
  ⟨(h q (k q hq).1).1, (k q hq).2.trans (h q (k q hq).1).2⟩

theorem SerialsFrom.of_track {s t : State} (h : t.track = s.track) : SerialsFrom s t := fun q hq => by
  rw [State.pocket_congr h] at hq ⊢
  exact ⟨hq, rfl⟩

theorem Evolves.serialsFrom {s t : State} (h : Evolves s t) : SerialsFrom s t := fun q hq =>
  ⟨(h.pocket q).occupied ▸ hq, (h.pocket q).serial⟩

/-- A state without parts. -/
theorem SerialsFrom.of_empty {s t : State} (h : ∀ q, (t.pocket q).occupied = false) : SerialsFrom s t := fun q hq => by
  rw [h q] at hq; contradiction

theorem serialInv_iff (s : State) : SerialInv s ↔ ∀ q r, (s.pocket q).occupied = true → (s.pocket r).occupied = true →
    (s.pocket q).serial = (s.pocket r).serial → q = r :=
  ⟨fun h q r hq hr => h q (State.lt_of_occupied hq) r (State.lt_of_occupied hr) hq hr, fun h q _ r _ => h q r⟩

theorem SerialsFrom.serialInv {s t : State} (h : SerialsFrom s t) (hs : SerialInv s) : SerialInv t := by
  rw [serialInv_iff] at hs ⊢
  intro q r hq hr he
  exact hs q r (h q hq).1 (h r hr).1 (by rw [← (h q hq).2, ← (h r hr).2, he])

/-! ### Finishes and loads -/

/-- A finish's part in the track: the record becomes EMPTY (R22). -/
theorem State.finish_track (s : State) (q : Nat) (o : Finish) :
    (s.finish q o).track = (s.modPocket q fun _ => .emptied).track := by
  have h : Only [.slot0, .slot1, .chutes, .report, .lineCnt] s
      ((((s.settleAccounts q).handPart ((s.settleAccounts q).partOf q o)).dropResidentOf (s.pocket q).slot).modLineCnt
        (countFinish o)) :=
    ((((s.settleAccounts_only q).mono (by decide)).trans ((State.handPart_only _ _).mono (by decide))).trans
      ((State.dropResidentOf_only _ _).mono (by decide))).trans ((State.modLineCnt_only _ _).mono (by decide))
  have h' := State.modPocket_congr (h .track (by decide)) q fun _ => .emptied
  unfold State.finish
  dsimp only
  split
  · exact h'
  · exact h'

theorem State.finish_pocket_same (s : State) (q : Nat) (o : Finish) : (s.finish q o).pocket q = .emptied := by
  rw [State.pocket_congr (s.finish_track q o)]
  by_cases h : q < s.track.pockets.length
  · rw [State.modPocket_same h]
  · exact State.pocket_outside (by rw [State.modPocket_length]; omega)

theorem State.finish_pocket_ne (s : State) {q r : Nat} (h : r ≠ q) (o : Finish) :
    (s.finish q o).pocket r = s.pocket r := by
  rw [State.pocket_congr (s.finish_track q o), State.modPocket_ne h]

theorem State.finish_serialsFrom (s : State) (q : Nat) (o : Finish) : SerialsFrom s (s.finish q o) := by
  intro r hr
  by_cases h : r = q
  · rw [h, State.finish_pocket_same] at hr; contradiction
  · rw [State.finish_pocket_ne s h] at hr ⊢
    exact ⟨hr, rfl⟩

/-- The Lot Store's answer to a load leaves the track (R110). -/
theorem State.changeOver_only (s : State) (i : SlotId) (q : Nat) :
    Only [.slot0, .slot1, .report, .lineCnt] s (s.changeOver i q) := by
  have hraise (t : State) : Only [.slot0, .slot1, .report, .lineCnt] t
      ((t.modSlot i (LotSlot.activate t.cal.working.number)).raise .lotChange (.pocket q)) :=
    ((t.modSlot_only _ _).mono (by decide)).trans ((State.raise_only _ _ _).mono (by decide))
  unfold State.changeOver
  dsimp only
  split
  · refine Only.trans ?_ (hraise _)
    unfold State.leaveActive
    split
    · exact s.retire_only _ _
    · exact (s.modSlot_only _ _).mono (by decide)
  · exact hraise s

theorem State.askSlot_only (s : State) (q : Nat) : Only [.slot0, .slot1, .report, .lineCnt] s (s.askSlot q) := by
  unfold State.askSlot
  split
  · exact s.changeOver_only _ q
  · exact .refl _ s

/-- The track after a part is loaded into pocket q (R15, R16). -/
theorem State.loadInto_track (s : State) (q : Nat) (i : SlotId) :
    (s.loadInto q i).track =
      { (s.modPocket q fun _ => loadedPocket s.track.loadSerial i
          (((s.slot i).definition.map LotDef.retryLimit).getD 0)).track with
        nextSerial := serialAfter s.track.loadSerial } := by
  simp [State.loadInto]

/-- The record of any pocket after a load into pocket q of the table. -/
theorem State.loadInto_pocket {s : State} {q : Nat} (hq : q < s.track.pockets.length) (i : SlotId) (r : Nat) :
    (s.loadInto q i).pocket r = if r = q then loadedPocket s.track.loadSerial i
      (((s.slot i).definition.map LotDef.retryLimit).getD 0) else s.pocket r := by
  have h (f : Pocket → Pocket) (h : (s.loadInto q i).track.pockets = (s.modPocket q f).track.pockets) :
      (s.loadInto q i).pocket r = (s.modPocket q f).pocket r := by rw [State.pocket, State.pocket, h]
  rw [h _ (by rw [State.loadInto_track])]
  split
  · next hr => rw [hr, State.modPocket_same hq]
  · next hr => rw [State.modPocket_ne hr]

theorem State.loadInto_serialInv {s : State} {q : Nat} (hl : s.track.pockets.length ≤ 48)
    (hq : q < s.track.pockets.length) (ho : (s.pocket q).occupied = false) (hs : SerialInv s) (i : SlotId) :
    SerialInv (s.loadInto q i) := by
  have fresh (r : Nat) (hr : (s.pocket r).occupied = true) : (s.pocket r).serial ≠ some s.track.loadSerial := fun he => by
    have hfree := Track.loadSerial_free hl (State.pocket_mem hq) ho
    have hheld : s.track.serialHeld s.track.loadSerial = true :=
      List.any_eq_true.mpr ⟨_, State.pocket_mem (State.lt_of_occupied hr), by simp [hr, he]⟩
    rw [hfree] at hheld; contradiction
  rw [serialInv_iff] at hs ⊢
  intro a b ha hb he
  rw [State.loadInto_pocket hq] at ha hb he
  rw [State.loadInto_pocket hq] at he
  by_cases haq : a = q <;> by_cases hbq : b = q <;> simp only [haq, hbq, ↓reduceIte] at ha hb he ⊢
  · exact absurd he.symm (fresh b hb)
  · exact absurd he (fresh a ha)
  · exact hs a b ha hb he

/-! ### Load and check handling -/

/-- Check handling ends the stay of a part with a target, or leaves every part in its pocket and the slots alone (R19). -/
theorem State.handleCheck_cases (s : State) (q : Nat) (sensed : Bool) :
    (Evolves s (s.handleCheck q sensed) ∧
        Only [.track, .line, .lineCnt, .chanA, .chanB, .sched, .chutes, .report] s (s.handleCheck q sensed)) ∨
      ((s.pocket q).state.targeted ∧ ∃ u o, Only [.report] s u ∧ s.handleCheck q sensed = u.finish q o) := by
  unfold State.handleCheck
  split
  · exact .inl ⟨s.raiseFault_evolves _ _, s.raiseFault_only _ _⟩
  · exact .inl ⟨.refl s, .refl _ s⟩
  · next hst => exact .inr ⟨.inr (.inr hst), s, .sorted, .refl _ s, rfl⟩
  · next hst =>
    left
    have ho : (s.pocket q).occupied = true := by rw [Pocket.occupied_iff, hst]; decide
    have hmiss : Evolves s (s.modPocket q fun p => { p.secondLap with state := .decided, misses := 1 }) :=
      .of_pocket (s.modPocket_only _ _) (by decide) rfl ho (Pocket.evolves_ejectMiss hst)
    have hacc := hmiss.trans (.of_only (State.account_only _ ((s.pocket q).chute.getD 0) missedPlace) (by decide))
    refine ⟨.ite hacc (hacc.trans (State.raiseFault_evolves _ _ _)), ?_⟩
    have honly := ((s.modPocket_only q fun p => { p.secondLap with state := .decided, misses := 1 }).mono
      (m := [.track, .line, .lineCnt, .chanA, .chanB, .sched, .chutes, .report]) (by decide)).trans
        ((State.account_only _ ((s.pocket q).chute.getD 0) missedPlace).mono (by decide))
    unfold State.ejectMiss
    dsimp only
    split
    · exact honly
    · exact honly.trans (State.raiseFault_only _ _ _)
  · next hst => exact .inr ⟨.inl hst, _, .lost, s.raise_only _ _, rfl⟩
  · next hst =>
    exact .inl ⟨.of_pocket (s.modPocket_only _ _) (by decide) rfl (by rw [Pocket.occupied_iff, hst]; decide)
      (Pocket.evolves_secondLap (.inl hst)), (s.modPocket_only _ _).mono (by decide)⟩
  · next hst => exact .inr ⟨.inr (.inl hst), _, .lost, s.raise_only _ _, rfl⟩
  · next hst =>
    exact .inl ⟨.of_pocket (s.modPocket_only _ _) (by decide) rfl (by rw [Pocket.occupied_iff, hst]; decide)
      (Pocket.evolves_secondLap (.inr (.inl hst))), (s.modPocket_only _ _).mono (by decide)⟩
  all_goals exact .inl ⟨.refl s, .refl _ s⟩

/-- The geometry, the index count and the phase stand. -/
def SameGeometry (s t : State) : Prop :=
  t.track = { s.track with
    pockets := t.track.pockets, nextSerial := t.track.nextSerial, loadPermit := t.track.loadPermit }

theorem SameGeometry.trans {s t u : State} (h : SameGeometry s t) (k : SameGeometry t u) : SameGeometry s u := by
  unfold SameGeometry at *
  rw [k, h]

theorem SameGeometry.of_track {s t : State} (h : t.track = s.track) : SameGeometry s t := by rw [SameGeometry, h]

theorem Evolves.sameGeometry {s t : State} (h : Evolves s t) : SameGeometry s t := by rw [SameGeometry, h.geometry]

theorem SameGeometry.p {s t : State} (h : SameGeometry s t) : t.track.p = s.track.p := by rw [h]

theorem SameGeometry.phi {s t : State} (h : SameGeometry s t) : t.track.phi = s.track.phi := by rw [h]

theorem SameGeometry.pocketAt {s t : State} (h : SameGeometry s t) (pos : Nat) :
    t.track.pocketAt pos = s.track.pocketAt pos := by
  rw [Track.pocketAt, Track.pocketAt, h]

theorem State.finish_geometry (s : State) (q : Nat) (o : Finish) : SameGeometry s (s.finish q o) := by
  rw [SameGeometry, State.finish_track]; rfl

theorem State.handleLoad_geometry (s : State) (q : Nat) (sensed : Bool) : SameGeometry s (s.handleLoad q sensed) := by
  have hask : SameGeometry s (s.askSlot q) := .of_track (s.askSlot_only q .track (by decide))
  unfold State.handleLoad
  split
  · exact .of_track rfl
  · split
    · unfold State.load
      dsimp only
      split
      · refine hask.trans ?_
        rw [SameGeometry, State.loadInto_track]; rfl
      · exact hask.trans (State.raiseFault_evolves _ _ _).sameGeometry
    · exact .of_track rfl
    · exact (s.raiseFault_evolves _ _).sameGeometry
    · exact .of_track rfl

theorem State.handleCheck_geometry (s : State) (q : Nat) (sensed : Bool) : SameGeometry s (s.handleCheck q sensed) := by
  obtain ⟨h, -⟩ | ⟨-, u, o, hu, h⟩ := s.handleCheck_cases q sensed
  · exact h.sameGeometry
  · rw [h]
    exact (SameGeometry.of_track (hu .track (by decide))).trans (u.finish_geometry q o)

theorem State.handleBoth_geometry (s : State) (ls cs : Bool) : SameGeometry s (s.handleBoth ls cs) := by
  unfold State.handleBoth
  dsimp only
  split
  · split
    · exact ((s.handleLoad_geometry _ _).trans (State.handleCheck_geometry _ _ _)).trans (.of_track rfl)
    · exact ((s.handleCheck_geometry _ _).trans (State.handleLoad_geometry _ _ _)).trans (.of_track rfl)
  · exact (s.handleLoad_geometry _ _).trans (State.handleCheck_geometry _ _ _)

/-- A track whose table has the length of its pocket count, at most 48. -/
def TableInv (s : State) : Prop := s.track.pockets.length = s.track.p ∧ s.track.p ≤ 48

theorem TableInv.of_eq {s t : State} (hl : t.track.pockets.length = s.track.pockets.length)
    (hp : t.track.p = s.track.p) (hs : TableInv s) : TableInv t := by
  rw [TableInv, hl, hp]; exact hs

theorem TableInv.of_evolves {s t : State} (h : Evolves s t) (hs : TableInv s) : TableInv t :=
  .of_eq h.length h.sameGeometry.p hs

/-- Load handling keeps the serials distinct, and the table. -/
theorem State.handleLoad_serialInv {s : State} {q : Nat} (ht : TableInv s) (hq : q < s.track.p) (hs : SerialInv s)
    (sensed : Bool) : SerialInv (s.handleLoad q sensed) ∧ TableInv (s.handleLoad q sensed) := by
  have evolve {t : State} (h : Evolves s t) : SerialInv t ∧ TableInv t :=
    ⟨h.serialsFrom.serialInv hs, .of_evolves h ht⟩
  unfold State.handleLoad
  split
  · exact evolve (.refl s)
  · next ho =>
    split
    · unfold State.load
      dsimp only
      have hask : (s.askSlot q).track = s.track := s.askSlot_only q .track (by decide)
      split
      · next i hi =>
        refine ⟨State.loadInto_serialInv ?_ ?_ ?_ ((SerialsFrom.of_track hask).serialInv hs) i, .of_eq ?_ ?_ ht⟩
        · rw [hask, ht.1]; exact ht.2
        · rwa [hask, ht.1]
        · rw [State.pocket_congr hask]; simpa using ho
        · rw [State.loadInto_track, State.modPocket_length, hask]
        · rw [State.loadInto_track, ← hask]; rfl
      · exact evolve ((Evolves.of_only (s.askSlot_only q) (by decide)).trans (State.raiseFault_evolves _ _ _))
    · exact evolve (.of_only (s.modLineCnt_only _) (by decide))
    · exact evolve (s.raiseFault_evolves _ _)
    · exact evolve (.refl s)

theorem State.handleCheck_serialInv {s : State} (ht : TableInv s) (hs : SerialInv s) (q : Nat) (sensed : Bool) :
    SerialInv (s.handleCheck q sensed) ∧ TableInv (s.handleCheck q sensed) := by
  obtain ⟨h, -⟩ | ⟨-, u, o, hu, h⟩ := s.handleCheck_cases q sensed
  · exact ⟨h.serialsFrom.serialInv hs, .of_evolves h ht⟩
  · have hut : u.track = s.track := hu .track (by decide)
    rw [h]
    refine ⟨((SerialsFrom.of_track hut).trans (u.finish_serialsFrom q o)).serialInv hs, .of_eq ?_ ?_ ht⟩
    · rw [State.finish_track, State.modPocket_length, hut]
    · rw [(u.finish_geometry q o).p, hut]

/-! ### The other operations that empty or install records -/

theorem State.purgePocket_serialsFrom (s : State) (q : Nat) : SerialsFrom s (s.purgePocket q) := by
  unfold State.purgePocket
  split
  · exact s.finish_serialsFrom q .purged
  · exact .of_track rfl

theorem State.purgePockets_serialsFrom (l : List Nat) (s : State) : SerialsFrom s (l.foldl State.purgePocket s) := by
  induction l generalizing s with
  | nil => exact .of_track rfl
  | cons q l ih => exact (s.purgePocket_serialsFrom q).trans (ih _)

/-- No record of a table of EMPTY records is occupied. -/
theorem State.unoccupied_of_forall {s : State} (h : ∀ p ∈ s.track.pockets, p = .emptied) (q : Nat) :
    (s.pocket q).occupied = false := by
  by_contra ho
  have ho : (s.pocket q).occupied = true := by simpa using ho
  rw [h _ (State.pocket_mem (State.lt_of_occupied ho))] at ho
  contradiction

theorem State.trackSet_cases (s : State) (r : TrackSetReq) :
    (s.trackSet r).2 = s ∨ (s.trackSettable = true ∧ trackSetBad r = none ∧
      (s.trackSet r).2 = (s.modTrack (Track.install r)).modChutes fun l => l.map Chute.cleared) := by
  unfold State.trackSet
  split
  · next h =>
    split
    · exact .inl rfl
    · next hb => exact .inr ⟨h, hb, rfl⟩
  · exact .inl rfl

theorem State.pocketPurge_cases (s : State) (n : Nat) :
    (s.pocketPurge n).2 = s ∨ ((s.line.state = .stopped ∨ s.line.state = .faulted) ∧
      (s.pocketPurge n).2 = (s.purged n).foldl State.purgePocket s) := by
  unfold State.pocketPurge
  split
  · exact .inl rfl
  · split
    · next h =>
      split
      · exact .inr ⟨h, rfl⟩
      · exact .inl rfl
    · exact .inl rfl

theorem State.owner_serialsFrom (s : State) (r : Request) : SerialsFrom s (s.owner r).2 := by
  by_cases hr : movesParts r = false
  · exact (s.owner_evolves hr).serialsFrom
  · cases r <;> simp only [movesParts, not_true_eq_false] at hr
    case trackSet r =>
      rcases s.trackSet_cases r with h | ⟨-, -, h⟩ <;> rw [State.owner, h]
      · exact .of_track rfl
      · exact .of_empty (State.unoccupied_of_forall fun p hp => (List.mem_replicate.mp hp).2)
    case lineReset =>
      refine .of_empty (State.unoccupied_of_forall fun p hp => ?_)
      obtain ⟨_, -, rfl⟩ := List.mem_map.mp hp
      rfl
    case pocketPurge n =>
      rcases s.pocketPurge_cases n with h | ⟨-, h⟩ <;> rw [State.owner, h]
      · exact .of_track rfl
      · exact State.purgePockets_serialsFrom _ s

/-! ### The index start -/

/-- Load and check handling, in either order (R111). -/
theorem State.handleBoth_cases (s : State) (ls cs : Bool) :
    (s.handleBoth ls cs).track =
        ((s.handleLoad (s.track.pocketAt 0) ls).handleCheck (s.track.pocketAt s.track.checkPos) cs).track ∨
      (s.handleBoth ls cs).track =
        ((s.handleCheck (s.track.pocketAt s.track.checkPos) cs).handleLoad (s.track.pocketAt 0) ls).track := by
  unfold State.handleBoth
  dsimp only
  split
  · split
    · exact .inl rfl
    · exact .inr rfl
  · exact .inl rfl

theorem State.handleBoth_serialInv {s : State} (ht : TableInv s) (hp : s.track.p ≠ 0) (hs : SerialInv s) (ls cs : Bool) :
    SerialInv (s.handleBoth ls cs) := by
  have hq : s.track.pocketAt 0 < s.track.p := Track.pocketAt_lt hp 0
  rcases s.handleBoth_cases ls cs with h | h
  · obtain ⟨hsl, htl⟩ := State.handleLoad_serialInv ht hq hs ls
    exact (SerialsFrom.of_track h).serialInv (State.handleCheck_serialInv htl hsl _ cs).1
  · obtain ⟨hsc, htc⟩ := State.handleCheck_serialInv ht hs (s.track.pocketAt s.track.checkPos) cs
    rw [← (s.handleCheck_geometry _ cs).p] at hq
    exact (SerialsFrom.of_track h).serialInv (State.handleLoad_serialInv htc hq hsc ls).1

/-- What an index start does before the Track Unit's work: the line's work, and the jobs, requests and jets cut short (R31). -/
def State.cutShort (ls cs : Bool) (s : State) : State := ((s.indexLineWork ls cs).cutDwell).cutJets

theorem State.indexStart_eq (s : State) (ls cs : Bool) : s.indexStart ls cs =
    (((s.cutShort ls cs).trackIndex ls cs).modCal (Cal.judgeFlags ((s.cutShort ls cs).trackIndex ls cs).shared.interval
      ((s.cutShort ls cs).trackIndex ls cs).track.k)).judgeDrained := rfl

theorem State.indexLineWork_only (s : State) (ls cs : Bool) :
    Only [.pins, .line, .lineCnt, .report] s (s.indexLineWork ls cs) := by
  have h : Only [.pins, .line, .lineCnt, .report] s
      (((s.modPins (Pins.sampled (s.track.p == 0) ls cs)).modLine indexLine).modLineCnt fun c =>
        { c with indexStarts := bump c.indexStarts }) :=
    (((s.modPins_only _).mono (by decide)).trans ((State.modLine_only _ _).mono (by decide))).trans
      ((State.modLineCnt_only _ _).mono (by decide))
  unfold State.indexLineWork
  dsimp only
  split
  · exact (h.trans ((State.raise_only _ _ _).mono (by decide))).trans ((State.modLineCnt_only _ _).mono (by decide))
  · exact h

theorem State.cutShort_evolves (s : State) (ls cs : Bool) : Evolves s (s.cutShort ls cs) :=
  ((Evolves.of_only (s.indexLineWork_only ls cs) (by decide)).trans (State.cutDwell_evolves _)).trans
    (.of_only (State.cutJets_only _) (by decide))

theorem State.judgeDrained_only (s : State) : Only [.line] s s.judgeDrained := by
  unfold State.judgeDrained
  split
  · exact s.modLine_only _
  · exact .refl _ s

/-- An advance of the track moves no part from its pocket. -/
theorem SerialsFrom.of_advance {s t : State} (h : t.track.pockets = s.track.pockets) : SerialsFrom s t := fun q hq => by
  have hp : t.pocket q = s.pocket q := by rw [State.pocket, State.pocket, h]
  rw [hp] at hq ⊢
  exact ⟨hq, rfl⟩

theorem State.trackIndex_serialInv {s : State} (ht : TableInv s) (hs : SerialInv s) (ls cs : Bool) :
    SerialInv (s.trackIndex ls cs) := by
  unfold State.trackIndex
  split
  · exact (SerialsFrom.of_advance rfl).serialInv hs
  · next hp =>
    have hd := State.leaveDecide_evolves (s.handleBoth ls cs)
      ((s.handleBoth ls cs).track.pocketAt (s.handleBoth ls cs).track.decidePos)
    exact (hd.serialsFrom.trans (SerialsFrom.of_advance rfl)).serialInv (State.handleBoth_serialInv ht hp hs ls cs)

theorem State.indexStart_serialInv {s : State} (ht : TableInv s) (hs : SerialInv s) (ls cs : Bool) :
    SerialInv (s.indexStart ls cs) := by
  have hcut := s.cutShort_evolves ls cs
  have h := State.trackIndex_serialInv (.of_evolves hcut ht) (hcut.serialsFrom.serialInv hs) ls cs
  rw [State.indexStart_eq]
  exact (SerialsFrom.of_track ((State.judgeDrained_only _) .track (by decide))).serialInv h

/-! ### Every command and every step -/

/-- A request handed over gives no serial out. -/
theorem HandsOver.serialsFrom {s t : State} (h : HandsOver s t) : SerialsFrom s t := by
  obtain ⟨calen, buffer, v, hv, honly⟩ := h
  have hsv : SerialsFrom s v := by
    rcases hv with rfl | ⟨r, rfl⟩
    · exact .of_track rfl
    · exact (SerialsFrom.of_track rfl).trans (State.owner_serialsFrom _ r)
  exact hsv.trans (.of_track (honly .track (by decide)))

theorem exec_serialInv {c : Instr} {s t : State} (ht : TableInv s) (hs : SerialInv s) (he : exec c s = .next t) :
    SerialInv t := by
  obtain ⟨m, a, b, rfl⟩ | ⟨ls, cs, rfl⟩ | h | h := exec_cases he
  · obtain rfl := Host.Outcome.next.inj he
    exact (SerialsFrom.of_empty fun q => rfl).serialInv hs
  · have transmitted {u : State} (h : SerialInv u) : SerialInv u.transmit :=
      (SerialsFrom.of_track (u.transmit_only .track (by decide))).serialInv h
    obtain rfl := Host.Outcome.next.inj he
    split
    · exact transmitted hs
    · exact transmitted (State.indexStart_serialInv ht hs ls cs)
  · exact h.serialsFrom.serialInv hs
  · exact h.serialsFrom.serialInv hs

/-- R16, over every step. -/
theorem step_serialInv {s t : State} (ht : TableInv s) (hs : SerialInv s) (h : step s = .next t) : SerialInv t := by
  rcases step_cases h with rfl | ⟨c, rest, -, he⟩
  · exact s.idle_evolves.serialsFrom.serialInv hs
  · exact exec_serialInv (s := { s with pending := rest }) ht hs he

end Sys2Proof.Machine
end

