-- ==== Sys2Proof/Proofs/Residents.lean ====
section
/-! PROOFS. Counts over the pocket table, the lot slots at a load and at a finish, and the residents they count (R108, R111,
R113). -/

namespace Sys2Proof.Machine

/-! ### Counts over the pocket table -/

/-- One record replaced changes a count over the table by that record alone. -/
theorem State.countP_replaced {s t : State} {q : Nat} {x : Pocket}
    (ht : t.track.pockets = (s.modPocket q fun _ => x).track.pockets) (hq : q < s.track.pockets.length)
    (P : Pocket → Bool) : t.track.pockets.countP P =
      (s.track.pockets.countP P - if P (s.pocket q) = true then 1 else 0) + if P x = true then 1 else 0 := by
  have hset : (s.modPocket q fun _ => x).track.pockets = s.track.pockets.set q x := (List.set_eq_modify _ _ _).symm
  rw [ht, hset, List.countP_set hq, State.pocket, List.getD_eq_getElem _ _ hq]

/-- A record that counts is counted. -/
theorem State.countP_pos {s : State} {q : Nat} (hq : q < s.track.pockets.length) {P : Pocket → Bool}
    (hP : P (s.pocket q) = true) : 0 < s.track.pockets.countP P :=
  List.countP_pos_iff.mpr ⟨_, State.pocket_mem hq, hP⟩

/-- Two tables whose records count alike, one by one, have the same count. -/
theorem State.countP_congr {s t : State} (hl : t.track.pockets.length = s.track.pockets.length) (P : Pocket → Bool)
    (h : ∀ q, P (t.pocket q) = P (s.pocket q)) : t.track.pockets.countP P = s.track.pockets.countP P := by
  have hmap : t.track.pockets.map P = s.track.pockets.map P := by
    refine List.ext_getElem (by simpa using hl) fun q h1 h2 => ?_
    rw [List.length_map] at h1 h2
    have hq := h q
    rw [State.pocket, State.pocket, List.getD_eq_getElem _ _ h1, List.getD_eq_getElem _ _ h2] at hq
    simpa using hq
  have hid (l : List Pocket) : l.countP P = (l.map P).countP id := by rw [List.countP_map]; rfl
  rw [hid, hid, hmap]

theorem Evolves.residents {s t : State} (h : Evolves s t) (i : SlotId) : t.residents i = s.residents i :=
  State.countP_congr h.length _ fun q => by rw [(h.pocket q).occupied, (h.pocket q).slot]

/-! ### The invariant of the slots (R108) -/

theorem SlotInv.congr {s t : State} {i : SlotId} (hs : t.slot i = s.slot i) (hr : t.residents i = s.residents i)
    (h : SlotInv s i) : SlotInv t i := by
  rw [SlotInv, hs, hr]; exact h

theorem lotsInv_iff (s : State) : LotsInv s ↔ (∀ i, SlotInv s i) ∧
    ∀ i, ¬((s.slot i).state = .active ∧ (s.slot i.other).state = .active) ∧
      ¬((s.slot i).state = .pending ∧ (s.slot i.other).state = .pending) := by
  constructor
  · rintro ⟨h0, h1, ha, hp⟩
    refine ⟨fun i => by cases i; exacts [h0, h1], fun i => ?_⟩
    cases i
    · exact ⟨ha, hp⟩
    · exact ⟨fun h => ha h.symm, fun h => hp h.symm⟩
  · rintro ⟨hi, h⟩
    exact ⟨hi .s0, hi .s1, h .s0⟩

theorem LotsInv.congr {s t : State} (hs : ∀ i, t.slot i = s.slot i) (hr : ∀ i, t.residents i = s.residents i)
    (h : LotsInv s) : LotsInv t := by
  rw [lotsInv_iff] at h ⊢
  refine ⟨fun i => (h.1 i).congr (hs i) (hr i), fun i => ?_⟩
  rw [hs, hs]; exact h.2 i

/-- The slot of an occupied pocket has a resident, so it holds a definition (R108, R112). -/
theorem LotsInv.definition {s : State} (h : LotsInv s) {q : Nat} {i : SlotId} (ho : (s.pocket q).occupied = true)
    (hi : (s.pocket q).slot = some i) : 1 ≤ (s.slot i).resident ∧ ∃ d, (s.slot i).definition = some d := by
  obtain ⟨hcount, hnone, -, hdef⟩ := ((lotsInv_iff s).mp h).1 i
  have hpos : 0 < s.residents i := State.countP_pos (State.lt_of_occupied ho) (by simp [ho, hi])
  refine ⟨by omega, Option.isSome_iff_exists.mp ?_⟩
  rw [hdef, bne_iff_ne]
  intro hfree
  have := hnone (.inl hfree)
  omega

/-- The two slots after a change of one, whose new value meets the invariant. -/
theorem LotsInv.change {s t : State} (h : LotsInv s) {i : SlotId} (hother : t.slot i.other = s.slot i.other)
    (hr : t.residents i.other = s.residents i.other) (hi : SlotInv t i)
    (ha : (t.slot i).state = .active → (s.slot i.other).state ≠ .active)
    (hp : (t.slot i).state = .pending → (s.slot i.other).state ≠ .pending) : LotsInv t := by
  have hall := (lotsInv_iff s).mp h
  rw [lotsInv_iff]
  refine ⟨fun x => ?_, fun x => ?_⟩
  · rcases SlotId.eq_or_other i x with rfl | rfl
    · exact hi
    · exact (hall.1 i.other).congr hother hr
  · have hpair : ¬((t.slot i).state = .active ∧ (t.slot i.other).state = .active) ∧
        ¬((t.slot i).state = .pending ∧ (t.slot i.other).state = .pending) := by
      rw [hother]; exact ⟨fun ⟨h1, h2⟩ => ha h1 h2, fun ⟨h1, h2⟩ => hp h1 h2⟩
    rcases SlotId.eq_or_other i x with rfl | rfl
    · exact hpair
    · have hoo : i.other.other = i := by cases i <;> rfl
      rw [hoo]; exact ⟨fun h => hpair.1 h.symm, fun h => hpair.2 h.symm⟩

/-! ### A finish (R108, R113) -/

/-- A slot that loses a resident: a DRAINING one left with none is FREE (R108, R113). -/
def LotSlot.dropped (sl : LotSlot) : LotSlot :=
  if sl.state = .draining ∧ sl.resident - 1 = 0 then .freed else { sl with resident := sl.resident - 1 }

theorem State.retire_slot (s : State) (i : SlotId) (e : LotEnding) :
    (s.retire i e).slot i = .freed ∧ (s.retire i e).slot i.other = s.slot i.other := by
  unfold State.retire
  refine ⟨State.modSlot_same _ _ _, (State.modSlot_other _ _ _).trans ?_⟩
  split
  · exact State.slot_congr (State.handLotEnd_only _ _ .slot0 (by decide)) (State.handLotEnd_only _ _ .slot1 (by decide)) _
  · rfl

theorem State.dropResident_slot (s : State) (i : SlotId) :
    (s.dropResident i).slot i = (s.slot i).dropped ∧ (s.dropResident i).slot i.other = s.slot i.other := by
  unfold State.dropResident LotSlot.dropped
  simp only [State.modSlot_same]
  split
  · exact ⟨(State.retire_slot _ i _).1, (State.retire_slot _ i _).2.trans (State.modSlot_other _ _ _)⟩
  · exact ⟨State.modSlot_same _ _ _, State.modSlot_other _ _ _⟩

theorem State.finish_slot (s : State) (q : Nat) (o : Finish) {i : SlotId} (hi : (s.pocket q).slot = some i) :
    (s.finish q o).slot i = (s.slot i).dropped ∧ (s.finish q o).slot i.other = s.slot i.other := by
  have h : Only [.chutes, .report, .lineCnt] s ((s.settleAccounts q).handPart ((s.settleAccounts q).partOf q o)) :=
    ((s.settleAccounts_only q).mono (by decide)).trans ((State.handPart_only _ _).mono (by decide))
  have hslot : ∀ x, ((s.settleAccounts q).handPart ((s.settleAccounts q).partOf q o)).slot x = s.slot x :=
    State.slot_congr (h .slot0 (by decide)) (h .slot1 (by decide))
  have hfinish : ∀ x, (s.finish q o).slot x =
      (((s.settleAccounts q).handPart ((s.settleAccounts q).partOf q o)).dropResident i).slot x := fun x => by
    unfold State.finish
    simp only [hi, State.dropResidentOf]
    split <;> cases x <;> rfl
  rw [hfinish, hfinish, ← hslot i, ← hslot i.other]
  exact State.dropResident_slot _ i

theorem State.residents_finish {s : State} {q : Nat} (hq : q < s.track.pockets.length) (o : Finish) (i : SlotId) :
    (s.finish q o).residents i =
      s.residents i - if ((s.pocket q).occupied && (s.pocket q).slot == some i) = true then 1 else 0 := by
  have h := State.countP_replaced (congrArg Track.pockets (s.finish_track q o)) hq
    fun p => p.occupied && p.slot == some i
  rw [State.residents, State.residents, h]
  rfl

theorem SlotInv.dropped {s t : State} {i : SlotId} (h : SlotInv s i) (hpos : 1 ≤ (s.slot i).resident)
    (hs : t.slot i = (s.slot i).dropped) (hr : t.residents i = s.residents i - 1) : SlotInv t i := by
  obtain ⟨hcount, hnone, hdrain, hdef⟩ := h
  rw [SlotInv, hs, hr, LotSlot.dropped]
  split
  · next hd =>
    simp [LotSlot.freed]
    omega
  · next hd =>
    refine ⟨by rw [hcount], fun hx => ?_, fun hx => ?_, hdef⟩
    · have := hnone hx; dsimp only; omega
    · dsimp only at hx ⊢
      rw [not_and] at hd
      have := hd hx
      omega

/-- A finish of an occupied pocket keeps the invariant of the slots. -/
theorem LotsInv.finish {s : State} (h : LotsInv s) {q : Nat} {i : SlotId} (ho : (s.pocket q).occupied = true)
    (hi : (s.pocket q).slot = some i) (o : Finish) : LotsInv (s.finish q o) := by
  obtain ⟨hslot, hother⟩ := s.finish_slot q o hi
  have hq := State.lt_of_occupied ho
  have hall := (lotsInv_iff s).mp h
  have hne : i ≠ i.other := by cases i <;> decide
  have hstate : (s.slot i).dropped.state = (s.slot i).state ∨ (s.slot i).dropped.state = .free := by
    unfold LotSlot.dropped; split
    · exact .inr rfl
    · exact .inl rfl
  refine h.change hother ?_ ?_ ?_ ?_
  · rw [State.residents_finish hq, hi]; simp [hne]
  · exact (hall.1 i).dropped (h.definition ho hi).1 hslot (by rw [State.residents_finish hq, hi, ho]; simp)
  · rw [hslot]
    rintro hx
    rcases hstate with hs | hs <;> rw [hs] at hx
    · exact fun hy => (hall.2 i).1 ⟨hx, hy⟩
    · contradiction
  · rw [hslot]
    rintro hx
    rcases hstate with hs | hs <;> rw [hs] at hx
    · exact fun hy => (hall.2 i).2 ⟨hx, hy⟩
    · contradiction

/-! ### A load (R108 to R111) -/

theorem State.activeSlot_eq_some {s : State} {i : SlotId} (h : s.activeSlot = some i) : (s.slot i).state = .active := by
  unfold State.activeSlot at h
  split at h
  · cases h; assumption
  · split at h
    · cases h; assumption
    · contradiction

theorem State.activeSlot_eq_none {s : State} (h : s.activeSlot = none) (i : SlotId) : (s.slot i).state ≠ .active := by
  unfold State.activeSlot at h
  split at h
  · contradiction
  · split at h
    · contradiction
    · cases i <;> assumption

theorem State.pendingSlot_eq_some {s : State} {i : SlotId} (h : s.pendingSlot = some i) : (s.slot i).state = .pending := by
  unfold State.pendingSlot at h
  split at h
  · cases h; assumption
  · split at h
    · cases h; assumption
    · contradiction

/-- The slot that leaves ACTIVE at a change-over (R111 step 1). -/
theorem LotsInv.leaveActive {s : State} (h : LotsInv s) {a : SlotId} (ha : s.activeSlot = some a) :
    LotsInv (s.leaveActive a) ∧ ((s.leaveActive a).slot a).state ≠ .active ∧
      (s.leaveActive a).slot a.other = s.slot a.other ∧ ((s.leaveActive a).slot a).state ≠ .pending := by
  have hact := State.activeSlot_eq_some ha
  obtain ⟨hcount, hnone, hdrain, hdef⟩ := ((lotsInv_iff s).mp h).1 a
  have hres (x : SlotId) : (s.leaveActive a).residents x = s.residents x := by
    have htrack : (s.leaveActive a).track = s.track := by
      unfold State.leaveActive
      split
      · exact s.retire_only _ _ .track (by decide)
      · exact State.modSlot_track _ _ _
    rw [State.residents, State.residents, htrack]
  unfold State.leaveActive at hres ⊢
  split at hres
  · next h0 =>
    rw [if_pos h0]
    obtain ⟨hs, ho⟩ := s.retire_slot a .drained
    refine ⟨h.change ho (hres _) ?_ ?_ ?_, ?_, ho, ?_⟩ <;> simp [SlotInv, hs, LotSlot.freed, hres]
    omega
  · next h0 =>
    rw [if_neg h0]
    have ho := s.modSlot_other a fun sl => { sl with state := .draining }
    have hs := s.modSlot_same a fun sl => { sl with state := .draining }
    refine ⟨h.change ho (hres _) ⟨?_, ?_, ?_, ?_⟩ ?_ ?_, ?_, ho, ?_⟩ <;> rw [hs]
    · rw [hres]; exact hcount
    · simp
    · intro _; exact Nat.one_le_iff_ne_zero.mpr h0
    · rw [show ({ s.slot a with state := .draining } : LotSlot).definition.isSome = _ from hdef, hact]; rfl
    all_goals simp

/-- A slot activated while the other is not ACTIVE (R111 step 2). -/
theorem LotsInv.activate {s : State} (h : LotsInv s) {i : SlotId} (hi : (s.slot i).state = .pending)
    (hother : (s.slot i.other).state ≠ .active) (n : Nat) : LotsInv (s.modSlot i (LotSlot.activate n)) := by
  obtain ⟨hcount, -, -, hdef⟩ := ((lotsInv_iff s).mp h).1 i
  have hres (x : SlotId) : (s.modSlot i (LotSlot.activate n)).residents x = s.residents x := by
    rw [State.residents, State.residents, State.modSlot_track]
  refine h.change (State.modSlot_other _ _ _) (hres _) ?_ (fun _ => hother) ?_
  · simp [SlotInv, LotSlot.activate, hres, hcount, hdef, hi]
    rfl
  · simp [LotSlot.activate]

theorem LotsInv.changeOver {s : State} (h : LotsInv s) {i : SlotId} (hi : s.pendingSlot = some i) (q : Nat) :
    LotsInv (s.changeOver i q) := by
  have hpend := State.pendingSlot_eq_some hi
  have raised {t : State} (ht : LotsInv t) : LotsInv (t.raise .lotChange (.pocket q)) :=
    ht.congr (fun i => by cases i <;> rfl) fun _ => rfl
  unfold State.changeOver
  dsimp only
  split
  · next a ha =>
    obtain ⟨hl, hna, hother, -⟩ := h.leaveActive ha
    obtain rfl : i = a.other := (SlotId.eq_or_other a i).resolve_left fun he => by
      rw [he, State.activeSlot_eq_some ha] at hpend; contradiction
    have hoo : a.other.other = a := by cases a <;> rfl
    exact raised (hl.activate (by rw [hother, hpend]) (by rwa [hoo]) _)
  · next ha => exact raised (h.activate hpend (State.activeSlot_eq_none ha _) _)

theorem LotsInv.askSlot {s : State} (h : LotsInv s) (q : Nat) : LotsInv (s.askSlot q) := by
  unfold State.askSlot
  split
  · next i hi => exact h.changeOver hi q
  · exact h

theorem State.loadInto_slot (s : State) (q : Nat) (i : SlotId) :
    (s.loadInto q i).slot i = { s.slot i with resident := (s.slot i).resident + 1 } ∧
      (s.loadInto q i).slot i.other = s.slot i.other := by
  unfold State.loadInto
  constructor
  · cases i <;> rfl
  · cases i <;> rfl

theorem State.residents_loadInto {s : State} {q : Nat} (hq : q < s.track.pockets.length)
    (ho : (s.pocket q).occupied = false) (i x : SlotId) :
    (s.loadInto q i).residents x = s.residents x + if x = i then 1 else 0 := by
  have h := State.countP_replaced (s := s) (t := s.loadInto q i) (by rw [State.loadInto_track]) hq
    fun p => p.occupied && p.slot == some x
  rw [State.residents, State.residents, h, ho]
  have hloaded (n m : Nat) : ((loadedPocket n i m).occupied && (loadedPocket n i m).slot == some x) = (i == x) := rfl
  rw [hloaded]
  simp [eq_comm (a := x)]

theorem LotsInv.loadInto {s : State} (h : LotsInv s) {q : Nat} (hq : q < s.track.pockets.length)
    (ho : (s.pocket q).occupied = false) {i : SlotId} (hi : s.activeSlot = some i) : LotsInv (s.loadInto q i) := by
  have hact := State.activeSlot_eq_some hi
  obtain ⟨hcount, -, -, hdef⟩ := ((lotsInv_iff s).mp h).1 i
  obtain ⟨hs, hother⟩ := s.loadInto_slot q i
  have hne : i.other ≠ i := by cases i <;> decide
  refine h.change hother (by rw [State.residents_loadInto hq ho, if_neg hne, add_zero]) ?_ (fun _ hx => ?_) ?_
  · simp [SlotInv, hs, State.residents_loadInto hq ho, hcount, hdef, hact]
  · exact (((lotsInv_iff s).mp h).2 i).1 ⟨hact, hx⟩
  · rw [hs, show ({ s.slot i with resident := (s.slot i).resident + 1 } : LotSlot).state = _ from hact]
    intro hx; contradiction

end Sys2Proof.Machine
end

