-- ==== Sys2Proof/Proofs/Passage.lean ====
section
/-! PROOFS. The Track Unit's invariant over every step: records agree with their states, no pocket past DECIDE or on lap 2 is
without a target, and work names occupied pockets (R3, R8 to R13, R75, R133, R134). -/

namespace Sys2Proof.Machine

/-! ### The invariant by pocket number -/

theorem pocketInvs_iff (s : State) : (∀ p ∈ s.track.pockets, PocketInv p) ↔ ∀ q, PocketInv (s.pocket q) := by
  constructor
  · intro h q
    by_cases hq : q < s.track.pockets.length
    · exact h _ (State.pocket_mem hq)
    · rw [State.pocket_outside (by omega)]; exact pocketInv_emptied
  · intro h p hp
    obtain ⟨q, -, rfl⟩ := State.exists_pocket hp
    exact h q

theorem PocketInv.serial_slot {p : Pocket} (h : PocketInv p) (ho : p.occupied = true) :
    p.serial.isSome = true ∧ p.slot.isSome = true := by
  rw [Pocket.occupied_iff] at ho
  exact h.2.1 ho

theorem PocketInv.target {p : Pocket} (h : PocketInv p) (ht : p.state.targeted) :
    p.decision.isSome = true ∧ p.target.isSome = true := by
  obtain ⟨-, -, -, -, -, -, -, h8, -⟩ := h
  exact h8 ht

/-- With records that agree with their states, a state with a target is all that R134 asks. -/
theorem passedInv_iff {s : State} (h : ∀ q, PocketInv (s.pocket q)) :
    PassedInv s ↔ ∀ q, (s.pocket q).occupied = true →
      (s.track.decidePos < s.track.positionOf q ∨ (s.pocket q).lap = 2) → (s.pocket q).state.targeted :=
  ⟨fun hp q ho hx => (hp q (State.lt_of_occupied ho) ho hx).1,
    fun hp q _ ho hx => ⟨hp q ho hx, (h q).target (hp q ho hx)⟩⟩

theorem GeometryInv.congr {s t : State}
    (h : t.track = { s.track with pockets := t.track.pockets, loadPermit := t.track.loadPermit }) (hs : GeometryInv s) :
    GeometryInv t := by
  rw [GeometryInv, h]; exact hs

theorem Evolves.positionOf {s t : State} (h : Evolves s t) (q : Nat) : t.track.positionOf q = s.track.positionOf q := by
  rw [Track.positionOf, Track.positionOf, h.geometry]

theorem Evolves.decidePos {s t : State} (h : Evolves s t) : t.track.decidePos = s.track.decidePos := by rw [h.geometry]

/-- Parts that stay in their pockets keep the Track Unit's invariant. -/
theorem Evolves.pocketsInv {s t : State} (h : Evolves s t) (hs : PocketsInv s) : PocketsInv t := by
  obtain ⟨hgeo, hpock, hpass, hwork⟩ := hs
  rw [pocketInvs_iff] at hpock
  rw [passedInv_iff hpock] at hpass
  have hpock' (q : Nat) : PocketInv (t.pocket q) := by
    cases ho : (s.pocket q).occupied with
    | false => rw [h.rest hwork q ho]; exact hpock q
    | true => exact ((h.pocket q).inv ho (hpock q)).1
  refine ⟨hgeo.congr h.geometry, (pocketInvs_iff t).mpr hpock', (passedInv_iff hpock').mpr fun q ho hx => ?_, h.work hwork⟩
  have ho' : (s.pocket q).occupied = true := by rw [← (h.pocket q).occupied, ho]
  obtain ⟨-, htar, hlap⟩ := (h.pocket q).inv ho' (hpock q)
  rw [h.positionOf, h.decidePos] at hx
  rcases hx with hx | hx
  · exact htar (hpass q ho' (.inl hx))
  · exact (hlap hx).elim (fun h2 => htar (hpass q ho' (.inr h2))) id

theorem PocketsInv.of_only {l : List Block} {s t : State} (hs : PocketsInv s) (h : Only l s t)
    (hl : ∀ b ∈ .track :: workBlocks, b ∉ l) : PocketsInv t :=
  (Evolves.of_only h hl).pocketsInv hs

/-- One record of the table made EMPTY or replaced, with no work open. -/
theorem PocketsInv.replace {s t : State} (hs : PocketsInv s) (hrest : t.atRest) {q : Nat}
    (hg : t.track.p = s.track.p ∧ t.track.stations = s.track.stations ∧ t.track.decidePos = s.track.decidePos ∧
      t.track.checkPos = s.track.checkPos ∧ t.track.phi = s.track.phi)
    (hne : ∀ r, r ≠ q → t.pocket r = s.pocket r) (hq : PocketInv (t.pocket q))
    (hpos : (t.pocket q).occupied = true → ¬s.track.decidePos < s.track.positionOf q ∧ (t.pocket q).lap ≠ 2) :
    PocketsInv t := by
  obtain ⟨hgeo, hpock, hpass, -⟩ := hs
  obtain ⟨hp, hst, hdec, hchk, hphi⟩ := hg
  rw [pocketInvs_iff] at hpock
  rw [passedInv_iff hpock] at hpass
  have hpock' (r : Nat) : PocketInv (t.pocket r) := by
    by_cases hr : r = q
    · rw [hr]; exact hq
    · rw [hne r hr]; exact hpock r
  refine ⟨?_, (pocketInvs_iff t).mpr hpock', (passedInv_iff hpock').mpr fun r ho hx => ?_, hrest.workInv⟩
  · rw [GeometryInv, hp, hst, hdec, hchk]; exact hgeo
  · rw [hdec, Track.positionOf, hp, hphi] at hx
    by_cases hr : r = q
    · subst hr
      exact absurd hx (by rw [not_or]; exact hpos ho)
    · rw [hne r hr] at ho hx ⊢
      exact hpass r ho hx

/-! ### No work open -/

theorem State.atRest.of_only {l : List Block} {s t : State} (h : s.atRest) (hl : Only l s t)
    (hw : ∀ b ∈ workBlocks, b ∉ l) : t.atRest := by
  obtain ⟨h1, h2, h3⟩ := h
  refine ⟨?_, ?_, ?_⟩
  · rw [show t.chanA = s.chanA from hl .chanA (hw _ (by decide))]; exact h1
  · rw [show t.chanB = s.chanB from hl .chanB (hw _ (by decide))]; exact h2
  · rw [show t.sched = s.sched from hl .sched (hw _ (by decide))]; exact h3

/-- With no work open there is nothing to cut (R71, R86). -/
theorem State.cutDwell_atRest {s : State} (h : s.atRest) : s.cutDwell = s := by
  have hempty : s.emptyRequests = s := by
    unfold State.emptyRequests State.modSched
    rw [← h.2.2]
  have habort (ch : Chan) : s.abortJob ch .cut = s := by rw [State.abortJob, h.job ch]
  rw [State.cutDwell, hempty, habort, habort]

theorem State.abortJob_chan_other (s : State) (ch : Chan) (o : JobOutcome) :
    (s.abortJob ch o).chan (chanOther ch) = s.chan (chanOther ch) := by
  unfold State.abortJob
  split
  · rfl
  · dsimp only
    split <;> cases ch <;> rfl

theorem State.abortJob_job (s : State) (ch : Chan) (o : JobOutcome) : ((s.abortJob ch o).chan ch).job = none := by
  unfold State.abortJob
  split
  · assumption
  · dsimp only
    split <;> cases ch <;> rfl

theorem State.abortJob_requests (s : State) (ch : Chan) (o : JobOutcome) :
    (s.abortJob ch o).sched.requests = s.sched.requests := by
  unfold State.abortJob
  split
  · rfl
  · dsimp only
    split <;> cases ch <;> simp [State.recordAttempt, State.endJob, Sched.clearGrant]

/-- After the cut no work is open (R71, R86). -/
theorem State.cutDwell_rests (s : State) : s.cutDwell.atRest := by
  refine ⟨?_, State.abortJob_job _ .B .cut, ?_⟩
  · have hA := State.abortJob_chan_other (s.emptyRequests.abortJob .A .cut) .B .cut
    exact (congrArg Channel.job hA).trans (State.abortJob_job s.emptyRequests .A .cut)
  · rw [State.cutDwell, State.abortJob_requests, State.abortJob_requests]; rfl

theorem State.raiseFault_atRest {s : State} (h : s.atRest) (k : FaultKind) (d : Detail) :
    Only [.line, .lineCnt, .chutes, .report] s (s.raiseFault k d) := by
  have entry : Only [.line, .lineCnt, .chutes, .report] s (s.faultEntry k d) := by
    unfold State.faultEntry
    rw [State.cutDwell_atRest (h.of_only (s.modLine_only _) (by decide))]
    exact (((s.modLine_only _).mono (by decide)).trans ((State.cutJets_only _).mono (by decide))).trans
      ((State.raise_only _ _ _).mono (by decide))
  unfold State.raiseFault
  split
  · exact entry
  · exact entry
  · exact entry
  · exact entry
  · exact ((s.raise_only _ _).mono (by decide)).trans ((State.modLine_only _ _).mono (by decide))
  · exact (s.raise_only _ _).mono (by decide)

theorem State.loadInto_only (s : State) (q : Nat) (i : SlotId) :
    Only [.track, .slot0, .slot1, .lineCnt] s (s.loadInto q i) :=
  ((((s.modPocket_only _ _).mono (by decide)).trans ((State.modTrack_only _ _).mono (by decide))).trans
    ((State.modSlot_only _ _ _).mono (by decide))).trans ((State.modLineCnt_only _ _).mono (by decide))

/-- The blocks that load and check handling write with no work open. -/
theorem State.handleLoad_atRest {s : State} (h : s.atRest) (q : Nat) (sensed : Bool) :
    Only [.track, .line, .lineCnt, .slot0, .slot1, .chutes, .report] s (s.handleLoad q sensed) := by
  have ask : Only [.track, .line, .lineCnt, .slot0, .slot1, .chutes, .report] s (s.askSlot q) :=
    (s.askSlot_only q).mono (by decide)
  unfold State.handleLoad
  split
  · exact .refl _ s
  · split
    · unfold State.load
      dsimp only
      split
      · exact ask.trans ((State.loadInto_only _ _ _).mono (by decide))
      · exact ask.trans ((State.raiseFault_atRest (h.of_only (s.askSlot_only q) (by decide)) _ _).mono (by decide))
    · exact (s.modLineCnt_only _).mono (by decide)
    · exact (State.raiseFault_atRest h _ _).mono (by decide)
    · exact .refl _ s

theorem State.handleCheck_atRest {s : State} (h : s.atRest) (q : Nat) (sensed : Bool) :
    Only [.track, .line, .lineCnt, .slot0, .slot1, .chutes, .report] s (s.handleCheck q sensed) := by
  have lost : Only [.track, .line, .lineCnt, .slot0, .slot1, .chutes, .report] s
      ((s.raise .partLost (.pocket q)).finish q .lost) :=
    ((s.raise_only _ _).mono (by decide)).trans ((State.finish_only _ _ _).mono (by decide))
  unfold State.handleCheck
  split
  · exact (State.raiseFault_atRest h _ _).mono (by decide)
  · exact .refl _ s
  · exact (s.finish_only _ _).mono (by decide)
  · have hacc : Only [.track, .chutes, .report] s
        ((s.modPocket q fun p => { p.secondLap with state := .decided, misses := 1 }).account
          ((s.pocket q).chute.getD 0) missedPlace) :=
      ((s.modPocket_only _ _).mono (by decide)).trans ((State.account_only _ _ _).mono (by decide))
    unfold State.ejectMiss
    dsimp only
    split
    · exact hacc.mono (by decide)
    · exact (hacc.mono (by decide)).trans ((State.raiseFault_atRest (h.of_only hacc (by decide)) _ _).mono (by decide))
  · exact lost
  · exact (s.modPocket_only _ _).mono (by decide)
  · exact lost
  · exact (s.modPocket_only _ _).mono (by decide)
  all_goals exact .refl _ s

/-! ### Load and check handling -/

/-- What the Track Unit's work at an index start rests on. -/
structure IndexInv (s : State) : Prop where
  table : TableInv s
  phase : s.track.p ≠ 0 → s.track.phi < s.track.p
  pockets : PocketsInv s
  lots : LotsInv s
  rest : s.atRest

theorem IndexInv.of_evolves {s t : State} (h : IndexInv s) (he : Evolves s t) (h0 : t.slot0 = s.slot0)
    (h1 : t.slot1 = s.slot1) (hr : t.atRest) : IndexInv t :=
  ⟨.of_evolves he h.table, by rw [he.geometry]; exact h.phase, he.pocketsInv h.pockets,
    h.lots.congr (State.slot_congr h0 h1) he.residents, hr⟩

/-- A finish of an occupied pocket with no work open (R22). -/
theorem IndexInv.finish {s : State} (h : IndexInv s) {q : Nat} (ho : (s.pocket q).occupied = true) (o : Finish) :
    IndexInv (s.finish q o) := by
  have hpock := (pocketInvs_iff s).mp h.pockets.2.1 q
  obtain ⟨i, hi⟩ := Option.isSome_iff_exists.mp (hpock.serial_slot ho).2
  have htrack := s.finish_track q o
  have hrest : (s.finish q o).atRest := h.rest.of_only (s.finish_only q o) (by decide)
  refine ⟨.of_eq ?_ ?_ h.table, ?_, ?_, h.lots.finish ho hi o, hrest⟩
  · rw [htrack, State.modPocket_length]
  · rw [htrack]; rfl
  · rw [htrack]; exact h.phase
  · refine h.pockets.replace hrest (q := q) (by rw [htrack]; exact ⟨rfl, rfl, rfl, rfl, rfl⟩)
      (fun r hr => s.finish_pocket_ne hr o) ?_ ?_ <;> rw [State.finish_pocket_same]
    · exact pocketInv_emptied
    · intro he; contradiction

theorem pocketInv_loaded (n : Nat) (i : SlotId) (m : Nat) : PocketInv (loadedPocket n i m) := by
  simp [PocketInv, loadedPocket, Pocket.emptied, PocketState.targeted]

/-- A part loaded at LOAD (R15). -/
theorem IndexInv.loadInto {s : State} (h : IndexInv s) (hp : s.track.p ≠ 0) {i : SlotId}
    (ho : (s.pocket (s.track.pocketAt 0)).occupied = false) (hi : s.activeSlot = some i) :
    IndexInv (s.loadInto (s.track.pocketAt 0) i) := by
  have hq : s.track.pocketAt 0 < s.track.pockets.length := by rw [h.table.1]; exact Track.pocketAt_lt hp 0
  have hpos : s.track.positionOf (s.track.pocketAt 0) = 0 :=
    Track.positionOf_pocketAt (h.phase hp) (Nat.pos_of_ne_zero hp)
  have htrack := s.loadInto_track (s.track.pocketAt 0) i
  have hpocket := State.loadInto_pocket hq i
  have hrest := h.rest.of_only (s.loadInto_only (s.track.pocketAt 0) i) (by decide)
  refine ⟨.of_eq ?_ ?_ h.table, ?_, ?_, h.lots.loadInto hq ho hi, hrest⟩
  · rw [htrack, State.modPocket_length]
  · rw [htrack]; rfl
  · rw [htrack]; exact h.phase
  · refine h.pockets.replace hrest (q := s.track.pocketAt 0) (by rw [htrack]; exact ⟨rfl, rfl, rfl, rfl, rfl⟩)
      (fun r hr => by rw [hpocket, if_neg hr]) ?_ ?_ <;> rw [hpocket, if_pos rfl]
    · exact pocketInv_loaded _ _ _
    · rw [hpos]
      exact fun _ => ⟨Nat.not_lt_zero _, by simp [loadedPocket, Pocket.emptied]⟩

theorem IndexInv.askSlot {s : State} (h : IndexInv s) (q : Nat) : IndexInv (s.askSlot q) := by
  have honly := s.askSlot_only q
  have he : Evolves s (s.askSlot q) := .of_only honly (by decide)
  exact ⟨.of_evolves he h.table, by rw [he.geometry]; exact h.phase, he.pocketsInv h.pockets, h.lots.askSlot q,
    h.rest.of_only honly (by decide)⟩

theorem IndexInv.raiseFault {s : State} (h : IndexInv s) (k : FaultKind) (d : Detail) : IndexInv (s.raiseFault k d) :=
  have honly := State.raiseFault_atRest h.rest k d
  h.of_evolves (s.raiseFault_evolves k d) (honly .slot0 (by decide)) (honly .slot1 (by decide)) (h.rest.of_only honly (by decide))

theorem IndexInv.handleLoad {s : State} (h : IndexInv s) (hp : s.track.p ≠ 0) (sensed : Bool) :
    IndexInv (s.handleLoad (s.track.pocketAt 0) sensed) := by
  have hrest := h.rest.of_only (State.handleLoad_atRest h.rest (s.track.pocketAt 0) sensed) (by decide)
  unfold State.handleLoad at hrest ⊢
  split at hrest
  · next ho => rw [if_pos ho]; exact h
  · next ho =>
    rw [if_neg ho]
    have htrack : (s.askSlot (s.track.pocketAt 0)).track = s.track := s.askSlot_only _ .track (by decide)
    split
    · unfold State.load
      dsimp only
      split
      · next i hi =>
        have hask := h.askSlot (s.track.pocketAt 0)
        have ho' : ((s.askSlot (s.track.pocketAt 0)).pocket (s.track.pocketAt 0)).occupied = false := by
          rw [State.pocket_congr htrack]; simpa using ho
        have := hask.loadInto (i := i) (by rw [htrack]; exact hp) (by rw [htrack]; exact ho') hi
        rwa [htrack] at this
      · exact (h.askSlot _).raiseFault _ _
    · exact h.of_evolves (.of_only (s.modLineCnt_only _) (by decide)) rfl rfl h.rest
    · exact h.raiseFault _ _
    · exact h

theorem IndexInv.handleCheck {s : State} (h : IndexInv s) (q : Nat) (sensed : Bool) :
    IndexInv (s.handleCheck q sensed) := by
  have hrest := h.rest.of_only (State.handleCheck_atRest h.rest q sensed) (by decide)
  obtain ⟨he, honly⟩ | ⟨htar, u, o, hu, heq⟩ := s.handleCheck_cases q sensed
  · exact h.of_evolves he (honly .slot0 (by decide)) (honly .slot1 (by decide)) hrest
  · rw [heq]
    have hiu : IndexInv u := h.of_evolves (.of_only hu (by decide)) (hu .slot0 (by decide)) (hu .slot1 (by decide))
      (h.rest.of_only hu (by decide))
    refine hiu.finish ?_ o
    rw [State.pocket_congr (hu .track (by decide)), Pocket.occupied_iff]
    exact targeted_ne_empty htar

theorem IndexInv.handleBoth {s : State} (h : IndexInv s) (hp : s.track.p ≠ 0) (ls cs : Bool) :
    IndexInv (s.handleBoth ls cs) := by
  have chosen {t : State} (ht : IndexInv t) : IndexInv t.chosen :=
    ht.of_evolves (.of_only (t.modChoices_only _) (by decide)) rfl rfl ht.rest
  have hload := (h.handleLoad hp ls).handleCheck (s.track.pocketAt s.track.checkPos) cs
  have hcheck : IndexInv ((s.handleCheck (s.track.pocketAt s.track.checkPos) cs).handleLoad (s.track.pocketAt 0) ls) := by
    have hgeo := s.handleCheck_geometry (s.track.pocketAt s.track.checkPos) cs
    have := (h.handleCheck (s.track.pocketAt s.track.checkPos) cs).handleLoad (by rw [hgeo.p]; exact hp) ls
    rwa [hgeo.pocketAt] at this
  unfold State.handleBoth
  dsimp only
  split
  · split
    · exact chosen hload
    · exact chosen hcheck
  · exact hload

/-! ### The hand-off at DECIDE (R131 to R134) -/

theorem Pocket.Commit.targeted {f : Pocket → Pocket} (hf : Pocket.Commit f) (p : Pocket) : (f p).state.targeted := by
  obtain ⟨c, o, rfl⟩ | rfl := hf
  · exact .inl rfl
  · exact .inr (.inl rfl)

theorem State.decide_targeted {s : State} {q : Nat} (hq : q < s.track.pockets.length) (dec : Decision) (target : Nat)
    (count : LotCounters → LotCounters) : ((s.decide q dec target count).pocket q).state.targeted := by
  obtain ⟨f, hf, ht⟩ := s.decide_track q dec target count
  rw [State.pocket_congr ht, State.modPocket_same hq]
  exact hf.targeted _

theorem Pocket.latestAccepted_of_mem {p : Pocket} (h : ∃ a ∈ p.attempts, a.outcome = .accepted) :
    ∃ a, p.latestAccepted = some a := by
  obtain ⟨a, ha, ho⟩ := h
  rw [← Option.isSome_iff_exists, Pocket.latestAccepted, List.find?_isSome]
  exact ⟨a, List.mem_reverse.mpr ha, by simp [ho]⟩

/-- The pocket leaving DECIDE with a part in it has a target after the hand-off (R134). -/
theorem IndexInv.leaveDecide_targeted {s : State} (h : IndexInv s) {q : Nat} (ho : (s.pocket q).occupied = true) :
    ((s.leaveDecide q).pocket q).state.targeted := by
  have hpock := (pocketInvs_iff s).mp h.pockets.2.1 q
  have hq := State.lt_of_occupied ho
  obtain ⟨i, hi⟩ := Option.isSome_iff_exists.mp (hpock.serial_slot ho).2
  obtain ⟨-, d, hd⟩ := h.lots.definition ho hi
  have hdef : s.definitionOf (s.pocket q) = some d := by simp only [State.definitionOf, hi, hd]
  unfold State.leaveDecide
  rw [hdef]
  dsimp only
  split
  · obtain ⟨f, hf, ht⟩ := s.answerReferral_track q d.rejectChute .referDefault countDefaulted
    rw [State.pocket_congr ht, State.modPocket_same hq]
    exact hf.targeted _
  · exact State.decide_targeted hq _ _ _
  · next hm =>
    unfold State.defaultMeasuring
    split
    · obtain ⟨-, -, -, -, -, hacc, -⟩ := hpock
      obtain ⟨a, ha⟩ := Pocket.latestAccepted_of_mem (hacc hm)
      unfold State.classifyLast
      rw [ha]
      dsimp only
      split
      · exact State.decide_targeted hq _ _ _
      · exact State.decide_targeted hq _ _ _
    · exact State.decide_targeted hq _ _ _
  · next he => rw [Pocket.occupied_iff] at ho; contradiction
  · next he => exact .inl he
  · next he => exact .inr (.inl he)
  · next he => exact .inr (.inr he)

/-! ### The advance (R7) -/

/-- The position of a pocket after the advance: one further, or LOAD again. -/
theorem Track.advance_positionOf {t : Track} (hp : t.p ≠ 0) (q : Nat) :
    t.advance.positionOf q = t.positionOf q + 1 ∨ t.advance.positionOf q = 0 := by
  have hlt : t.positionOf q < t.p := Nat.mod_lt _ (Nat.pos_of_ne_zero hp)
  have h : t.advance.positionOf q = (t.positionOf q + 1) % t.p := by
    simp only [Track.positionOf, Track.advance, if_neg hp, Nat.add_mod_mod, Nat.mod_add_mod, Nat.add_assoc]
  rw [h]
  rcases Nat.lt_or_ge (t.positionOf q + 1) t.p with h1 | h1
  · exact .inl (Nat.mod_eq_of_lt h1)
  · right
    rw [show t.positionOf q + 1 = t.p by omega, Nat.mod_self]

/-- The advance keeps the invariant, once the pocket at DECIDE has a target (R7, R134). -/
theorem PocketsInv.advance {s : State} (h : PocketsInv s) (hp : s.track.p ≠ 0)
    (hdec : ∀ q, (s.pocket q).occupied = true → s.track.positionOf q = s.track.decidePos → (s.pocket q).state.targeted) :
    PocketsInv (s.modTrack Track.advance) := by
  obtain ⟨hgeo, hpock, hpass, hwork⟩ := h
  have hpq := (pocketInvs_iff s).mp hpock
  rw [passedInv_iff hpq] at hpass
  refine ⟨hgeo, hpock, (passedInv_iff (s := s.modTrack Track.advance) hpq).mpr fun q ho hx => ?_, hwork⟩
  rcases hx with hx | hx
  · have hlt : s.track.decidePos < s.track.advance.positionOf q := hx
    rcases s.track.advance_positionOf hp q with h1 | h1
    · rcases Nat.lt_or_ge s.track.decidePos (s.track.positionOf q) with h2 | h2
      · exact hpass q ho (.inl h2)
      · exact hdec q ho (by omega)
    · omega
  · exact hpass q ho (.inr hx)

/-! ### The index start -/

theorem IndexInv.trackIndex {s : State} (h : IndexInv s) (ls cs : Bool) : PocketsInv (s.trackIndex ls cs) := by
  unfold State.trackIndex
  split
  · next hp =>
    obtain ⟨hgeo, hpock, hpass, hwork⟩ := h.pockets
    have hnone (q : Nat) : (s.pocket q).occupied = false := by
      rw [State.pocket_outside (by rw [h.table.1, hp]; omega)]; rfl
    refine ⟨fun h0 => absurd hp h0, hpock, fun q _ ho => ?_, hwork⟩
    rw [show ((s.modTrack Track.advance).pocket q).occupied = false from hnone q] at ho
    contradiction
  · next hp =>
    have hb := h.handleBoth hp ls cs
    have hp' : (s.handleBoth ls cs).track.p ≠ 0 := by rw [(s.handleBoth_geometry ls cs).p]; exact hp
    have he := (s.handleBoth ls cs).leaveDecide_evolves
      ((s.handleBoth ls cs).track.pocketAt (s.handleBoth ls cs).track.decidePos)
    refine (he.pocketsInv hb.pockets).advance ?_ fun q ho hx => ?_
    · rw [he.geometry]; exact hp'
    · rw [he.positionOf, he.decidePos] at hx
      rw [(he.pocket q).occupied] at ho
      have hlt : q < (s.handleBoth ls cs).track.p := by rw [← hb.table.1]; exact State.lt_of_occupied ho
      obtain rfl : (s.handleBoth ls cs).track.pocketAt (s.handleBoth ls cs).track.decidePos = q := by
        rw [← hx, Track.pocketAt_positionOf (hb.phase hp') hlt]
      exact hb.leaveDecide_targeted ho

theorem State.cutShort_rests (s : State) (ls cs : Bool) : (s.cutShort ls cs).atRest :=
  (State.cutDwell_rests _).of_only (State.cutJets_only _) (by decide)

/-- The work of an index start keeps the Track Unit's invariant. -/
theorem State.indexStart_pocketsInv {s : State} (hshape : ShapeInv s) (hlots : LotsInv s) (hpockets : PocketsInv s)
    (ls cs : Bool) : PocketsInv (s.indexStart ls cs) := by
  obtain ⟨hlen, h48, hphi, -⟩ := hshape
  have hcut := s.cutShort_evolves ls cs
  have honly : Only [.pins, .line, .lineCnt, .report, .track, .chanA, .chanB, .sched, .chutes] s (s.cutShort ls cs) :=
    (((s.indexLineWork_only ls cs).mono (by decide)).trans ((State.cutDwell_only _).mono (by decide))).trans
      ((State.cutJets_only _).mono (by decide))
  have hidx : IndexInv (s.cutShort ls cs) :=
    ⟨.of_evolves hcut ⟨hlen, h48⟩, by rw [hcut.geometry]; exact hphi, hcut.pocketsInv hpockets,
      hlots.congr (State.slot_congr (honly .slot0 (by decide)) (honly .slot1 (by decide))) hcut.residents,
      s.cutShort_rests ls cs⟩
  rw [State.indexStart_eq]
  exact ((hidx.trackIndex ls cs).of_only (State.modCal_only _ _) (by decide)).of_only (State.judgeDrained_only _) (by decide)

/-! ### TRACK.SET, LINE.RESET and POCKET.PURGE -/

/-- Outside a WORKING phase no work is open (R34). -/
theorem DwellInv.atRest {s : State} (h : DwellInv s) (hp : s.line.phase ≠ .working) : s.atRest := by
  have hd := h.1 hp
  simp only [State.dwellDone, State.jobRunning, Bool.and_eq_true, Bool.not_eq_true', Bool.or_eq_false_iff,
    Option.isSome_eq_false_iff, Option.isNone_iff_eq_none, List.isEmpty_iff] at hd
  obtain ⟨⟨-, hA, hB⟩, hr⟩ := hd
  exact ⟨hA, hB, hr⟩

/-- In IDLE, STOPPED and FAULTED no work is open (R41, R45). -/
theorem LineInv.atRest {s : State} (h : LineInv s) (hd : DwellInv s) (hs : s.line.state.underWay = false) : s.atRest := by
  obtain ⟨⟨-, -, -, -, hwork, -⟩, -⟩ := h
  exact hd.atRest fun hp => by rw [hwork hp] at hs; contradiction

/-- A table of EMPTY records with no work open. -/
theorem PocketsInv.of_empty {s : State} (hg : GeometryInv s) (h : ∀ p ∈ s.track.pockets, p = .emptied) (hr : s.atRest) :
    PocketsInv s := by
  refine ⟨hg, fun p hp => by rw [h p hp]; exact pocketInv_emptied, fun q _ ho => ?_, hr.workInv⟩
  rw [State.unoccupied_of_forall h q] at ho; contradiction

theorem firstBad_eq_none {l : List (Nat × Bool)} : firstBad l = none ↔ ∀ x ∈ l, x.2 = true := by
  induction l with
  | nil => simp [firstBad]
  | cons x l ih =>
    obtain ⟨n, ok⟩ := x
    cases ok <;> simp [firstBad, ih]

/-- Station positions that pass stand in rising order, and the last is the greatest (R3). -/
theorem stationOrdinals_rising {p ordinal before : Nat} {l : List Nat}
    (h : ∀ x ∈ stationOrdinals p ordinal before l, x.2 = true) :
    (before :: l).Pairwise (· < ·) ∧ ∀ x ∈ before :: l, x ≤ l.getLastD before := by
  induction l generalizing ordinal before with
  | nil => simp
  | cons c cs ih =>
    obtain ⟨hc, hrest⟩ := List.forall_mem_cons.mp h
    have hbc : before < c := by simp at hc; exact hc.1
    obtain ⟨hp, hlast⟩ := ih hrest
    have hfirst : ∀ x ∈ c :: cs, before < x := fun x hx => by
      rcases List.mem_cons.mp hx with rfl | hx
      · exact hbc
      · exact hbc.trans ((List.pairwise_cons.mp hp).1 x hx)
    rw [List.getLastD_cons]
    refine ⟨List.pairwise_cons.mpr ⟨hfirst, hp⟩, fun x hx => ?_⟩
    rcases List.mem_cons.mp hx with rfl | hx
    · exact hbc.le.trans (hlast c List.mem_cons_self)
    · exact hlast x hx

/-- A request whose fields pass gives a geometry that the track may have (R3). -/
theorem geometry_of_trackSetBad {r : TrackSetReq} (h : trackSetBad r = none) :
    8 ≤ r.p ∧ r.p ≤ 48 ∧ r.stations ≠ [] ∧ r.stations.length ≤ 6 ∧
      (0 :: (r.stations ++ [r.decidePos, r.checkPos])).Pairwise (· < ·) ∧ r.checkPos < r.p := by
  have hall := firstBad_eq_none.mp h
  simp only [List.forall_mem_append, List.forall_mem_cons, within, Bool.and_eq_true, decide_eq_true_eq] at hall
  obtain ⟨⟨⟨⟨hp8, hp48⟩, ⟨hn1, hn6⟩, -⟩, hst⟩, ⟨hd, -⟩, ⟨hc, hcp⟩, -⟩ := hall
  obtain ⟨hrise, hlast⟩ := stationOrdinals_rising hst
  refine ⟨hp8, hp48, fun he => by simp [he] at hn1, hn6, ?_, by omega⟩
  rw [← List.cons_append, List.pairwise_append]
  refine ⟨hrise, by simpa using hc, fun x hx y hy => ?_⟩
  have := hlast x hx
  simp only [List.mem_cons, List.not_mem_nil, or_false] at hy
  omega

theorem State.trackSet_pocketsInv {s : State} (hl : LineInv s) (hd : DwellInv s) (h : PocketsInv s) (r : TrackSetReq) :
    PocketsInv (s.trackSet r).2 := by
  rcases s.trackSet_cases r with he | ⟨hset, hbad, he⟩ <;> rw [he]
  · exact h
  · have hidle : s.line.state = .idle := by
      simp only [State.trackSettable, Bool.and_eq_true, beq_iff_eq] at hset
      exact hset.1.1.1
    refine .of_empty (fun _ => geometry_of_trackSetBad hbad) (fun p hp => (List.mem_replicate.mp hp).2) ?_
    exact hl.atRest hd (by rw [hidle]; rfl)

theorem State.lineReset_pocketsInv {s : State} (h : PocketsInv s) : PocketsInv s.lineReset.2 := by
  refine .of_empty h.1 (fun p hp => ?_) ⟨rfl, rfl, rfl⟩
  obtain ⟨_, -, rfl⟩ := List.mem_map.mp hp
  rfl

theorem IndexInv.purgePockets {s : State} (h : IndexInv s) (l : List Nat) : IndexInv (l.foldl State.purgePocket s) := by
  induction l generalizing s with
  | nil => exact h
  | cons q l ih =>
    refine ih ?_
    unfold State.purgePocket
    split
    · next ho => exact h.finish ho .purged
    · exact h

theorem State.pocketPurge_pocketsInv {s : State} (hshape : ShapeInv s) (hline : LineInv s) (hd : DwellInv s)
    (hlots : LotsInv s) (h : PocketsInv s) (n : Nat) : PocketsInv (s.pocketPurge n).2 := by
  obtain ⟨hlen, h48, hphi, -⟩ := hshape
  rcases s.pocketPurge_cases n with he | ⟨hstate, he⟩ <;> rw [he]
  · exact h
  · have hrest : s.atRest := hline.atRest hd (by rcases hstate with hs | hs <;> rw [hs] <;> rfl)
    exact (IndexInv.purgePockets ⟨⟨hlen, h48⟩, hphi, h, hlots, hrest⟩ _).pockets

/-! ### Every command and every step -/

/-- What the Track Unit's invariant rests on from one command to the next. -/
def TrackPremises (s : State) : Prop := ShapeInv s ∧ LineInv s ∧ DwellInv s ∧ LotsInv s ∧ PocketsInv s

theorem State.owner_pocketsInv {s : State} (h : TrackPremises s) (r : Request) : PocketsInv (s.owner r).2 := by
  obtain ⟨hshape, hline, hdwell, hlots, hpockets⟩ := h
  by_cases hr : movesParts r = false
  · exact (s.owner_evolves hr).pocketsInv hpockets
  · cases r <;> simp only [movesParts, not_true_eq_false] at hr
    case trackSet r => exact State.trackSet_pocketsInv hline hdwell hpockets r
    case lineReset => exact State.lineReset_pocketsInv hpockets
    case pocketPurge n => exact State.pocketPurge_pocketsInv hshape hline hdwell hlots hpockets n

theorem HandsOver.pocketsInv {s t : State} (h : HandsOver s t) (hs : TrackPremises s) : PocketsInv t := by
  obtain ⟨calen, buffer, v, hv, honly⟩ := h
  have hoffer : TrackPremises (s.offering calen buffer) := hs
  have hsv : PocketsInv v := by
    rcases hv with rfl | ⟨r, rfl⟩
    · exact hoffer.2.2.2.2
    · exact State.owner_pocketsInv hoffer r
  exact hsv.of_only honly (by decide)

theorem exec_pocketsInv {c : Instr} {s t : State} (hs : TrackPremises s) (he : exec c s = .next t) : PocketsInv t := by
  have hs' := hs
  obtain ⟨hshape, -, -, hlots, hpockets⟩ := hs'
  obtain ⟨m, a, b, rfl⟩ | ⟨ls, cs, rfl⟩ | h | h := exec_cases he
  · obtain rfl := Host.Outcome.next.inj he
    exact .of_empty (fun h => absurd rfl h) (fun p hp => nomatch hp) ⟨rfl, rfl, rfl⟩
  · obtain rfl := Host.Outcome.next.inj he
    split
    · exact hpockets.of_only s.transmit_only (by decide)
    · exact (State.indexStart_pocketsInv hshape hlots hpockets ls cs).of_only (State.transmit_only _) (by decide)
  · exact h.pocketsInv hs
  · exact h.pocketsInv hpockets

/-- R3, R8 to R13, R75, R133 and R134, over every step. -/
theorem step_pocketsInv {s t : State} (hs : TrackPremises s) (h : step s = .next t) : PocketsInv t := by
  rcases step_cases h with rfl | ⟨c, rest, -, he⟩
  · exact s.idle_evolves.pocketsInv hs.2.2.2.2
  · exact exec_pocketsInv (s := { s with pending := rest }) hs he

/-- Settles O11: a load takes a serial that no occupied pocket holds and nothing else gives one out; every operation evolves the
records, and the hand-off at DECIDE leaves no pocket past it without a target. -/
theorem serialsStayDistinct : Obligations.SerialsStayDistinct :=
  ⟨fun _ _ hshape hserial h => step_serialInv ⟨hshape.1, hshape.2.1⟩ hserial h,
    fun _ _ hshape hline hdwell hlots hpockets h => step_pocketsInv ⟨hshape, hline, hdwell, hlots, hpockets⟩ h⟩

end Sys2Proof.Machine
end


-- ==== Sys2Proof/Proofs/PowerOn.lean ====
section
/-! PROOFS. The values after power-on and RESETn (R25 to R27, R156, R159), and index starts on an unconfigured track. -/

namespace Sys2Proof.Machine

/-! ### The stored copy as power-on finds it (R156, R159) -/

theorem State.storedAtReset_kept {s : State} (h : s.link.inProgress = none) : s.storedAtReset = s.cal.stored := by
  simp [State.storedAtReset, h]

/-- A write cut short leaves no check code (R159). -/
theorem State.storedAtReset_check {s : State} (h : s.link.inProgress ≠ none) : s.storedAtReset.check = none := by
  obtain ⟨w, hw⟩ := Option.ne_none_iff_exists'.mp h
  simp [State.storedAtReset, hw, interruptedCopy]

/-- A copy without a check code is not valid (R156). -/
theorem StoredCal.not_judged {c : StoredCal} (h : c.check = none) : c.judged = false := by
  simp [StoredCal.judged, h]

/-- Settles O4: an undisturbed stored copy is kept and judged; one whose write was cut short holds no check code. -/
theorem powerOnValues : Obligations.PowerOnValues := by
  unfold Obligations.PowerOnValues
  constructor
  · intro motion b1 b0 s h
    simp only [exec, execPowerOnReset, State.storedAtReset_kept h, h]
    rfl
  · intro motion b1 b0 s h
    exact ⟨_, rfl, StoredCal.not_judged (State.storedAtReset_check h), State.storedAtReset_check h, rfl, rfl, rfl, rfl⟩

/-! ### Index starts on an unconfigured track (R5, R25) -/

/-- An update of a record finds none in an empty pocket table. -/
theorem State.modPocket_track_of_empty {s : State} (h : s.track.pockets = []) (q : Nat) (f : Pocket → Pocket) :
    (s.modPocket q f).track = s.track := by
  unfold State.modPocket
  cases ht : s.track
  simp_all

theorem State.abortJob_track_of_empty {s : State} (h : s.track.pockets = []) (ch : Chan) (o : JobOutcome) :
    (s.abortJob ch o).track = s.track := by
  have ht : (s.endJob ch).track = s.track := by simp [State.endJob]
  unfold State.abortJob
  split
  · rfl
  · dsimp only
    split
    · rw [State.recordAttempt, State.modChan_track, State.modPocket_track_of_empty (by rw [ht, h]), ht]
    · rw [State.modChan_track, ht]

theorem State.cutDwell_track_of_empty {s : State} (h : s.track.pockets = []) : s.cutDwell.track = s.track := by
  have hA : (s.emptyRequests.abortJob .A .cut).track = s.track :=
    State.abortJob_track_of_empty (s := s.emptyRequests) h .A .cut
  exact (State.abortJob_track_of_empty (by rw [hA, h]) .B .cut).trans hA

/-- Jobs, requests and jets end before the Track Unit works; an empty pocket table takes no attempt of theirs. -/
theorem State.cutShort_track_of_empty {s : State} (h : s.track.pockets = []) (ls cs : Bool) :
    (s.cutShort ls cs).track = s.track := by
  have hw : (s.indexLineWork ls cs).track = s.track := s.indexLineWork_only ls cs .track (by decide)
  calc (s.cutShort ls cs).track
      = (s.indexLineWork ls cs).cutDwell.track := State.cutJets_only _ .track (by decide)
    _ = (s.indexLineWork ls cs).track := State.cutDwell_track_of_empty (by rw [hw, h])
    _ = s.track := hw

/-- What the index start leaves in the track is the Track Unit's work after the jobs, requests and jets are cut short. -/
theorem State.indexStart_track (s : State) (ls cs : Bool) :
    (s.indexStart ls cs).track = ((s.cutShort ls cs).trackIndex ls cs).track := by
  rw [State.indexStart_eq]
  exact State.judgeDrained_only _ .track (by decide)

/-- INDEX_START with MOTION low, which then rises. -/
theorem exec_indexStart {s : State} (h : s.pins.motion = false) (ls cs : Bool) :
    exec (.indexStart ls cs) s = .next (s.indexStart ls cs).transmit := by
  simp [exec, execIndexStart, h]

/-- With P 0 an index start moves k alone. -/
theorem State.indexStart_unconfigured {s : State} {n : Nat} (h : s.track = { Track.powerOn with k := n }) (ls cs : Bool) :
    (s.indexStart ls cs).track = { Track.powerOn with k := (n + 1) % 4294967296 } := by
  have hcut : (s.cutShort ls cs).track = { Track.powerOn with k := n } :=
    (State.cutShort_track_of_empty (by rw [h]; rfl) ls cs).trans h
  have hp : (s.cutShort ls cs).track.p = 0 := by rw [hcut]; rfl
  rw [State.indexStart_track, State.trackIndex, if_pos hp, State.modTrack_track, hcut]
  rfl

/-- Settles O5: the power-on track read off; jobs that an index start cuts record nothing in an empty pocket table. -/
theorem trackUnconfiguredAtPowerOn : Obligations.TrackUnconfiguredAtPowerOn := by
  unfold Obligations.TrackUnconfiguredAtPowerOn
  constructor
  · intro motion b1 b0 s
    exact ⟨_, rfl, rfl, rfl, rfl, rfl, rfl, rfl, rfl, rfl, rfl⟩
  · intro ls cs n s hm ht
    exact ⟨_, exec_indexStart hm ls cs,
      (State.transmit_only _ .track (by decide)).trans (State.indexStart_unconfigured ht ls cs)⟩

end Sys2Proof.Machine
end


-- ==== Sys2Proof/Proofs/TrackSet.lean ====
section
/-! PROOFS. Requests taken at once, fields judged in ordinal order (R172), and TRACK.SET (R2 to R4). -/

namespace Sys2Proof.Machine

/-! ### A request taken at once -/

/-- An owner that answers a and leaves t, the Report Queue as it was: the reply placed, all else as in t. -/
theorem State.ask_answer {s t : State} {a : Answer} {o : State → Answer × State} (h : s.taking) (tag : Byte) (r : Request)
    (ho : o s = (a, t)) (hr : t.report = s.report) :
    (s.ask tag r o).transmit = t.replied (replyFrame r.typeCode tag a.status a.fields) := by
  rw [State.ask_transmit h tag r o (by rw [ho]; exact hr), ho]

/-! ### The first field that fails -/

/-- A list of judged fields in rising order of their ordinals, which judges what `ok` says: the first that fails in the list
is the first ordinal that fails. -/
theorem firstBad_of_firstFails {l : List (Nat × Bool)} {ok : Nat → Prop} {n : Nat} (hl : l.Pairwise (·.1 < ·.1))
    (hok : ∀ e ∈ l, e.2 = true ↔ ok e.1) (hrest : ¬ok n → ∃ e ∈ l, e.1 = n) (h : firstFails ok n) :
    firstBad l = some n := by
  obtain ⟨hn, hbefore⟩ := h
  obtain ⟨e, he, hen⟩ := hrest hn
  clear hrest
  induction l with
  | nil => cases he
  | cons x l ih =>
    obtain ⟨hx, hl⟩ := List.pairwise_cons.mp hl
    obtain ⟨hokx, hokl⟩ := List.forall_mem_cons.mp hok
    rcases List.mem_cons.mp he with rfl | hmem
    · have hfail : e.2 = false := by simpa [hen, hn] using hokx
      simp [firstBad, hfail, hen]
    · have hpass : x.2 = true := hokx.mpr (hbefore _ (by have := hx e hmem; omega))
      simpa [firstBad, hpass] using ih hl hokl hmem

/-! ### The fields of TRACK.SET (R3) -/

/-- The station fields, each with its ordinal and its judgement. -/
theorem mem_stationOrdinals {p ordinal before : Nat} {l : List Nat} {e : Nat × Bool} :
    e ∈ stationOrdinals p ordinal before l ↔ ∃ i, i < l.length ∧ e.1 = ordinal + i ∧
      (e.2 = true ↔ (before :: l).getD i 0 < l.getD i 0 ∧ l.getD i 0 ≤ p - 1) := by
  induction l generalizing ordinal before with
  | nil => simp [stationOrdinals]
  | cons c cs ih =>
    obtain ⟨n, ok⟩ := e
    rw [stationOrdinals, List.mem_cons, ih]
    constructor
    · rintro (he | ⟨i, hi, he1, he2⟩)
      · obtain ⟨rfl, rfl⟩ := Prod.mk.inj he
        exact ⟨0, by simp, rfl, by simp⟩
      · exact ⟨i + 1, by simpa using hi, by rw [he1]; omega, by simpa using he2⟩
    · rintro ⟨i, hi, he1, he2⟩
      cases i with
      | zero =>
        refine .inl (Prod.ext he1 (Bool.eq_iff_iff.mpr ?_))
        simpa using he2
      | succ i => exact .inr ⟨i, by simpa using hi, by simp at he1 ⊢; omega, by simpa using he2⟩

/-- Their ordinals rise. -/
theorem stationOrdinals_pairwise (p ordinal before : Nat) (l : List Nat) :
    (stationOrdinals p ordinal before l).Pairwise (·.1 < ·.1) := by
  induction l generalizing ordinal before with
  | nil => exact .nil
  | cons c cs ih =>
    refine .cons (fun e he => ?_) (ih _ _)
    obtain ⟨i, -, he, -⟩ := mem_stationOrdinals.mp he
    simp only [he]; omega

/-- The last station, or 0 where there is none. -/
theorem getD_cons_length (a : Nat) (l : List Nat) : (a :: l).getD l.length 0 = l.getLastD a := by
  induction l generalizing a with
  | nil => rfl
  | cons b l ih => exact (ih b).trans (by cases l <;> rfl)

theorem trackPasses_zero (r : TrackSetReq) : trackPasses r 0 := by
  refine ⟨?_, ?_, fun i hi h3 => ?_, ?_, ?_⟩ <;> omega

theorem trackPasses_one (r : TrackSetReq) : trackPasses r 1 ↔ 8 ≤ r.p ∧ r.p ≤ 48 :=
  ⟨fun ⟨h1, _⟩ => h1 rfl, fun h => by refine ⟨?_, ?_, fun i hi h3 => ?_, ?_, ?_⟩ <;> omega⟩

theorem trackPasses_two (r : TrackSetReq) : trackPasses r 2 ↔ 1 ≤ r.stations.length ∧ r.stations.length ≤ 6 :=
  ⟨fun ⟨_, h2, _⟩ => h2 rfl, fun h => by refine ⟨?_, ?_, fun i hi h3 => ?_, ?_, ?_⟩ <;> omega⟩

/-- The ordinal of station i, i from 0, stands for its field alone while there are at most 6. -/
theorem trackPasses_station {r : TrackSetReq} (hn : r.stations.length ≤ 6) {i : Nat} (hi : i < r.stations.length) :
    trackPasses r (3 + i) ↔
      (0 :: r.stations).getD i 0 < r.stations.getD i 0 ∧ r.stations.getD i 0 ≤ r.p - 1 := by
  constructor
  · exact fun ⟨_, _, h3, _⟩ => h3 i hi rfl
  · intro h
    refine ⟨by omega, by omega, fun j hj hij => ?_, by omega, by omega⟩
    obtain rfl : i = j := by omega
    exact h

theorem trackPasses_nine {r : TrackSetReq} (hn : r.stations.length ≤ 6) :
    trackPasses r 9 ↔ r.stations.getLastD 0 < r.decidePos ∧ r.decidePos ≤ r.p - 1 := by
  rw [← getD_cons_length]
  exact ⟨fun ⟨_, _, _, h9, _⟩ => h9 rfl, fun h => by refine ⟨?_, ?_, fun i hi h3 => ?_, ?_, ?_⟩ <;> omega⟩

theorem trackPasses_ten {r : TrackSetReq} (hn : r.stations.length ≤ 6) :
    trackPasses r 10 ↔ r.decidePos < r.checkPos ∧ r.checkPos ≤ r.p - 1 :=
  ⟨fun ⟨_, _, _, _, h10⟩ => h10 rfl, fun h => by refine ⟨?_, ?_, fun i hi h3 => ?_, ?_, ?_⟩ <;> omega⟩

/-- With at most 6 stations, what each judged field of TRACK.SET says is what R3 asks of its ordinal. -/
theorem trackFields_passes {r : TrackSetReq} (hn : r.stations.length ≤ 6) :
    ∀ e ∈ [(1, within 8 48 r.p), (2, within 1 6 r.stations.length)] ++ stationOrdinals r.p 3 0 r.stations ++
      [(9, r.stations.getLastD 0 < r.decidePos && r.decidePos ≤ r.p - 1),
        (10, r.decidePos < r.checkPos && r.checkPos ≤ r.p - 1)],
      e.2 = true ↔ trackPasses r e.1 := by
  simp only [List.forall_mem_append, List.forall_mem_cons, List.not_mem_nil, false_implies, implies_true, and_true,
    within, Bool.and_eq_true, decide_eq_true_eq]
  refine ⟨⟨⟨(trackPasses_one r).symm, (trackPasses_two r).symm⟩, fun e he => ?_⟩, (trackPasses_nine hn).symm,
    (trackPasses_ten hn).symm⟩
  obtain ⟨i, hi, he1, he2⟩ := mem_stationOrdinals.mp he
  rw [he1, he2, trackPasses_station hn hi]

/-- The ordinals of the judged fields rise. -/
theorem trackFields_pairwise {r : TrackSetReq} (hn : r.stations.length ≤ 6) (a b c d : Bool) :
    List.Pairwise (fun x y : Nat × Bool => x.1 < y.1)
      ([(1, a), (2, b)] ++ stationOrdinals r.p 3 0 r.stations ++ [(9, c), (10, d)]) := by
  have hst : ∀ e ∈ stationOrdinals r.p 3 0 r.stations, 3 ≤ e.1 ∧ e.1 < 9 := fun e he => by
    obtain ⟨i, hi, he1, -⟩ := mem_stationOrdinals.mp he
    omega
  have hhead : ∀ x ∈ [(1, a), (2, b)], x.1 < 3 := by simp
  have htail : ∀ x ∈ [(9, c), (10, d)], 9 ≤ x.1 := by simp
  refine List.pairwise_append.mpr ⟨List.pairwise_append.mpr
    ⟨by simp, stationOrdinals_pairwise _ _ _ _, fun x hx e he => (hhead x hx).trans_le (hst e he).1⟩, by simp,
    fun e he y hy => ?_⟩
  have := htail y hy
  rcases List.mem_append.mp he with he | he
  · have := hhead e he
    omega
  · have := hst e he
    omega

/-- The first field that fails by R3 is the one TRACK.SET answers with. More than 6 stations, or none, fail at ordinal 2 at
the latest. -/
theorem trackSetBad_of_firstFails {r : TrackSetReq} {n : Nat} (h : firstFails (trackPasses r) n) : trackSetBad r = some n := by
  by_cases hn : 1 ≤ r.stations.length ∧ r.stations.length ≤ 6
  · refine firstBad_of_firstFails (trackFields_pairwise hn.2 _ _ _ _) (trackFields_passes hn.2) (fun hfail => ?_) h
    by_contra hno
    have hne := fun (e : Nat × Bool) he (hen : e.1 = n) => hno ⟨e, he, hen⟩
    simp only [List.forall_mem_append, List.forall_mem_cons] at hne
    obtain ⟨⟨⟨h1, h2, -⟩, hst⟩, h9, h10, -⟩ := hne
    refine hfail ⟨fun he => absurd he.symm h1, fun he => absurd he.symm h2, fun i hi he => ?_,
      fun he => absurd he.symm h9, fun he => absurd he.symm h10⟩
    exact absurd he.symm (hst (3 + i, _) (mem_stationOrdinals.mpr ⟨i, hi, rfl, decide_eq_true_iff⟩))
  · have h2 : within 1 6 r.stations.length = false := by simpa [within] using hn
    have hle : n ≤ 2 := by
      by_contra hlt
      exact hn ((trackPasses_two r).mp (h.2 2 (by omega)))
    have h0 : n ≠ 0 := fun he => h.1 (he ▸ trackPasses_zero r)
    by_cases h1 : 8 ≤ r.p ∧ r.p ≤ 48
    · obtain rfl : n = 2 := by
        by_contra hne
        exact h.1 ((show n = 1 by omega) ▸ (trackPasses_one r).mpr h1)
      have h1 : within 8 48 r.p = true := by simpa [within] using h1
      simp [trackSetBad, firstBad, h1, h2]
    · obtain rfl : n = 1 := by
        by_contra hne
        exact h1 ((trackPasses_one r).mp (h.2 1 (by omega)))
      have h1 : within 8 48 r.p = false := by simpa [within] using h1
      simp [trackSetBad, firstBad, h1]

theorem trackSetBad_eq_none {r : TrackSetReq} (h : ∀ n, trackPasses r n) : trackSetBad r = none :=
  firstBad_eq_none.mpr fun e he => (trackFields_passes ((trackPasses_two r).mp (h 2)).2 e he).mpr (h _)

/-! ### TRACK.SET taken (R2, R4) -/

theorem Track.occupiedCount_eq_zero {t : Track} : t.occupiedCount = 0 ↔ ∀ p ∈ t.pockets, p.state = .empty := by
  simp [Track.occupiedCount, List.countP_eq_zero, Pocket.occupied]

theorem State.trackSettable_iff {s : State} : s.trackSettable = true ↔
    s.line.state = .idle ∧ (∀ p ∈ s.track.pockets, p.state = .empty) ∧ s.slot0.state = .free ∧ s.slot1.state = .free := by
  simp [State.trackSettable, Track.occupiedCount_eq_zero, and_assoc]

theorem State.trackSet_busy {s : State} (h : ¬s.trackSettable = true) (r : TrackSetReq) : s.trackSet r = (.busy, s) := by
  simp [State.trackSet, h]

theorem State.trackSet_bad {s : State} {r : TrackSetReq} {n : Nat} (h : s.trackSettable = true) (hb : trackSetBad r = some n) :
    s.trackSet r = (.bad n, s) := by
  simp [State.trackSet, h, hb]

theorem State.trackSet_installs {s : State} {r : TrackSetReq} (h : s.trackSettable = true) (hb : trackSetBad r = none) :
    s.trackSet r = (.ok [], (s.modTrack (Track.install r)).modChutes fun l => l.map Chute.cleared) := by
  simp [State.trackSet, h, hb]

theorem exec_trackSet (tag : Byte) (r : TrackSetReq) (s : State) :
    exec (.trackSet tag r) s = .next (s.ask tag (.trackSet r) (State.trackSet r)).transmit := rfl

/-- Settles O43: the conditions of R2, the first field that fails, and the installed geometry each give the owner's answer. -/
theorem trackSetTaken : Obligations.TrackSetTaken := by
  unfold Obligations.TrackSetTaken
  intro tag r s hs
  simp only [exec_trackSet]
  constructor
  · intro h
    exact congrArg _ (State.ask_answer hs tag _ (State.trackSet_busy (mt State.trackSettable_iff.mp h) r) rfl)
  · intro hidle hempty h0 h1
    have hset : s.trackSettable = true := State.trackSettable_iff.mpr ⟨hidle, hempty, h0, h1⟩
    constructor
    · intro n hn
      exact congrArg _ (State.ask_answer hs tag _ (State.trackSet_bad hset (trackSetBad_of_firstFails hn)) rfl)
    · intro hall
      exact congrArg _ (State.ask_answer hs tag _ (State.trackSet_installs hset (trackSetBad_eq_none hall)) rfl)

end Sys2Proof.Machine
end


-- ==== Sys2Proof/Proofs/LineReset.lean ====
section
/-! PROOFS. What a reply leaves of the Report Queue (R180), and LINE.RESET (R26, R48, R49, R72, R117, R154, R161, R162, R187). -/

namespace Sys2Proof.Machine

/-! ### A reply placed where nothing else waited (R180) -/

theorem Report.afterReply_cases (f : Frame) (r : Report) :
    (r.tx = none ∧ r.afterReply f = { r with tx := some f }) ∨
      (r.tx ≠ none ∧ r.afterReply f = { r with reply := some f }) := by
  unfold Report.afterReply
  split
  · next h => exact .inl ⟨h, rfl⟩
  · next h => exact .inr ⟨h, rfl⟩

/-- The reply stands in its slot or is being sent. -/
theorem State.replied_answered (f : Frame) (s : State) : (s.replied f).answered f := by
  rcases Report.afterReply_cases f s.report with ⟨-, h⟩ | ⟨-, h⟩
  · exact .inr (by simp [State.replied, h])
  · exact .inl (by simp [State.replied, h])

section
variable (f : Frame) (r : Report)

@[simp] theorem Report.afterReply_refer : (r.afterReply f).refer = r.refer := by
  rcases Report.afterReply_cases f r with ⟨-, h⟩ | ⟨-, h⟩ <;> rw [h]
@[simp] theorem Report.afterReply_events : (r.afterReply f).events = r.events := by
  rcases Report.afterReply_cases f r with ⟨-, h⟩ | ⟨-, h⟩ <;> rw [h]
@[simp] theorem Report.afterReply_mask : (r.afterReply f).mask = r.mask := by
  rcases Report.afterReply_cases f r with ⟨-, h⟩ | ⟨-, h⟩ <;> rw [h]
@[simp] theorem Report.afterReply_lotEnd : (r.afterReply f).lotEnd = r.lotEnd := by
  rcases Report.afterReply_cases f r with ⟨-, h⟩ | ⟨-, h⟩ <;> rw [h]
@[simp] theorem Report.afterReply_part : (r.afterReply f).part = r.part := by
  rcases Report.afterReply_cases f r with ⟨-, h⟩ | ⟨-, h⟩ <;> rw [h]
@[simp] theorem Report.afterReply_dropped : (r.afterReply f).dropped = r.dropped := by
  rcases Report.afterReply_cases f r with ⟨-, h⟩ | ⟨-, h⟩ <;> rw [h]
end

/-! ### LINE.RESET -/

/-- Clearing live marks takes no report out of the queue. -/
theorem Report.clearAllLive_waiting (r : Report) : r.clearAllLive.waiting = r.waiting := by
  simp [Report.waiting, Report.clearAllLive, List.isEmpty_iff]
  rfl

theorem State.resetAll_transmitInv {s : State} (h : TransmitInv s) : TransmitInv s.resetAll := fun hx =>
  (Report.clearAllLive_waiting _).trans (h hx)

/-- LINE.RESET taken at once: every block reset, and the reply with the line as it then stands. -/
theorem exec_lineReset {s : State} (h : s.taking) (tag : Byte) :
    exec (.lineReset tag) s = .next (s.resetAll.replied
      ⟨0x95#8, tag, 0x00#8 :: (s.resetAll.line.fields ++ le 1 s.track.occupiedCount)⟩) := by
  have hreply : s.resetAll.report.reply = none := State.takesAtOnce_reply h.1
  have hplace := State.place_transmit (State.resetAll_transmitInv h.2) hreply
    (replyFrame 0x15#8 tag .ok (s.resetAll.line.fields ++ le 1 s.track.occupiedCount))
  exact congrArg _ ((congrArg State.transmit (State.ask_taken h.1 tag .lineReset State.lineReset)).trans hplace)

/-- Settles O40: every block read off the reset, the reply placed on it. -/
theorem lineResetTaken : Obligations.LineResetTaken := by
  unfold Obligations.LineResetTaken
  rintro tag s hs l rfl
  have hpockets : s.track.pockets.map (fun _ => Pocket.emptied) = List.replicate s.track.pockets.length .emptied :=
    List.map_const'
  refine ⟨_, exec_lineReset hs tag, rfl, State.replied_answered _ _, ?_, rfl, rfl, rfl, rfl, rfl, rfl, rfl, rfl, rfl, rfl,
    rfl, rfl, rfl, Report.afterReply_mask _ _, Report.afterReply_events _ _, Report.afterReply_part _ _,
    Report.afterReply_lotEnd _ _, Report.afterReply_dropped _ _, Report.afterReply_refer _ _⟩
  rw [← hpockets]
  rfl

end Sys2Proof.Machine
end


-- ==== Sys2Proof/Proofs/EjectMiss.lean ====
section
/-! PROOFS. What a cut of the dwell's work leaves of the pockets, fault entry block by block (R45), and the eject miss at
CHECK (R20, R148). -/

namespace Sys2Proof.Machine

/-! ### Attempts of jobs cut short -/

/-- Attempt entries appended, all else as it was: what jobs that end CUT, which is not charged, do to a record (R82, R83). -/
def Pocket.Lengthened (p p' : Pocket) : Prop := ∃ as, p' = { p with attempts := p.attempts ++ as }

theorem Pocket.Lengthened.refl (p : Pocket) : p.Lengthened p := ⟨[], by simp⟩

theorem Pocket.Lengthened.trans {p p' p'' : Pocket} (h : p.Lengthened p') (k : p'.Lengthened p'') : p.Lengthened p'' := by
  obtain ⟨as, rfl⟩ := h
  obtain ⟨bs, rfl⟩ := k
  exact ⟨as ++ bs, by simp⟩

theorem Pocket.addAttempt_cut (p : Pocket) (i : Nat) (ch : Chan) (g : Nat) :
    p.addAttempt ⟨i, ch, g, .cut, none, none⟩ =
      { p with attempts := p.attempts ++ [⟨i, ch, g, .cut, none, none⟩] } := rfl

theorem State.endJob_track (s : State) (ch : Chan) : (s.endJob ch).track = s.track := by simp [State.endJob]

theorem State.abortJob_cut_pocket (s : State) (ch : Chan) (q : Nat) :
    (s.pocket q).Lengthened ((s.abortJob ch .cut).pocket q) := by
  unfold State.abortJob
  split
  · exact .refl _
  · dsimp only
    split
    · next i x g _ =>
      have ht : ((s.endJob ch).recordAttempt x ⟨i, ch, g, .cut, none, none⟩).pocket q =
          (s.modPocket x (Pocket.addAttempt ⟨i, ch, g, .cut, none, none⟩)).pocket q :=
        State.pocket_congr (by simp [State.recordAttempt, State.modPocket, State.endJob_track]) q
      rw [ht]
      rcases State.modPocket_cases s x q (Pocket.addAttempt ⟨i, ch, g, .cut, none, none⟩) with h | ⟨-, h⟩ <;> rw [h]
      · exact .refl _
      · exact ⟨_, Pocket.addAttempt_cut _ i ch g⟩
    · rw [State.pocket_congr (t := State.modChan ch _ (s.endJob ch)) (s := s) (by simp [State.endJob_track])]
      exact .refl _

theorem State.cutDwell_pocket (s : State) (q : Nat) : (s.pocket q).Lengthened (s.cutDwell.pocket q) :=
  (State.abortJob_cut_pocket s.emptyRequests .A q).trans (State.abortJob_cut_pocket _ .B q)

/-! ### Faults (R45, R46) -/

theorem State.cutJets_chute (s : State) (c : Nat) : s.cutJets.chute c = { s.chute c with jet := none } := by
  unfold State.chute State.cutJets
  split
  · rfl
  · simp only [State.modChutes_chutes, State.modLineCnt_chutes, List.getD_eq_getElem?_getD, List.getElem?_map]
    cases s.chutes[c - 1]? <;> rfl

/-- The states in which a fault is taken as fault entry (R45). -/
theorem State.raiseFault_entry {s : State} (h : s.line.state.underWay = true ∨ s.line.state = .stopped) (k : FaultKind)
    (d : Detail) : s.raiseFault k d = s.faultEntry k d := by
  unfold State.raiseFault
  cases hl : s.line.state <;> simp_all [LineState.underWay]

/-- A fault in FAULTED joins the later faults, in IDLE it is an event alone (R46). -/
theorem State.raiseFault_faulted {s : State} (h : s.line.state = .faulted) (k : FaultKind) (d : Detail) :
    s.raiseFault k d = (s.raise k.event d).modLine (addLater k) := by
  simp [State.raiseFault, h]

theorem State.raiseFault_idle {s : State} (h : s.line.state = .idle) (k : FaultKind) (d : Detail) :
    s.raiseFault k d = s.raise k.event d := by
  simp [State.raiseFault, h]

theorem State.faultEntry_line (s : State) (k : FaultKind) (d : Detail) :
    (s.faultEntry k d).line = faultedLine s.pins.motion k d s.line :=
  calc (s.faultEntry k d).line
      = ((s.modLine (faultedLine s.pins.motion k d)).cutDwell).cutJets.line := State.raise_only _ _ _ .line (by decide)
    _ = (s.modLine (faultedLine s.pins.motion k d)).cutDwell.line := State.cutJets_only _ .line (by decide)
    _ = faultedLine s.pins.motion k d s.line := State.cutDwell_only _ .line (by decide)

theorem State.faultEntry_pocket (s : State) (k : FaultKind) (d : Detail) (q : Nat) :
    (s.pocket q).Lengthened ((s.faultEntry k d).pocket q) := by
  have h := State.cutDwell_pocket (s.modLine (faultedLine s.pins.motion k d)) q
  rwa [State.pocket_congr (t := s.faultEntry k d)
    ((State.raise_only _ _ _ .track (by decide)).trans (State.cutJets_only _ .track (by decide)))]

theorem State.faultEntry_chute (s : State) (k : FaultKind) (d : Detail) (c : Nat) :
    (s.faultEntry k d).chute c = { s.chute c with jet := none } := by
  rw [State.chute_congr (t := s.faultEntry k d) (State.raise_only _ _ _ .chutes (by decide)), State.cutJets_chute,
    State.chute_congr (State.cutDwell_only (s.modLine (faultedLine s.pins.motion k d)) .chutes (by decide))]
  rfl

/-- A fault takes no place from a chute and gives none back. -/
theorem State.raiseFault_chute (s : State) (k : FaultKind) (d : Detail) (c : Nat) :
    ∃ jet, (s.raiseFault k d).chute c = { s.chute c with jet := jet } := by
  have entry := State.faultEntry_chute s k d c
  unfold State.raiseFault
  split
  · exact ⟨none, entry⟩
  · exact ⟨none, entry⟩
  · exact ⟨none, entry⟩
  · exact ⟨none, entry⟩
  · exact ⟨(s.chute c).jet, rfl⟩
  · exact ⟨(s.chute c).jet, rfl⟩

/-! ### The eject miss (R20, R148) -/

/-- The record of a missed part: DECIDED again, on lap 2, its miss counted. -/
def Pocket.missed (p : Pocket) : Pocket := { p.secondLap with state := .decided, misses := 1 }

/-- The place of a missed part, taken from the old-box count first (R148). -/
theorem missedPlace_fields (e : Chute) :
    (missedPlace e).inFlight = e.inFlight + 1 ∧ (missedPlace e).oldBox = e.oldBox - 1 ∧
      (missedPlace e).fill = (if 0 < e.oldBox then e.fill else e.fill - 1) ∧
      (missedPlace e).misses = satInc 65535 e.misses ∧ (missedPlace e).ejected = e.ejected ∧
      (missedPlace e).cfg = e.cfg := by
  unfold missedPlace
  split
  · next h => exact ⟨rfl, rfl, rfl, rfl, rfl, rfl⟩
  · next h => exact ⟨rfl, by simp only; omega, rfl, rfl, rfl, rfl⟩

/-- The miss itself, before a second one raises JAM. -/
def State.missAt (q c : Nat) (s : State) : State := (s.modPocket q Pocket.missed).account c missedPlace

theorem State.ejectMiss_eq (s : State) (q c : Nat) :
    s.ejectMiss q c = if (s.pocket q).misses = 0 then s.missAt q c else (s.missAt q c).raiseFault .jam (.pocket q) := rfl

theorem State.missAt_line (s : State) (q c : Nat) : (s.missAt q c).line = s.line :=
  State.account_only _ _ _ .line (by decide)

theorem State.missAt_pocket {s : State} {q : Nat} (h : q < s.track.pockets.length) (c : Nat) :
    (s.missAt q c).pocket q = (s.pocket q).missed :=
  (State.pocket_congr (State.account_only _ _ _ .track (by decide)) q).trans (State.modPocket_same h _)

theorem State.missAt_chute_same {s : State} {c : Nat} (h1 : 1 ≤ c) (h2 : c ≤ s.chutes.length) (q : Nat) :
    (s.missAt q c).chute c = missedPlace (s.chute c) :=
  (State.chute_congr (State.account_chutes _ _ _) c).trans (State.modChute_same (s := s.modPocket q Pocket.missed) h1 h2 _)

theorem State.missAt_chute_ne {s : State} {c x : Nat} (h : x ≠ c) (q : Nat) : (s.missAt q c).chute x = s.chute x :=
  (State.chute_congr (State.account_chutes _ _ _) x).trans (State.modChute_ne (s := s.modPocket q Pocket.missed) h _)

/-- The chutes after an eject miss, JAM or not: as after the miss, but for jets. -/
theorem State.ejectMiss_chute (s : State) (q c x : Nat) :
    ∃ jet, (s.ejectMiss q c).chute x = { (s.missAt q c).chute x with jet := jet } := by
  rw [State.ejectMiss_eq]
  split
  · exact ⟨_, rfl⟩
  · exact State.raiseFault_chute _ _ _ _

/-- A second miss raises JAM, here as fault entry. -/
theorem State.ejectMiss_jam {s : State} {q c : Nat} (h : (s.pocket q).misses ≠ 0)
    (hl : s.line.state.underWay = true ∨ s.line.state = .stopped) :
    s.ejectMiss q c = (s.missAt q c).faultEntry .jam (.pocket q) := by
  rw [State.ejectMiss_eq, if_neg h, State.raiseFault_entry (by rwa [State.missAt_line])]

/-- Settles O16: the miss at the pocket and at the chute, and JAM on top of it, which writes the line, jets and attempts. -/
theorem ejectMissAndJam : Obligations.EjectMissAndJam := by
  unfold Obligations.EjectMissAndJam
  rintro s q c hq h1 h2 hst hch t rfl
  have ht : s.handleCheck q true = s.ejectMiss q c := by simp [State.handleCheck, hst, hch]
  rw [ht]
  obtain ⟨jet, hjet⟩ := State.ejectMiss_chute s q c c
  rw [State.missAt_chute_same h1 h2] at hjet
  refine ⟨?_, ?_, ?_, ?_, ?_, ?_, fun x hx => ?_, fun h0 => ?_, fun h0 hl => ?_⟩
  case refine_7 =>
    obtain ⟨jet, hx'⟩ := State.ejectMiss_chute s q c x
    rw [State.missAt_chute_ne hx] at hx'
    rw [hx']
    exact ⟨rfl, rfl, rfl⟩
  case refine_8 =>
    rw [State.ejectMiss_eq, if_pos h0]
    exact ⟨State.missAt_line s q c, State.missAt_pocket hq c⟩
  case refine_9 =>
    rw [State.ejectMiss_jam h0 hl, State.faultEntry_line]
    obtain ⟨as, has⟩ := State.faultEntry_pocket (s.missAt q c) .jam (.pocket q) q
    rw [State.missAt_pocket hq] at has
    rw [has]
    exact ⟨rfl, rfl, rfl, rfl, hch, rfl⟩
  all_goals
    rw [hjet]
    obtain ⟨hflight, hold, hfill, hmiss, hej, hcfg⟩ := missedPlace_fields (s.chute c)
    assumption

end Sys2Proof.Machine
end


-- ==== Sys2Proof/Proofs/ReadLayouts.lean ====
section
/-! PROOFS. The fields of the five reads as rows of widths and values (R6, R24, R73, R116, R160, R177), and the reads
themselves, which change nothing. -/

namespace Sys2Proof.Machine

/-! ### Rows -/

theorem layout_nil : layout [] = [] := rfl

theorem layout_cons (w v : Nat) (l : List (Nat × Nat)) : layout ((w, v) :: l) = le w v ++ layout l := rfl

theorem layout_append (a b : List (Nat × Nat)) : layout (a ++ b) = layout a ++ layout b := List.flatMap_append

theorem layout_flatMap {α : Type} (g : α → List (Nat × Nat)) (l : List α) :
    layout (l.flatMap g) = eachBytes (fun x => layout (g x)) l := by
  induction l with
  | nil => rfl
  | cons x l ih => simpa [layout_append, eachBytes] using ih

theorem layout_map (w : Nat) (l : List Nat) : layout (l.map fun x => (w, x)) = eachBytes (le w) l := by
  induction l with
  | nil => rfl
  | cons x l ih => simpa [layout_cons, eachBytes] using ih

theorem eachBytes_append {α : Type} (f : α → List Byte) (a b : List α) :
    eachBytes f (a ++ b) = eachBytes f a ++ eachBytes f b := by simp [eachBytes]

theorem eachBytes_congr {α : Type} {f g : α → List Byte} (h : ∀ x, f x = g x) (l : List α) : eachBytes f l = eachBytes g l := by
  rw [funext h]

/-! ### Values -/

theorem le_zero (w : Nat) : le w 0 = List.replicate w 0#8 := by
  induction w with
  | zero => rfl
  | succ w ih => exact congrArg (0#8 :: ·) ih

theorem leSigned_eq (w : Nat) (v : Int) : leSigned w v = le w (twos w v) := by
  have h : ((256 ^ w : Nat) : Int) = 2 ^ (8 * w) := by rw [pow_mul]; norm_num
  rw [leSigned, toTwos, twos, h]

theorem bitCode_eq (b : Bool) : bitCode b = le 1 (flag b) := rfl

/-- An optional value: 00H or 01H, then the value, 0 when absent. -/
theorem optBytes_eq {α : Type} {w : Nat} {f : α → List Byte} {g : α → Nat} (h : ∀ x, f x = le w (g x)) (o : Option α) :
    optBytes w f o = layout (optRow w (o.map g)) := by
  cases o with
  | none => simp [optBytes, optRow, layout_cons, layout_nil, le_zero]; rfl
  | some x => simp [optBytes, optRow, layout_cons, layout_nil, h]; rfl

theorem optBytes_le {w : Nat} (o : Option Nat) : optBytes w (le w) o = layout (optRow w o) := by
  have h := optBytes_eq (fun x => rfl) o (w := w) (f := le w) (g := fun x => x)
  rwa [Option.map_id'] at h

theorem listBytes_eq {α : Type} (f : α → List Byte) (l : List α) : listBytes f l = le 1 l.length ++ eachBytes f l := rfl

/-! ### Codes of named values, from 00H in the order of their rules -/

theorem chanByte_eq (ch : Chan) : chanCode ch = chanByte ch := by cases ch <;> rfl

theorem slotByte_eq (i : SlotId) : i.num = slotByte i := by cases i <;> rfl

theorem Service.code_eq (x : Service) : x.code = codeIn [Service.inService, .stalled, .suspect] x := by cases x <;> rfl

theorem JobState.code_eq (x : JobState) :
    x.code = codeIn [JobState.idle, .connecting, .settlePos, .samplePos, .settleNeg, .sampleNeg] x := by cases x <;> rfl

theorem Polarity.code_eq (x : Polarity) : x.code = codeIn [Polarity.positive, .negative] x := by cases x <;> rfl

theorem SlotState.code_eq (x : SlotState) :
    x.code = codeIn [SlotState.free, .ready, .pending, .active, .draining] x := by cases x <;> rfl

theorem DecisionMode.code_eq (x : DecisionMode) : x.code = codeIn [DecisionMode.preserve, .downgrade] x := by
  cases x <;> rfl

theorem Fallback.code_eq (x : Fallback) : x.code = codeIn [Fallback.retest, .classifyLast] x := by cases x <;> rfl

theorem PocketState.code_eq (x : PocketState) : x.code = pocketStateByte x := by cases x <;> rfl

theorem Source.code_eq (x : Source) : x.code = sourceByte x := by cases x <;> rfl

theorem JobOutcome.code_eq (o : JobOutcome) : o.code = outcomeByte o := by cases o <;> rfl

theorem Marks.code_eq (m : Marks) : m.code = marksByte m := by
  obtain ⟨a, b, c⟩ := m
  cases a <;> cases b <;> cases c <;> rfl

theorem clsCode_eq (c : Option Nat) : clsCode c = classByte c := by cases c <;> rfl

/-! ### CHAN.READ (R73) -/

theorem Relay.code_eq (x : Relay) : x.code = match x with
    | .open => 0
    | .station i => i
    | .check => 7 := by cases x <;> rfl

theorem jobBytes_eq (j : Option Job) : optBytes 12 Job.bytes j = layout (jobRow j) := by
  cases j with
  | none => simp [optBytes, jobRow, layout_cons, layout_nil, le]
  | some j =>
    have hkind : j.kind.bytes = layout (match j.kind with
        | .station i q g => [(1, 0)] ++ optRow 1 (some i) ++ optRow 1 (some q) ++ optRow 1 (some g)
        | .check => [(1, 1)] ++ optRow 1 none ++ optRow 1 none ++ optRow 1 none) := by
      cases j.kind <;> simp [JobKind.bytes, optBytes_le, layout_append, layout_cons]
    simp [optBytes, jobRow, Job.bytes, hkind, layout_cons, layout_append, layout_nil]
    rfl

theorem trimValueBytes_eq (l : List (Option Trim)) : trimValueBytes l = layout (l.flatMap trimRow) := by
  rw [layout_flatMap]
  exact eachBytes_congr (fun t => optBytes_eq (fun t => leSigned_eq 2 t.value) t) l

theorem State.chanFields_eq (s : State) (ch : Chan) : s.chanFields ch = chanReadLayout s ch := by
  simp only [State.chanFields, chanReadLayout, layout_append, layout_cons, layout_nil, jobBytes_eq, trimValueBytes_eq,
    Service.code_eq, JobState.code_eq, Polarity.code_eq, Relay.code_eq, bitCode_eq, List.append_assoc, List.append_nil]
    <;> rfl

/-! ### LOT.READ (R116) -/

theorem GradeSpec.bytes_eq (g : GradeSpec) : g.bytes = layout [(2, g.samples), (4, g.guard)] := by
  simp [GradeSpec.bytes, layout_cons, layout_nil]

theorem ClassSpec.bytes_eq (c : ClassSpec) :
    c.bytes = layout [(4, twos 4 c.lower), (4, twos 4 c.upper), (1, c.chute)] := by
  simp [ClassSpec.bytes, leSigned_eq, layout_cons, layout_nil]

theorem lotDefBytes_eq (d : LotDef) (activation : Option Nat) :
    d.bytes ++ optBytes 2 (le 2) activation = lotReadLayout d activation := by
  simp only [LotDef.bytes, lotReadLayout, listBytes_eq, layout_append, layout_cons, layout_nil, layout_flatMap, layout_map,
    leSigned_eq, bitCode_eq, DecisionMode.code_eq, Fallback.code_eq, optBytes_le, funext GradeSpec.bytes_eq,
    funext ClassSpec.bytes_eq, List.append_assoc, List.append_nil]

/-! ### POCKET.READ (R24) -/

theorem attemptBytes_eq (a : Attempt) : a.bytes = layout ([(1, a.station), (1, chanByte a.chan), (1, a.grade),
    (1, outcomeByte a.outcome)] ++ optRow 4 (a.deviation.map (twos 4)) ++ optRow 1 (a.marks.map marksByte)) := by
  simp only [Attempt.bytes, optBytes_eq (leSigned_eq 4), optBytes_eq (fun m => congrArg (le 1) (Marks.code_eq m)),
    chanByte_eq, JobOutcome.code_eq, layout_append, layout_cons, layout_nil, List.append_assoc, List.append_nil]

theorem decisionBytes_eq (o : Option Decision) : optBytes 4 Decision.bytes o = layout (match o with
    | none => [(1, 0), (4, 0)]
    | some d => [(1, 1), (1, classByte d.cls), (1, sourceByte d.source)] ++ optRow 1 d.grade) := by
  cases o with
  | none => simp [optBytes, layout_cons, layout_nil, le]
  | some d =>
    change 0x01#8 :: d.bytes = _
    simp only [Decision.bytes, optBytes_le, clsCode_eq, Source.code_eq, layout_append, layout_cons, layout_nil,
      List.append_assoc, List.append_nil]
    rfl

theorem Pocket.fields_eq (p : Pocket) : p.fields = pocketReadLayout p := by
  simp only [Pocket.fields, pocketReadLayout, listBytes_eq, funext attemptBytes_eq, decisionBytes_eq, optBytes_le,
    layout_append, layout_cons, layout_nil, layout_flatMap, bitCode_eq, funext slotByte_eq, List.append_assoc,
    List.append_nil] <;> rfl

/-! ### CAL.READ (R160, R163) -/

theorem trimEntryBytes_eq (t : Option Trim) : trimEntryBytes t = layout (match t with
    | none => [(1, 0), (6, 0)]
    | some v => [(1, 1), (2, twos 2 v.value), (4, v.index)]) := by
  cases t with
  | none => simp [trimEntryBytes, optBytes, layout_cons, layout_nil, le]
  | some v => simp [trimEntryBytes, optBytes, leSigned_eq, layout_cons, layout_nil]; rfl

theorem CalPair.bytes_eq (p : CalPair) : p.bytes = layout [(8, p.rref), (4, p.c)] := by
  simp [CalPair.bytes, layout_cons, layout_nil]

theorem State.calFields_eq (s : State) : s.calFields = calReadLayout s.cal (s.dueCheck .A) (s.dueCheck .B) := by
  simp only [State.calFields, calReadLayout, layout_append, layout_cons, layout_nil, layout_flatMap, bitCode_eq, optBytes_le,
    funext trimEntryBytes_eq, eachBytes_append, funext CalPair.bytes_eq, List.append_assoc, List.append_nil] <;> rfl

/-- The due check is the one that a settle taken now would name (R163). -/
theorem State.dueCheck_iff (s : State) (ch : Chan) (r : Nat) : s.dueCheck ch = some r ↔ s.checkDue ch r := by
  unfold State.dueCheck State.activeRange State.checkDue
  cases s.activeSlot with
  | none => simp
  | some i =>
    cases hd : (s.slot i).definition with
    | none => simp [hd]
    | some d =>
      simp only [hd, Option.map_some, Option.ite_none_right_eq_some, Bool.or_eq_true, Option.isNone_iff_eq_none,
        Option.some.injEq]
      constructor
      · rintro ⟨h, rfl⟩
        exact ⟨i, d, rfl, hd, rfl, h⟩
      · rintro ⟨_, d', rfl, hd', rfl, h⟩
        obtain rfl : d = d' := Option.some.inj (hd.symm.trans hd')
        exact ⟨h, rfl⟩

/-! ### The reads, which change nothing -/

/-- A read taken at once: its answer placed, all else as it was. -/
theorem State.ask_read {s : State} {a : Answer} {o : State → Answer × State} (h : s.taking) (tag : Byte) (r : Request)
    (ho : o s = (a, s)) :
    Host.Outcome.next (ρ := Refusal) (φ := Fault) (s.ask tag r o).transmit =
      .next (s.replied (replyFrame r.typeCode tag a.status a.fields)) :=
  congrArg _ (State.ask_answer h tag r ho rfl)

theorem chanOf_chanByte (ch : Chan) : chanOf (chanByte ch) = some ch := by cases ch <;> rfl

theorem chanOf_eq_none {n : Nat} (h : 1 < n) : chanOf n = none := by
  obtain ⟨m, rfl⟩ : ∃ m, n = m + 2 := ⟨n - 2, by omega⟩
  rfl

theorem slotOf_slotByte (i : SlotId) : slotOf (slotByte i) = some i := by cases i <;> rfl

theorem slotOf_eq_none {n : Nat} (h : 1 < n) : slotOf n = none := by
  obtain ⟨m, rfl⟩ : ∃ m, n = m + 2 := ⟨n - 2, by omega⟩
  rfl

theorem State.chanRead_fields (s : State) (ch : Chan) :
    s.chanRead (chanByte ch) = (.ok (chanReadLayout s ch), s) := by
  rw [State.chanRead, chanOf_chanByte, ← State.chanFields_eq]

theorem State.chanRead_bad (s : State) {n : Nat} (h : 1 < n) : s.chanRead n = (.bad 1, s) := by
  rw [State.chanRead, chanOf_eq_none h]

theorem State.lotFields_eq (s : State) (i : SlotId) : s.lotFields i =
    le 1 (slotByte i) ++ le 1 (codeIn [SlotState.free, .ready, .pending, .active, .draining] (s.slot i).state) ++
      le 1 (s.slot i).resident ++
      match (s.slot i).definition with
      | none => []
      | some d => lotReadLayout d (s.slot i).activation := by
  rw [State.lotFields, slotByte_eq, SlotState.code_eq]
  cases (s.slot i).definition with
  | none => rfl
  | some d => exact congrArg _ (lotDefBytes_eq d _)

theorem State.lotRead_fields (s : State) (i : SlotId) : s.lotRead (slotByte i) = (.ok (s.lotFields i), s) := by
  rw [State.lotRead, slotOf_slotByte]

theorem State.lotRead_bad (s : State) {n : Nat} (h : 1 < n) : s.lotRead n = (.bad 1, s) := by
  rw [State.lotRead, slotOf_eq_none h]

theorem State.pocketRead_notReady {s : State} (h : s.track.p = 0) (q : Nat) : s.pocketRead q = (.notReady, s) := by
  simp [State.pocketRead, h]

theorem State.pocketRead_bad {s : State} (h : s.track.p ≠ 0) {q : Nat} (hq : s.track.p ≤ q) : s.pocketRead q = (.bad 1, s) := by
  simp [State.pocketRead, h, Nat.not_lt.mpr hq]

theorem State.pocketRead_fields {s : State} {q : Nat} (hq : q < s.track.p) : s.pocketRead q =
    (.ok (le 1 q ++ le 1 ((q + s.track.phi) % s.track.p) ++ le 1 (pocketStateByte (s.pocket q).state) ++
      if (s.pocket q).state = .empty then [] else pocketReadLayout (s.pocket q)), s) := by
  have hp : s.track.p ≠ 0 := by omega
  rw [State.pocketRead, if_neg hp, if_pos hq, Track.positionOf, PocketState.code_eq, Pocket.fields_eq]
  by_cases h : (s.pocket q).state = .empty <;> simp [Pocket.occupied, h]

/-- Settles O28: each read answers with its row and leaves the part as it was. -/
theorem readsChangeNothing : Obligations.ReadsChangeNothing := by
  unfold Obligations.ReadsChangeNothing
  intro tag s hs
  refine ⟨State.ask_read hs tag .trackRead rfl, fun ch => State.ask_read hs tag _ (s.chanRead_fields ch),
    fun n hn => State.ask_read hs tag _ (s.chanRead_bad hn), fun i => ?_,
    fun n hn => State.ask_read hs tag _ (s.lotRead_bad hn),
    fun hp q => State.ask_read hs tag _ (State.pocketRead_notReady hp q),
    fun hp q hq => State.ask_read hs tag _ (State.pocketRead_bad hp hq),
    fun q hq => State.ask_read hs tag _ (State.pocketRead_fields hq), fun dueA dueB hA hB => ?_⟩
  · refine (State.ask_read hs tag _ (s.lotRead_fields i)).trans ?_
    rw [State.lotFields_eq]
    rfl
  · have hdueA : s.dueCheck .A = dueA := Option.ext fun r => (s.dueCheck_iff .A r).trans (hA r).symm
    have hdueB : s.dueCheck .B = dueB := Option.ext fun r => (s.dueCheck_iff .B r).trans (hB r).symm
    refine (State.ask_read hs tag .calRead rfl).trans ?_
    rw [← hdueA, ← hdueB, ← State.calFields_eq]
    rfl

end Sys2Proof.Machine
end


-- ==== Sys2Proof/Proofs/Settings.lean ====
section
/-! PROOFS. The pieces of configuration and identity state, and which of them each shared operation writes: none, but for the
lot definitions that go with a slot that retires. -/

namespace Sys2Proof.Machine

/-! ### The pieces -/

/-- The pieces of configuration and identity state. -/
inductive Setting where
  | speed | writing | pins | geometry | index | phase | tables | temp | shared | channels | mask | cfg | defs | timing
  deriving DecidableEq

/-- A piece holds in t what it holds in s. -/
def Setting.same (s t : State) : Setting → Prop
  | .speed => t.link.speed = s.link.speed
  | .writing => t.link.inProgress = s.link.inProgress
  | .pins => t.pins = s.pins
  | .geometry => t.track.p = s.track.p ∧ t.track.stations = s.track.stations ∧ t.track.decidePos = s.track.decidePos ∧
      t.track.checkPos = s.track.checkPos
  | .index => t.track.k = s.track.k ∧ t.track.nextSerial = s.track.nextSerial
  | .phase => t.track.phi = s.track.phi
  | .tables => t.cal.stored = s.cal.stored ∧ t.cal.working = s.cal.working ∧ t.cal.valid = s.cal.valid
  | .temp => t.temp = s.temp
  | .shared => t.shared = s.shared
  | .channels => ∀ ch, (t.chan ch).framePeriod = (s.chan ch).framePeriod ∧
      (t.chan ch).settleFrames = (s.chan ch).settleFrames ∧ (t.chan ch).relaySettle = (s.chan ch).relaySettle ∧
      (t.chan ch).strict = (s.chan ch).strict
  | .mask => t.report.mask = s.report.mask
  | .cfg => ∀ n, (t.chute n).cfg = (s.chute n).cfg
  | .defs => t.slot0.definition = s.slot0.definition ∧ t.slot1.definition = s.slot1.definition
  | .timing => t.line.budgetMs = s.line.budgetMs ∧ t.line.motionLimitMs = s.line.motionLimitMs ∧
      t.line.stallLimitMs = s.line.stallLimitMs

/-- The blocks that hold a piece. -/
def Setting.blocks : Setting → List Block
  | .speed | .writing => [.link]
  | .pins => [.pins]
  | .geometry | .index | .phase => [.track]
  | .tables => [.cal]
  | .temp => [.temp]
  | .shared => [.shared]
  | .channels => [.chanA, .chanB]
  | .mask => [.report]
  | .cfg => [.chutes]
  | .defs => [.slot0, .slot1]
  | .timing => [.line]

/-- Every piece. -/
def Setting.all : List Setting :=
  [.speed, .writing, .pins, .geometry, .index, .phase, .tables, .temp, .shared, .channels, .mask, .cfg, .defs, .timing]

/-- The pieces that a list of blocks holds. -/
def heldIn (bs : List Block) : List Setting := Setting.all.filter fun x => x.blocks.any (· ∈ bs)

theorem Setting.mem_all (x : Setting) : x ∈ Setting.all := by cases x <;> decide

theorem Setting.same_of_only {bs : List Block} {s t : State} (h : Only bs s t) {x : Setting} (hx : ∀ b ∈ x.blocks, b ∉ bs) :
    x.same s t := by
  have hb {b : Block} (hb : b ∈ x.blocks) : b.same s t := h b (hx b hb)
  cases x with
  | speed => exact congrArg Link.speed (hb (b := .link) (by decide))
  | writing => exact congrArg Link.inProgress (hb (b := .link) (by decide))
  | pins => exact hb (b := .pins) (by decide)
  | geometry =>
    have ht : t.track = s.track := hb (b := .track) (by decide)
    exact ⟨by rw [ht], by rw [ht], by rw [ht], by rw [ht]⟩
  | index =>
    have ht : t.track = s.track := hb (b := .track) (by decide)
    exact ⟨by rw [ht], by rw [ht]⟩
  | phase => exact congrArg Track.phi (hb (b := .track) (by decide))
  | tables =>
    have hc : t.cal = s.cal := hb (b := .cal) (by decide)
    exact ⟨by rw [hc], by rw [hc], by rw [hc]⟩
  | temp => exact hb (b := .temp) (by decide)
  | shared => exact hb (b := .shared) (by decide)
  | channels =>
    intro ch
    rw [State.chan_congr (hb (b := .chanA) (by decide)) (hb (b := .chanB) (by decide))]
    exact ⟨rfl, rfl, rfl, rfl⟩
  | mask => exact congrArg Report.mask (hb (b := .report) (by decide))
  | cfg => exact fun n => by rw [State.chute_congr (hb (b := .chutes) (by decide))]
  | defs => exact ⟨congrArg _ (hb (b := .slot0) (by decide)), congrArg _ (hb (b := .slot1) (by decide))⟩
  | timing =>
    have hl : t.line = s.line := hb (b := .line) (by decide)
    exact ⟨by rw [hl], by rw [hl], by rw [hl]⟩

theorem Setting.same_trans {s t u : State} (x : Setting) (h : x.same s t) (k : x.same t u) : x.same s u := by
  cases x <;> simp_all [Setting.same]

/-! ### What an operation writes of them -/

/-- t differs from s in the pieces of a list alone. -/
def Sets (l : List Setting) (s t : State) : Prop := ∀ x, x ∉ l → x.same s t

theorem Sets.of_only {bs : List Block} {l : List Setting} {s t : State} (h : Only bs s t)
    (hl : ∀ x ∈ heldIn bs, x ∈ l) : Sets l s t := fun x hx =>
  Setting.same_of_only h fun b hb hbs => hx <| hl x <| List.mem_filter.mpr
    ⟨x.mem_all, List.any_eq_true.mpr ⟨b, hb, decide_eq_true hbs⟩⟩

theorem Sets.refl (l : List Setting) (s : State) : Sets l s s :=
  Sets.of_only (Only.refl [] s) fun x hx => absurd hx (by simp [heldIn])

theorem Sets.trans {l : List Setting} {s t u : State} (h : Sets l s t) (k : Sets l t u) : Sets l s u :=
  fun x hx => x.same_trans (h x hx) (k x hx)

theorem Sets.mono {l m : List Setting} {s t : State} (h : Sets l s t) (hm : ∀ x ∈ l, x ∈ m) : Sets m s t :=
  fun x hx => h x fun hl => hx (hm x hl)

/-- An operation that writes none of the pieces. -/
theorem Sets.any {l : List Setting} {s t : State} (h : Sets [] s t) : Sets l s t :=
  h.mono fun _ hx => absurd hx List.not_mem_nil

/-- An operation that writes no other piece than the one before it. -/
theorem Sets.andThen {l : List Setting} {s t u : State} (h : Sets l s t) (k : Sets [] t u) : Sets l s u := h.trans k.any

theorem Sets.foldl {α : Type} {l : List Setting} {f : State → α → State} (h : ∀ s a, Sets l s (f s a)) (xs : List α)
    (s : State) : Sets l s (xs.foldl f s) := by
  induction xs generalizing s with
  | nil => exact .refl l s
  | cons x xs ih => exact (h s x).trans (ih (f s x))

theorem Sets.ite {l : List Setting} {c : Prop} [Decidable c] {s t u : State} (h : Sets l s t) (k : Sets l s u) :
    Sets l s (if c then t else u) := by
  split
  · exact h
  · exact k

/-- All pieces but some stand by the blocks written; those by name. -/
theorem Sets.intro {bs : List Block} {s t : State} (h : Only bs s t) (hx : ∀ x ∈ heldIn bs, x.same s t) : Sets [] s t :=
  fun x _ => by
    by_cases hm : x ∈ heldIn bs
    · exact hx x hm
    · exact Sets.of_only h (fun _ => id) x hm

section
variable (s : State)

/-! ### Updates of one block -/

theorem State.modTrack_sets (f : Track → Track) (hf : f s.track = { s.track with
    pockets := (f s.track).pockets, loadPermit := (f s.track).loadPermit }) : Sets [] s (s.modTrack f) := by
  refine .intro (s.modTrack_only f) fun x hx => ?_
  have ht : (s.modTrack f).track = f s.track := rfl
  fin_cases hx <;> simp only [Setting.same, ht] <;> rw [hf] <;> simp

theorem State.modPocket_sets (q : Nat) (f : Pocket → Pocket) : Sets [] s (s.modPocket q f) := s.modTrack_sets _ rfl

theorem State.modLine_sets (f : LineCtl → LineCtl) (hf : (f s.line).budgetMs = s.line.budgetMs ∧
    (f s.line).motionLimitMs = s.line.motionLimitMs ∧ (f s.line).stallLimitMs = s.line.stallLimitMs) :
    Sets [] s (s.modLine f) :=
  .intro (s.modLine_only f) fun x hx => by fin_cases hx; exact hf

theorem State.modReport_sets (f : Report → Report) (hf : (f s.report).mask = s.report.mask) : Sets [] s (s.modReport f) :=
  .intro (s.modReport_only f) fun x hx => by fin_cases hx; exact hf

theorem State.modCal_sets (f : Cal → Cal) (hf : (f s.cal).stored = s.cal.stored ∧ (f s.cal).working = s.cal.working ∧
    (f s.cal).valid = s.cal.valid) : Sets [] s (s.modCal f) :=
  .intro (s.modCal_only f) fun x hx => by fin_cases hx; exact hf

theorem State.modLink_sets (f : Link → Link) (hf : (f s.link).speed = s.link.speed)
    (hw : (f s.link).inProgress = s.link.inProgress) : Sets [] s (s.modLink f) :=
  .intro (s.modLink_only f) fun x hx => by fin_cases hx; exacts [hf, hw]

theorem State.modChan_sets (ch : Chan) (f : Channel → Channel) (hf : (f (s.chan ch)).framePeriod = (s.chan ch).framePeriod ∧
    (f (s.chan ch)).settleFrames = (s.chan ch).settleFrames ∧ (f (s.chan ch)).relaySettle = (s.chan ch).relaySettle ∧
    (f (s.chan ch)).strict = (s.chan ch).strict) : Sets [] s (s.modChan ch f) := by
  refine .intro (s.modChan_only ch f) fun x hx => ?_
  fin_cases hx
  intro x
  rcases Chan.eq_or_other ch x with rfl | rfl
  · rw [State.modChan_same]; exact hf
  · rw [State.modChan_other]; exact ⟨rfl, rfl, rfl, rfl⟩

theorem State.modSlot_sets (i : SlotId) (f : LotSlot → LotSlot)
    (hf : (f (s.slot i)).definition = (s.slot i).definition) : Sets [] s (s.modSlot i f) := by
  refine .intro (s.modSlot_only i f) fun x hx => ?_
  fin_cases hx
  cases i
  · exact ⟨hf, rfl⟩
  · exact ⟨rfl, hf⟩

theorem State.modChute_sets (c : Nat) (f : Chute → Chute) (hf : ∀ e, (f e).cfg = e.cfg) : Sets [] s (s.modChute c f) := by
  refine .intro (s.modChute_only c f) fun x hx => ?_
  fin_cases hx
  intro n
  rcases s.modChute_cases c n f with h | ⟨-, h⟩ <;> rw [h]
  exact hf _

theorem State.cutJets_sets : Sets [] s s.cutJets := by
  refine .intro s.cutJets_only fun x hx => ?_
  fin_cases hx
  intro n
  rw [State.cutJets_chute]

/-! ### Events, accounts and finishes -/

theorem State.raise_sets (k : EventKind) (d : Detail) : Sets [] s (s.raise k d) := s.modReport_sets _ rfl

theorem State.account_sets (c : Nat) (f : Chute → Chute) (hf : ∀ e, (f e).cfg = e.cfg) : Sets [] s (s.account c f) := by
  unfold State.account
  dsimp only
  split
  · exact (s.modChute_sets c f hf).trans (State.raise_sets _ _ _)
  · exact s.modChute_sets c f hf

theorem State.bumpLotOf_sets (q : Nat) (f : LotCounters → LotCounters) : Sets [] s (s.bumpLotOf q f) := by
  unfold State.bumpLotOf
  split
  · exact s.modSlot_sets _ _ rfl
  · exact .refl _ s

theorem State.handPart_sets (r : PartRecord) : Sets [] s (s.handPart r) :=
  .ite (s.modReport_sets _ rfl) ((s.modReport_sets _ rfl).trans (.of_only (State.modLineCnt_only _ _) (by decide)))

theorem State.handRefer_sets (r : ReferReport) : Sets [] s (s.handRefer r) :=
  .ite (s.modReport_sets _ rfl) ((s.modReport_sets _ rfl).trans (.of_only (State.modLineCnt_only _ _) (by decide)))

theorem State.handLotEnd_sets (r : LotEnd) : Sets [] s (s.handLotEnd r) :=
  .ite (s.modReport_sets _ rfl) ((s.modReport_sets _ rfl).trans (.of_only (State.modLineCnt_only _ _) (by decide)))

theorem State.settleAccounts_sets (q : Nat) : Sets [] s (s.settleAccounts q) := by
  unfold State.settleAccounts
  split
  · exact .refl _ s
  · split
    · exact s.account_sets _ _ fun _ => rfl
    · exact s.account_sets _ _ fun _ => rfl
    all_goals exact .refl _ s

/-- A slot that retires gives up its definition (R113). -/
theorem State.retire_sets (i : SlotId) (e : LotEnding) : Sets [.defs] s (s.retire i e) := by
  unfold State.retire
  refine Sets.trans (l := [.defs]) (Sets.any ?_) (.of_only (State.modSlot_only _ _ _) (by decide))
  split
  · exact s.handLotEnd_sets _
  · exact .refl _ s

theorem State.dropResident_sets (i : SlotId) : Sets [.defs] s (s.dropResident i) := by
  have h : Sets [.defs] s (s.modSlot i fun sl => { sl with resident := sl.resident - 1 }) :=
    Sets.any (s.modSlot_sets _ _ rfl)
  exact .ite (h.trans (State.retire_sets _ _ _)) h

theorem State.finish_sets (q : Nat) (o : Finish) : Sets [.defs] s (s.finish q o) := by
  have drop (u : State) (slot : Option SlotId) : Sets [.defs] u (u.dropResidentOf slot) := by
    unfold State.dropResidentOf
    split
    · exact u.dropResident_sets _
    · exact .refl _ u
  have h := (((((s.settleAccounts_sets q).trans (State.handPart_sets _ ((s.settleAccounts q).partOf q o))).mono
    (m := [.defs]) (by decide)).trans
    (drop _ (s.pocket q).slot)).trans (.of_only (State.modLineCnt_only _ (countFinish o)) (by decide))).andThen
      (State.modPocket_sets _ q fun _ => .emptied)
  exact .ite (h.andThen (State.modReport_sets _ _ rfl)) h

/-! ### Line moves, commits and decisions -/

theorem State.enterStopped_sets : Sets [] s s.enterStopped := s.modLine_sets _ ⟨rfl, rfl, rfl⟩

theorem State.enterStopping_sets : Sets [] s s.enterStopping :=
  .ite ((s.modLine_sets _ ⟨rfl, rfl, rfl⟩).trans (State.enterStopped_sets _)) (s.modLine_sets _ ⟨rfl, rfl, rfl⟩)

theorem State.judgeDwell_sets : Sets [] s s.judgeDwell := by
  have h : Sets [] s (s.modLine fun l => { l with phase := .waiting, budget := none }) := s.modLine_sets _ ⟨rfl, rfl, rfl⟩
  unfold State.judgeDwell
  split
  · dsimp only
    split
    · exact h.trans (State.modLine_sets _ _ ⟨rfl, rfl, rfl⟩)
    · exact h.trans (State.modLine_sets _ _ ⟨rfl, rfl, rfl⟩)
    · exact h.trans (State.enterStopped_sets _)
    all_goals exact h
  · exact .refl _ s

theorem State.judgeLoadOk_sets : Sets [] s s.judgeLoadOk :=
  .ite ((s.modLine_sets _ ⟨rfl, rfl, rfl⟩).trans (State.modTrack_sets _ _ rfl)) (.refl _ s)

theorem State.commitTo_sets (q c : Nat) (o : Bool) : Sets [] s (s.commitTo q c o) :=
  (s.modPocket_sets _ _).trans (State.account_sets _ _ _ fun _ => rfl)

theorem State.holdPocket_sets (q t : Nat) : Sets [] s (s.holdPocket q t) :=
  ((s.modPocket_sets _ _).trans (State.raise_sets _ _ _)).trans (.ite (State.enterStopping_sets _) (.refl _ _))

theorem State.commit_sets (q t : Nat) : Sets [] s (s.commit q t) := by
  unfold State.commit
  dsimp only
  split
  · exact s.commitTo_sets _ _ _
  · split
    · exact .ite ((s.commitTo_sets _ _ _).trans (State.bumpLotOf_sets _ _ _)) (s.holdPocket_sets _ _)
    · exact s.holdPocket_sets _ _

theorem State.retryPocket_sets (q : Nat) : Sets [] s (s.retryPocket q) := by
  unfold State.retryPocket
  split
  · exact s.commit_sets _ _
  · exact .refl _ s

theorem State.retryHeld_sets : Sets [] s s.retryHeld := .foldl State.retryPocket_sets _ s

theorem State.decide_sets (q : Nat) (dec : Decision) (t : Nat) (f : LotCounters → LotCounters) :
    Sets [] s (s.decide q dec t f) :=
  ((s.modPocket_sets _ _).trans (State.bumpLotOf_sets _ _ _)).trans (State.commit_sets _ _ _)

theorem State.refer_sets (q : Nat) (dec : Decision) (g : Nat) (d : Int) (f : LotCounters → LotCounters) :
    Sets [] s (s.refer q dec g d f) :=
  (((s.modPocket_sets _ _).trans (State.bumpLotOf_sets _ _ _)).trans (State.handRefer_sets _ _)).trans
    (State.bumpLotOf_sets _ _ _)

theorem State.judgeAccepted_sets (q g : Nat) (d : Int) (m : Marks) : Sets [] s (s.judgeAccepted q g d m) := by
  unfold State.judgeAccepted
  dsimp only
  split
  · refine .ite ?_ (.refl _ s)
    unfold State.applyJudgement
    split
    · exact s.decide_sets _ _ _ _
    · exact .ite (s.refer_sets _ _ _ _ _) (s.decide_sets _ _ _ _)
    · exact s.modPocket_sets _ _
  · exact .refl _ s

theorem State.answerReferral_sets (q t : Nat) (src : Source) (f : LotCounters → LotCounters) :
    Sets [] s (s.answerReferral q t src f) :=
  (((s.modPocket_sets _ _).trans (State.modReport_sets _ _ rfl)).trans (State.bumpLotOf_sets _ _ _)).trans
    (State.commit_sets _ _ _)

theorem State.leaveDecide_sets (q : Nat) : Sets [] s (s.leaveDecide q) := by
  unfold State.leaveDecide
  split
  · exact .refl _ s
  · split
    · exact s.answerReferral_sets _ _ _ _
    · exact s.decide_sets _ _ _ _
    · unfold State.defaultMeasuring State.classifyLast
      split
      · split
        · exact .refl _ s
        · split
          · exact s.decide_sets _ _ _ _
          · exact s.decide_sets _ _ _ _
      · exact s.decide_sets _ _ _ _
    all_goals exact .refl _ s

/-! ### Ends of jobs, faults and SUSPECT -/

theorem State.abortJob_sets (ch : Chan) (o : JobOutcome) : Sets [] s (s.abortJob ch o) := by
  have ended : Sets [] s (s.endJob ch) :=
    (s.modChan_sets _ _ ⟨rfl, rfl, rfl, rfl⟩).trans (.of_only (State.modSched_only _ _) (by decide))
  unfold State.abortJob
  split
  · exact .refl _ s
  · dsimp only
    split
    · exact (ended.trans (State.modPocket_sets _ _ _)).trans (State.modChan_sets _ _ _ ⟨rfl, rfl, rfl, rfl⟩)
    · exact ended.trans (State.modChan_sets _ _ _ ⟨rfl, rfl, rfl, rfl⟩)

theorem State.cutDwell_sets : Sets [] s s.cutDwell :=
  ((Sets.of_only (s.modSched_only _) (by decide)).trans (State.abortJob_sets _ _ _)).trans (State.abortJob_sets _ _ _)

theorem State.raiseFault_sets (k : FaultKind) (d : Detail) : Sets [] s (s.raiseFault k d) := by
  have entry : Sets [] s (s.faultEntry k d) :=
    (((s.modLine_sets (faultedLine s.pins.motion k d) ⟨rfl, rfl, rfl⟩).trans (State.cutDwell_sets _)).trans
      (State.cutJets_sets _)).trans (State.raise_sets _ _ _)
  have later (l : LineCtl) : (addLater k l).budgetMs = l.budgetMs ∧ (addLater k l).motionLimitMs = l.motionLimitMs ∧
      (addLater k l).stallLimitMs = l.stallLimitMs := by
    unfold addLater
    split <;> exact ⟨rfl, rfl, rfl⟩
  unfold State.raiseFault
  split
  · exact entry
  · exact entry
  · exact entry
  · exact entry
  · exact (s.raise_sets _ _).trans (State.modLine_sets _ _ (later _))
  · exact s.raise_sets _ _

theorem State.enterSuspect_sets (ch : Chan) : Sets [] s (s.enterSuspect ch) :=
  (((s.modChan_sets _ _ ⟨rfl, rfl, rfl, rfl⟩).trans (State.raise_sets _ _ _)).trans
    (.of_only (State.modSched_only _ _) (by decide))).trans (.ite (State.raiseFault_sets _ _ _) (.refl _ _))

theorem State.judgeSource_sets (ch : Chan) (faulted : Bool) : Sets [] s (s.judgeSource ch faulted) :=
  .ite ((s.modChan_sets ch _ ⟨rfl, rfl, rfl, rfl⟩).trans (State.enterSuspect_sets _ _))
    (s.modChan_sets ch _ ⟨rfl, rfl, rfl, rfl⟩)

/-! ### The scheduler -/

theorem State.grantPass_sets (ch : Chan) : Sets [] s (s.grantPass ch) := by
  unfold State.grantPass
  refine .ite ?_ (.refl _ s)
  split
  · exact (Sets.of_only (s.modSched_only _) (by decide)).trans (State.modChan_sets _ _ _ ⟨rfl, rfl, rfl, rfl⟩)
  · exact .refl _ s

theorem State.review_sets : Sets [] s s.review := by
  have drop : Sets [] s s.dropLate :=
    (Sets.foldl (f := State.noTime) (fun u r => u.modChan_sets _ _ ⟨rfl, rfl, rfl, rfl⟩) _ s).trans
      (.of_only (State.modSched_only _ _) (by decide))
  exact .ite (.refl _ s) ((drop.trans (State.grantPass_sets _ _)).trans (State.grantPass_sets _ _))

theorem State.offer_sets : Sets [] s s.offer := s.review_sets.trans (State.judgeDwell_sets _)

theorem State.stallJob_sets (ch : Chan) : Sets [] s (s.stallJob ch) :=
  .ite ((s.abortJob_sets ch .stall).trans (State.offer_sets _)) (.refl _ s)

/-! ### The transmitter -/

theorem Report.take_mask (r : Report) (m : Msg) : (r.take m).mask = r.mask := by
  unfold Report.take
  split
  · rfl
  all_goals split <;> rfl

theorem State.takeFrom_sets (l : List Msg) : Sets [] s (s.takeFrom l) := by
  unfold State.takeFrom
  split
  · exact .refl _ s
  · split
    · exact .refl _ s
    · exact s.modReport_sets _ (Report.take_mask _ _)
    · exact (s.modReport_sets _ (Report.take_mask _ _)).trans (.of_only (State.modChoices_only _ _) (by decide))

theorem State.transmit_sets : Sets [] s s.transmit := s.takeFrom_sets _

theorem State.transmitTop_sets : Sets [] s s.transmitTop := s.takeFrom_sets _

theorem State.frameSent_sets : Sets [] s s.frameSent := by
  unfold State.frameSent
  split
  · exact .refl _ s
  · split
    · exact s.modReport_sets _ rfl
    · exact s.modReport_sets _ (Report.take_mask _ _)

end

end Sys2Proof.Machine
end


-- ==== Sys2Proof/Proofs/SettingCommands.lean ====
section
/-! PROOFS. Which command writes which piece of configuration and identity state. -/

namespace Sys2Proof.Machine

section
variable (s : State)

/-! ### Frames of the converter links -/

theorem State.acceptTrim_sets (ch : Chan) (r : Nat) (v : Int) : Sets [] s (s.acceptTrim ch r v) := by
  refine Sets.trans (State.modCal_sets _ _ ?_) (State.modChan_sets _ _ _ ⟨rfl, rfl, rfl, rfl⟩)
  unfold Cal.takeTrim
  split <;> cases ch <;> exact ⟨rfl, rfl, rfl⟩

theorem State.completeCheck_sets (ch : Chan) (r : Nat) (result : Option Int) : Sets [] s (s.completeCheck ch r result) := by
  have count : Sets [] s (s.modChan ch fun c => { c with cnt := countCheck c.cnt }) :=
    s.modChan_sets ch _ ⟨rfl, rfl, rfl, rfl⟩
  unfold State.completeCheck
  split
  · exact count.trans (State.judgeSource_sets _ _ _)
  · have h := count.trans (State.judgeSource_sets _ ch false)
    exact .ite (h.trans (State.acceptTrim_sets _ _ _ _)) (h.trans (State.enterSuspect_sets _ _))

theorem State.completeStation_sets (ch : Chan) (i q g : Nat) (r : StationResult) :
    Sets [] s (s.completeStation ch i q g r) := by
  have h : Sets [] s ((s.judgeSource ch (r == .sourceFault)).recordAttempt q (resultAttempt i ch g r)) :=
    ((s.judgeSource_sets _ _).trans (State.modPocket_sets _ _ _)).trans (State.modChan_sets _ _ _ ⟨rfl, rfl, rfl, rfl⟩)
  unfold State.completeStation State.handResult
  split
  · exact h.trans (State.judgeAccepted_sets _ _ _ _ _)
  · exact h

theorem State.completeJob_sets (ch : Chan) (j : Job) : Sets [] s (s.completeJob ch j) := by
  have ended : Sets [] s (s.endJob ch) :=
    (s.modChan_sets _ _ ⟨rfl, rfl, rfl, rfl⟩).trans (.of_only (State.modSched_only _ _) (by decide))
  unfold State.completeJob
  dsimp only
  split
  · exact (ended.trans (State.completeStation_sets _ _ _ _ _ _)).trans (State.offer_sets _)
  · exact (ended.trans (State.completeCheck_sets _ _ _ _)).trans (State.offer_sets _)

/-- The settings a channel keeps through the phases of a job. -/
theorem Channel.enterSettle_settings (pol : Polarity) (settle sample : JobState) (c : Channel) :
    (c.enterSettle pol settle sample).framePeriod = c.framePeriod ∧
      (c.enterSettle pol settle sample).settleFrames = c.settleFrames ∧
      (c.enterSettle pol settle sample).relaySettle = c.relaySettle ∧ (c.enterSettle pol settle sample).strict = c.strict := by
  unfold Channel.enterSettle
  dsimp only
  split <;> exact ⟨rfl, rfl, rfl, rfl⟩

theorem Channel.settleFrame_settings (sample : JobState) (j : Job) (c : Channel) :
    (c.settleFrame sample j).framePeriod = c.framePeriod ∧ (c.settleFrame sample j).settleFrames = c.settleFrames ∧
      (c.settleFrame sample j).relaySettle = c.relaySettle ∧ (c.settleFrame sample j).strict = c.strict := by
  unfold Channel.settleFrame
  dsimp only
  split <;> exact ⟨rfl, rfl, rfl, rfl⟩

theorem State.sampleError_sets (ch : Chan) (j : Job) : Sets [] s (s.sampleError ch j) :=
  .ite ((s.abortJob_sets ch .linkError).trans (State.offer_sets _)) (s.modChan_sets ch _ ⟨rfl, rfl, rfl, rfl⟩)

theorem State.goodSample_sets (ch : Chan) (positive : Bool) (f : Sample) (j : Job) :
    Sets [] s (s.goodSample ch positive f j) := by
  have turn : Sets [] s (s.modChan ch (Channel.endPositive (j.addSample positive f))) :=
    s.modChan_sets ch _ (Channel.enterSettle_settings _ _ _ _)
  exact .ite (.ite (.ite turn (s.completeJob_sets _ _)) (s.modChan_sets ch _ ⟨rfl, rfl, rfl, rfl⟩))
    ((s.abortJob_sets ch .contactLost).trans (State.offer_sets _))

theorem State.useFrame_sets (ch : Chan) (err : Option FrameError) (f : Taken) : Sets [] s (s.useFrame ch err f) := by
  unfold State.useFrame
  split
  · exact .refl _ s
  · split
    · exact .refl _ s
    · exact .refl _ s
    · exact s.modChan_sets ch _ (Channel.settleFrame_settings _ _ _)
    · exact s.modChan_sets ch _ (Channel.settleFrame_settings _ _ _)
    · split
      · exact s.goodSample_sets ch _ _ _
      · exact s.sampleError_sets ch _
    · split
      · exact s.goodSample_sets ch _ _ _
      · exact s.sampleError_sets ch _

theorem State.countGood_sets (ch : Chan) (err : Option FrameError) : Sets [] s (s.countGood ch err) :=
  .ite (s.modChan_sets ch _ ⟨rfl, rfl, rfl, rfl⟩)
    (.ite ((s.modChan_sets ch Channel.enterService ⟨rfl, rfl, rfl, rfl⟩).trans (State.offer_sets _))
      (s.modChan_sets ch _ ⟨rfl, rfl, rfl, rfl⟩))

theorem State.takeFrame_sets (ch : Chan) (f : Taken) : Sets [] s (s.takeFrame ch f) := by
  have h (n : ChanCounters → ChanCounters) : Sets [] s (s.modChan ch fun c => { c.restartWatchdog with cnt := n c.cnt }) :=
    s.modChan_sets ch _ ⟨rfl, rfl, rfl, rfl⟩
  unfold State.takeFrame
  dsimp only
  split
  · exact (h _).trans (State.useFrame_sets _ _ _ _)
  · exact (h _).trans (State.countGood_sets _ _ _)
  · exact h _

theorem State.linkSymbol_sets (ch : Chan) (y : LinkSymbol) : Sets [] s (s.linkSymbol ch y) := by
  have h (r : Receiver) : Sets [] s (s.modChan ch fun c => { c with receiver := r }) :=
    s.modChan_sets ch _ ⟨rfl, rfl, rfl, rfl⟩
  unfold State.linkSymbol
  dsimp only
  split
  · exact (h _).trans (State.takeFrame_sets _ _ _)
  · exact h _

/-! ### The settle and the index start -/

theorem State.fireChute_sets (c : Nat) : Sets [] s (s.fireChute c) := by
  unfold State.fireChute
  split
  · exact .refl _ s
  · next g _ => exact .ite ((s.account_sets c (fired g.pulseMs) fun _ => rfl).trans (State.modPocket_sets _ _ _)) (.refl _ s)

theorem State.workedSettle_sets : Sets [] s s.workedSettle :=
  (((((s.modLine_sets openDwell ⟨rfl, rfl, rfl⟩).trans (State.retryHeld_sets _)).trans (State.judgeLoadOk_sets _)).trans
    (.of_only (State.modSched_only _ _) (by decide))).trans (.foldl State.fireChute_sets _ _)).trans (State.offer_sets _)

theorem State.settle_sets : Sets [.pins] s s.settle := by
  have h : Sets [.pins] s
      ((s.modPins fun p => { p with motion := false }).modLine fun l => { l with motionTimer := none }) :=
    (Sets.of_only (s.modPins_only _) (by decide)).andThen (State.modLine_sets _ _ ⟨rfl, rfl, rfl⟩)
  unfold State.settle
  dsimp only
  split
  · exact h.andThen (State.workedSettle_sets _)
  · exact h.andThen (State.workedSettle_sets _)
  · exact (h.andThen (State.enterStopped_sets _)).andThen (State.retryHeld_sets _)
  all_goals exact (h.andThen (State.modLine_sets _ _ ⟨rfl, rfl, rfl⟩)).andThen (State.retryHeld_sets _)

/-- A load gives out the next serial; its change-over may retire the slot that was ACTIVE (R16, R111). -/
theorem State.load_sets (q : Nat) : Sets [.index, .defs] s (s.load q) := by
  have leave (u : State) (i : SlotId) : Sets [.index, .defs] u (u.leaveActive i) :=
    .ite ((u.retire_sets _ _).mono (by decide)) (Sets.any (u.modSlot_sets _ _ rfl))
  have change (u : State) (i : SlotId) : Sets [.index, .defs] u (u.changeOver i q) := by
    unfold State.changeOver
    dsimp only
    split
    · exact ((leave u _).andThen (State.modSlot_sets _ _ _ rfl)).andThen (State.raise_sets _ _ _)
    · exact Sets.any ((u.modSlot_sets _ _ rfl).trans (State.raise_sets _ _ _))
  have ask : Sets [.index, .defs] s (s.askSlot q) := by
    unfold State.askSlot
    split
    · exact change s _
    · exact .refl _ s
  have serial (u : State) (n : Nat) : Sets [.index, .defs] u (u.modTrack fun t => { t with nextSerial := n }) :=
    fun x hx => by
      by_cases hg : x ∈ heldIn [.track]
      · fin_cases hg
        · exact ⟨rfl, rfl, rfl, rfl⟩
        · exact absurd (by decide) hx
        · exact rfl
      · exact Sets.of_only (u.modTrack_only _) (fun _ => id) x hg
  unfold State.load
  dsimp only
  split
  · exact (((ask.andThen (State.modPocket_sets _ _ _)).trans (serial _ _)).andThen
      (State.modSlot_sets _ _ _ rfl)).andThen (.of_only (State.modLineCnt_only _ _) (by decide))
  · exact ask.andThen (State.raiseFault_sets _ _ _)

theorem State.handleLoad_sets (q : Nat) (sensed : Bool) : Sets [.index, .defs] s (s.handleLoad q sensed) := by
  unfold State.handleLoad
  refine .ite (.refl _ s) ?_
  split
  · exact s.load_sets q
  · exact .of_only (s.modLineCnt_only _) (by decide)
  · exact (s.raiseFault_sets _ _).mono (by decide)
  · exact .refl _ s

theorem State.handleCheck_sets (q : Nat) (sensed : Bool) : Sets [.index, .defs] s (s.handleCheck q sensed) := by
  have missed (e : Chute) : (missedPlace e).cfg = e.cfg := (missedPlace_fields e).2.2.2.2.2
  have miss (c : Nat) : Sets [] s (s.missAt q c) := (s.modPocket_sets _ _).trans (State.account_sets _ _ _ missed)
  have lost : Sets [.defs] s ((s.raise .partLost (.pocket q)).finish q .lost) :=
    (Sets.any (s.raise_sets _ _)).trans (State.finish_sets _ _ _)
  unfold State.handleCheck
  split
  · exact (s.raiseFault_sets _ _).mono (by decide)
  · exact .refl _ s
  · exact (s.finish_sets _ _).mono (by decide)
  · rw [State.ejectMiss_eq]
    exact Sets.any (.ite (miss _) ((miss _).trans (State.raiseFault_sets _ _ _)))
  · exact lost.mono (by decide)
  · exact (s.modPocket_sets _ _).mono (by decide)
  · exact lost.mono (by decide)
  · exact (s.modPocket_sets _ _).mono (by decide)
  all_goals exact .refl _ s

theorem State.handleBoth_sets (ls cs : Bool) : Sets [.index, .defs] s (s.handleBoth ls cs) := by
  unfold State.handleBoth
  refine .ite (.ite ?_ ?_) ?_
  · exact ((s.handleLoad_sets _ _).trans (State.handleCheck_sets _ _ _)).trans (.of_only (State.modChoices_only _ _) (by decide))
  · exact ((s.handleCheck_sets _ _).trans (State.handleLoad_sets _ _ _)).trans (.of_only (State.modChoices_only _ _) (by decide))
  · exact (s.handleLoad_sets _ _).trans (State.handleCheck_sets _ _ _)

theorem State.trackIndex_sets (ls cs : Bool) : Sets [.index, .phase, .defs] s (s.trackIndex ls cs) := by
  have advance (u : State) : Sets [.index, .phase, .defs] u (u.modTrack Track.advance) := fun x hx => by
    by_cases hg : x ∈ heldIn [.track]
    · fin_cases hg
      · exact ⟨rfl, rfl, rfl, rfl⟩
      · exact absurd (by decide) hx
      · exact absurd (by decide) hx
    · exact Sets.of_only (u.modTrack_only _) (fun _ => id) x hg
  exact .ite (advance s) ((((s.handleBoth_sets ls cs).mono (by decide)).andThen (State.leaveDecide_sets _ _)).trans (advance _))

theorem State.indexLineWork_sets (ls cs : Bool) : Sets [.pins] s (s.indexLineWork ls cs) := by
  have h : Sets [.pins] s (((s.modPins (Pins.sampled (s.track.p == 0) ls cs)).modLine indexLine).modLineCnt fun c =>
      { c with indexStarts := bump c.indexStarts }) :=
    ((Sets.of_only (s.modPins_only _) (by decide)).andThen (State.modLine_sets _ _ ⟨rfl, rfl, rfl⟩)).trans
      (.of_only (State.modLineCnt_only _ _) (by decide))
  exact .ite ((h.andThen (State.raise_sets _ _ _)).trans (.of_only (State.modLineCnt_only _ _) (by decide))) h

theorem Cal.judgeFlags_tables (interval k : Nat) (c : Cal) : (c.judgeFlags interval k).stored = c.stored ∧
    (c.judgeFlags interval k).working = c.working ∧ (c.judgeFlags interval k).valid = c.valid := by
  unfold Cal.judgeFlags
  split <;> exact ⟨rfl, rfl, rfl⟩

theorem State.judgeDrained_sets : Sets [] s s.judgeDrained := .ite (s.modLine_sets _ ⟨rfl, rfl, rfl⟩) (.refl _ s)

theorem State.cutShort_sets (ls cs : Bool) : Sets [.pins] s (s.cutShort ls cs) :=
  ((s.indexLineWork_sets ls cs).andThen (State.cutDwell_sets _)).andThen (State.cutJets_sets _)

theorem State.indexStart_sets (ls cs : Bool) : Sets [.pins, .index, .phase, .defs] s (s.indexStart ls cs) := by
  rw [State.indexStart_eq]
  exact ((((s.cutShort_sets ls cs).mono (by decide)).trans ((State.trackIndex_sets _ ls cs).mono (by decide))).andThen
    (State.modCal_sets _ _ (Cal.judgeFlags_tables _ _ _))).andThen (State.judgeDrained_sets _)

end

end Sys2Proof.Machine
end


-- ==== Sys2Proof/Proofs/SettingRequests.lean ====
section
/-! PROOFS. Which request writes which piece of configuration and identity state, and every command with the pieces it may
write. -/

namespace Sys2Proof.Machine

/-! ### The owners of the requests -/

/-- The pieces that a request's owner may write. -/
def requestWrites : Request → List Setting
  | .trackSet _ => [.geometry, .phase, .cfg]
  | .chuteSet _ _ _ => [.cfg]
  | .chanSet _ => [.shared, .channels]
  | .lotLoad _ | .lotFree _ | .pocketPurge _ => [.defs]
  | .lineStart _ _ _ => [.timing]
  | .lineReset => [.index, .phase, .defs]
  | .tempSet _ => [.temp]
  | .calWrite _ => [.tables, .writing]
  | .eventMask _ => [.mask]
  | _ => []

section
variable (s : State)

theorem State.trackSet_sets (r : TrackSetReq) : Sets [.geometry, .phase, .cfg] s (s.trackSet r).2 := by
  rcases s.trackSet_cases r with h | ⟨-, -, h⟩ <;> rw [h]
  · exact .refl _ s
  · refine Sets.trans (t := s.modTrack (Track.install r)) (fun x hx => ?_) (.of_only (State.modChutes_only _ _) (by decide))
    by_cases hg : x ∈ heldIn [.track]
    · fin_cases hg
      · exact absurd (by decide) hx
      · exact ⟨rfl, rfl⟩
      · exact absurd (by decide) hx
    · exact Sets.of_only (s.modTrack_only _) (fun _ => id) x hg

theorem State.chuteSet_sets (c a : Nat) (f : ChuteFields) : Sets [.cfg] s (s.chuteSet c a f).2 := by
  have h (g : Chute → Chute) : Sets [.cfg] s (s.account c g) := by
    have hchute : Sets [.cfg] s (s.modChute c g) := .of_only (s.modChute_only c g) (by decide)
    unfold State.account
    dsimp only
    split
    · exact hchute.andThen (State.raise_sets _ _ _)
    · exact hchute
  unfold State.chuteSet
  split
  · exact .refl _ s
  · split
    · split
      · exact .refl _ s
      · split
        · unfold State.removeChute
          split
          · split
            · exact .refl _ s
            · exact h _
          · exact .refl _ s
        · unfold State.configureChute
          split
          · exact .refl _ s
          · exact h _
    · exact .refl _ s

theorem State.chanSet_sets (r : ChanSetReq) : Sets [.shared, .channels] s (s.chanSet r).2 := by
  have interval (c : Cal) : (c.intervalSet r.interval).stored = c.stored ∧ (c.intervalSet r.interval).working = c.working ∧
      (c.intervalSet r.interval).valid = c.valid := by
    unfold Cal.intervalSet
    split <;> exact ⟨rfl, rfl, rfl⟩
  unfold State.chanSet
  split
  · split
    · exact ((Sets.of_only (s.modChan_only _ _) (by decide)).trans (.of_only (State.modShared_only _ _) (by decide))).andThen
        (State.modCal_sets _ _ (interval _))
    · exact .refl _ s
    · exact .refl _ s
  · exact .refl _ s

theorem State.chanReset_sets (n : Nat) : Sets [] s (s.chanReset n).2 := by
  unfold State.chanReset
  split
  · exact .refl _ s
  · next ch _ =>
    have h : Sets [] s (s.modChan ch Channel.enterStalled) := s.modChan_sets ch _ ⟨rfl, rfl, rfl, rfl⟩
    split
    · exact .refl _ s
    · exact h.trans (State.stallJob_sets _ _)
    · exact h

theorem State.chanRestore_sets (n : Nat) : Sets [] s (s.chanRestore n).2 := by
  unfold State.chanRestore
  split
  · exact .refl _ s
  · next ch _ =>
    split
    · exact .refl _ s
    · exact .refl _ s
    · exact ((s.modChan_sets _ _ ⟨rfl, rfl, rfl, rfl⟩).trans
        (State.modCal_sets _ _ (by cases ch <;> exact ⟨rfl, rfl, rfl⟩))).trans (State.offer_sets _)

theorem State.lotLoad_sets (r : LotLoadReq) : Sets [.defs] s (s.lotLoad r).2 := by
  unfold State.lotLoad
  split
  · exact .refl _ s
  · split
    · exact .refl _ s
    · split
      · split
        · exact .refl _ s
        · exact .of_only (s.modSlot_only _ _) (by decide)
      · exact .refl _ s

theorem State.lotArm_sets (n : Nat) : Sets [] s (s.lotArm n).2 := by
  unfold State.lotArm
  split
  · exact .refl _ s
  · split
    · exact .refl _ s
    · exact .refl _ s
    · exact .refl _ s
    · exact .refl _ s
    · split
      · exact .refl _ s
      · unfold State.armReady
        split
        · exact s.modSlot_sets _ _ rfl
        · exact s.modSlot_sets _ _ rfl

theorem State.lotFree_sets (n : Nat) : Sets [.defs] s (s.lotFree n).2 := by
  unfold State.lotFree
  split
  · exact .refl _ s
  · split
    · exact .of_only (s.modSlot_only _ _) (by decide)
    · exact .of_only (s.modSlot_only _ _) (by decide)
    · split
      · exact s.retire_sets _ _
      · exact .refl _ s
    · exact .refl _ s
    · exact .refl _ s

theorem State.enterRun_sets (target : LineState) : Sets [] s (s.enterRun target) := by
  have h (f : LineCtl → LineCtl) (hf : (f s.line).budgetMs = s.line.budgetMs ∧
      (f s.line).motionLimitMs = s.line.motionLimitMs ∧ (f s.line).stallLimitMs = s.line.stallLimitMs) (c : Prop) [Decidable c] :
      Sets [] s (if c then (s.modLine f).retryHeld else s.modLine f) :=
    .ite ((s.modLine_sets f hf).trans (State.retryHeld_sets _)) (s.modLine_sets f hf)
  have ready (u : State) : Sets [] u u.readyAtRest :=
    .ite ((u.modLine_sets _ ⟨rfl, rfl, rfl⟩).trans (State.judgeLoadOk_sets _)) (.refl _ u)
  exact .ite (h _ ⟨rfl, rfl, rfl⟩ _) ((h _ ⟨rfl, rfl, rfl⟩ _).trans (ready _))

theorem State.lineStart_sets (b m t : Nat) : Sets [.timing] s (s.lineStart b m t).2 := by
  unfold State.lineStart
  split
  · split
    · split
      · exact .refl _ s
      · exact (Sets.of_only (s.modLine_only _) (by decide)).andThen (State.enterRun_sets _ _)
    · exact .refl _ s
  · exact .refl _ s

theorem State.lineStop_sets : Sets [] s s.lineStop.2 := by
  unfold State.lineStop
  split
  · exact s.enterStopping_sets
  · exact s.enterStopping_sets
  all_goals exact .refl _ s

theorem State.lineDrain_sets : Sets [] s s.lineDrain.2 := by
  unfold State.lineDrain
  split
  · exact s.modLine_sets (fun l => { l with state := .drain, loadOk := false }) ⟨rfl, rfl, rfl⟩
  · split
    · exact .refl _ s
    · exact s.enterRun_sets _
  all_goals exact .refl _ s

theorem State.lineResume_sets : Sets [] s s.lineResume.2 := by
  unfold State.lineResume
  split
  · split
    · exact .refl _ s
    · exact s.enterRun_sets _
  · exact .refl _ s

theorem State.lineClear_sets : Sets [] s s.lineClear.2 := by
  unfold State.lineClear
  split
  · exact s.modLine_sets _ ⟨rfl, rfl, rfl⟩
  · split
    · exact (s.modLine_sets (fun l => { l with state := .idle }) ⟨rfl, rfl, rfl⟩).trans (State.modTrack_sets _ _ rfl)
    · exact .refl _ s
  all_goals exact .refl _ s

theorem Chute.lineReset_cfg (l : List Chute) (n : Nat) :
    ((l.map Chute.lineReset).getD n .powerOn).cfg = (l.getD n .powerOn).cfg := by
  simp only [List.getD_eq_getElem?_getD, List.getElem?_map]
  cases l[n]? <;> rfl

/-- LINE.RESET leaves geometry, settings, tables and chute configurations (R48). -/
theorem State.lineReset_sets : Sets [.index, .phase, .defs] s s.lineReset.2 := fun x hx => by
  cases x with
  | index | phase | defs => exact absurd (by decide) hx
  | speed | writing | pins | temp | shared | mask => exact rfl
  | geometry => exact ⟨rfl, rfl, rfl, rfl⟩
  | tables | timing => exact ⟨rfl, rfl, rfl⟩
  | channels => exact fun ch => by cases ch <;> exact ⟨rfl, rfl, rfl, rfl⟩
  | cfg =>
    intro n
    simp only [State.chute]
    split
    · rfl
    · exact Chute.lineReset_cfg _ _

theorem State.pocketPurge_sets (n : Nat) : Sets [.defs] s (s.pocketPurge n).2 := by
  rcases s.pocketPurge_cases n with h | ⟨-, h⟩ <;> rw [h]
  · exact .refl _ s
  · exact .foldl (fun u q => .ite (u.finish_sets q .purged) (.refl _ u)) _ s

theorem State.verdict_sets (n c : Nat) : Sets [] s (s.verdict n c).2 := by
  unfold State.verdict
  split
  · exact .refl _ s
  · split
    · exact .refl _ s
    · split
      · exact s.answerReferral_sets _ _ _ _
      · unfold State.lateVerdict
        dsimp only
        split
        · exact .ite (s.bumpLotOf_sets _ _) (.refl _ s)
        · exact .refl _ s

theorem State.boxExchanged_sets (c : Nat) : Sets [] s (s.boxExchanged c).2 := by
  unfold State.boxExchanged
  split
  · refine s.account_sets _ _ fun e => ?_
    unfold exchanged
    split <;> rfl
  · exact .refl _ s

theorem State.countRead_sets (g i c : Nat) : Sets [] s (s.countRead g i c).2 := by
  have clear (g : Group) : Sets [] s (s.clearGroup g) := by
    cases g with
    | line => exact .of_only (s.modLineCnt_only _) (by decide)
    | lot i => exact s.modSlot_sets _ _ rfl
    | chute c => exact s.modChute_sets _ _ fun _ => rfl
    | chan ch => exact s.modChan_sets _ _ ⟨rfl, rfl, rfl, rfl⟩
    | link => exact .of_only (s.modLinkCnt_only _) (by decide)
  unfold State.countRead
  split
  · exact .refl _ s
  · exact .ite (clear _) (.refl _ s)
  · exact .refl _ s

theorem State.eventMask_sets (m : Nat) : Sets [.mask] s (s.eventMask m).2 := by
  unfold State.eventMask
  split
  · exact .of_only (s.modReport_only _) (by decide)
  · exact .refl _ s

/-- A request's owner writes the pieces named with it and no others. -/
theorem State.owner_sets (r : Request) : Sets (requestWrites r) s (s.owner r).2 := by
  obtain ⟨hident, htrack, hchan, hlot, hpocket, hcal⟩ := s.reads_state
  have same {l : List Setting} {u : State} (h : u = s) : Sets l s u := h ▸ .refl l s
  cases r with
  | ident => exact same hident
  | trackRead => exact same htrack
  | chanRead c => exact same (hchan c)
  | lotRead i => exact same (hlot i)
  | pocketRead q => exact same (hpocket q)
  | calRead => exact same hcal
  | calWrite _ => exact .refl _ s
  | trackSet r => exact s.trackSet_sets r
  | chuteSet c a f => exact s.chuteSet_sets c a f
  | chanSet r => exact s.chanSet_sets r
  | chanReset c => exact s.chanReset_sets c
  | chanRestore c => exact s.chanRestore_sets c
  | lotLoad r => exact s.lotLoad_sets r
  | lotArm i => exact s.lotArm_sets i
  | lotFree i => exact s.lotFree_sets i
  | lineStart b m t => exact s.lineStart_sets b m t
  | lineStop => exact s.lineStop_sets
  | lineDrain => exact s.lineDrain_sets
  | lineResume => exact s.lineResume_sets
  | lineClear => exact s.lineClear_sets
  | lineReset => exact s.lineReset_sets
  | pocketPurge n => exact s.pocketPurge_sets n
  | verdict n c => exact s.verdict_sets n c
  | boxExchanged c => exact s.boxExchanged_sets c
  | tempSet v => exact Sets.of_only (l := [.temp]) (s.modTemp_only _) (by decide)
  | countRead g i c => exact s.countRead_sets g i c
  | eventMask m => exact s.eventMask_sets m

/-! ### The Link Port -/

/-- An update of the Link Port that keeps the line speed. -/
theorem State.modLink_writes (f : Link → Link) (hf : (f s.link).speed = s.link.speed) : Sets [.writing] s (s.modLink f) :=
  fun x hx => by
    by_cases hg : x ∈ heldIn [.link]
    · fin_cases hg
      · exact hf
      · exact absurd (by decide) hx
    · exact Sets.of_only (s.modLink_only f) (fun _ => id) x hg

theorem State.place_sets (f : Frame) : Sets [] s (s.place f) := s.modReport_sets _ rfl

theorem State.setReceiver_sets (r : LinkReceiver) : Sets [] s (s.setReceiver r) := s.modLink_sets _ rfl rfl

theorem State.countBadFrame_sets : Sets [] s s.countBadFrame := .of_only (s.modLinkCnt_only _) (by decide)

theorem State.giveUp_sets : Sets [] s s.giveUp := (s.setReceiver_sets _).trans (State.countBadFrame_sets _)

theorem State.bufferFrame_sets (f : Frame) : Sets [] s (s.bufferFrame f) :=
  .ite (s.modLink_sets _ rfl rfl) (.of_only (s.modLinkCnt_only _) (by decide))

theorem State.linkByte_sets (b : LinkByte) : Sets [] s (s.linkByte b) := by
  unfold State.linkByte
  split
  · exact .ite (Sets.trans (.ite s.countBadFrame_sets (.refl _ s)) (State.setReceiver_sets _ _)) (s.setReceiver_sets _)
  · refine .ite ?_ s.giveUp_sets
    split
    · exact s.setReceiver_sets _
    · exact s.giveUp_sets
    · exact (s.setReceiver_sets _).trans (State.bufferFrame_sets _ _)

theorem State.calWrite_sets (tag : Byte) (ps : List CalPair) : Sets [.tables, .writing] s (s.calWrite tag ps).2 := by
  have h : Sets [.tables, .writing] s ((s.modCal fun c => { c with stored := { c.stored with check := none } }).modLink
      fun l => { l with inProgress := some ⟨tag, ps, calWriteLimit⟩ }) :=
    (Sets.of_only (s.modCal_only _) (by decide)).trans ((State.modLink_writes _ _ rfl).mono (by decide))
  unfold State.calWrite
  split
  · split
    · split
      · exact .refl _ s
      · exact h
    · exact .refl _ s
  · exact .refl _ s

theorem State.replyIf_sets (tag : Byte) (r : Request) (a : Option Answer × State) :
    Sets [] a.2 (State.replyIf tag r a) := by
  unfold State.replyIf
  split
  · exact a.2.place_sets _
  · exact .refl _ _

/-- The completion of a write in flight installs its table and ends it (R158). -/
theorem State.completeWrite_sets (w : CalWriting) : Sets [.tables, .writing] s (s.completeWrite w) :=
  ((Sets.of_only (s.modCal_only _) (by decide)).trans ((State.modLink_writes _ _ rfl).mono (by decide))).andThen
    (State.place_sets _ _)

theorem State.ask_sets (tag : Byte) (r : Request) : Sets (requestWrites r) s (s.ask tag r (State.owner r)) :=
  .ite ((s.owner_sets r).andThen (State.place_sets _ _))
    (Sets.any (s.bufferFrame_sets _))

end

/-- Every piece but the line speed, which no request writes. -/
def Setting.requested : List Setting :=
  [.writing, .pins, .geometry, .index, .phase, .tables, .temp, .shared, .channels, .mask, .cfg, .defs, .timing]

theorem requestWrites_requested (r : Request) : ∀ x ∈ requestWrites r, x ∈ Setting.requested := by
  cases r <;> simp [requestWrites, Setting.requested]

/-- A request taken from the buffer may write any piece but the line speed. -/
theorem State.takeFrameOf_sets (s : State) (b : Bool) : Sets Setting.requested s (s.takeFrameOf b) := by
  have sampled (u : State) : Sets Setting.requested u (u.sampleCalen b) := .of_only (u.modPins_only _) (by decide)
  have judged (u : State) (f : Frame) : Sets Setting.requested u (u.judgeFrame f) := by
    have unknown : Sets [] u u.countUnknown := .of_only (u.modLinkCnt_only _) (by decide)
    unfold State.judgeFrame
    split
    · exact unknown.mono (by decide)
    · exact (unknown.trans (State.place_sets _ _)).mono (by decide)
    · exact (u.place_sets _).mono (by decide)
    · unfold State.handle
      split
      · exact ((u.calWrite_sets _ _).andThen (State.replyIf_sets _ _ _)).mono (by decide)
      · exact ((u.owner_sets _).andThen (State.place_sets _ _)).mono (requestWrites_requested _)
  unfold State.takeFrameOf
  split
  · exact .refl _ s
  · exact ((sampled s).andThen (State.modLink_sets _ _ rfl rfl)).trans (judged _ _)

/-! ### Every command -/

/-- The pieces that a command may write. -/
def commandWrites : Instr → List Setting
  | .powerOnReset _ _ _ => Setting.all
  | .requestTaken _ => Setting.requested
  | .indexStart _ _ => [.pins, .index, .phase, .defs]
  | .settle => [.pins]
  | .stalenessExpiry => [.temp]
  | .calWriteCompletion => [.tables, .writing]
  | .trackSet _ _ => [.geometry, .phase, .cfg]
  | .chuteConfigure _ _ _ | .chuteRemove _ _ => [.cfg]
  | .chanSet _ _ => [.shared, .channels]
  | .lotLoad _ _ | .lotFree _ _ | .pocketPurge _ _ => [.defs]
  | .lineStart _ _ _ _ => [.timing]
  | .lineReset _ => [.index, .phase, .defs]
  | .tempSet _ _ => [.temp]
  | .calWrite _ _ _ => [.pins, .tables, .writing]
  | .eventMask _ _ => [.mask]
  | _ => []

/-- A command that carries a request may write what the request may. -/
theorem requestWrites_commandWrites {c : Instr} {tag : Byte} {r : Request} (h : c.request = some (tag, r)) :
    ∀ x ∈ requestWrites r, x ∈ commandWrites c := by
  cases c <;> simp only [Instr.request, Option.some.injEq, Prod.mk.injEq, reduceCtorEq] at h <;>
    (obtain ⟨-, rfl⟩ := h; simp [requestWrites, commandWrites])

/-- The rows of the requests. -/
theorem exec_request_sets {c : Instr} {s t : State} {tag : Byte} {r : Request} (hr : c.request = some (tag, r))
    (he : exec c s = .next t) : Sets (commandWrites c) s t := by
  obtain hcommon | ⟨ps, b, rfl⟩ | ⟨m, rfl⟩ := request_cases hr
  · rw [exec_common hr hcommon] at he
    obtain rfl := Host.Outcome.next.inj he
    exact ((s.ask_sets tag r).andThen (State.transmit_sets _)).mono (requestWrites_commandWrites hr)
  · obtain rfl := Host.Outcome.next.inj he
    have sampled : Sets [.pins, .tables, .writing] s (s.sampleCalen b) := .of_only (s.modPins_only _) (by decide)
    exact .ite (((sampled.trans ((State.calWrite_sets _ tag ps).mono (by decide))).andThen (State.replyIf_sets _ _ _)).andThen
      (State.transmit_sets _)) (Sets.any ((s.bufferFrame_sets _).trans (State.transmit_sets _)))
  · obtain rfl := Host.Outcome.next.inj he
    exact (s.ask_sets tag (.eventMask m)).andThen (State.transmitTop_sets _)

/-- Every command writes the pieces named with it and no others. -/
theorem exec_sets {c : Instr} {s t : State} (he : exec c s = .next t) : Sets (commandWrites c) s t := by
  cases hr : c.request with
  | some x => exact exec_request_sets hr he
  | none =>
    have offered {l : List Setting} {u : State} (h : Sets l s u) : Sets l s u.transmit := h.andThen u.transmit_sets
    cases c <;> simp only [Instr.request, reduceCtorEq] at hr
    all_goals obtain rfl := Host.Outcome.next.inj he
    case powerOnReset m a b => exact fun x hx => absurd x.mem_all hx
    case indexStart ls cs => exact .ite (offered (.refl _ s)) (offered (s.indexStart_sets ls cs))
    case requestTaken b =>
      exact .ite (.ite ((s.takeFrameOf_sets b).andThen (State.transmitTop_sets _)) (offered (s.takeFrameOf_sets b)))
        (offered (.refl _ s))
    case settle => exact .ite (offered s.settle_sets) (offered (.refl _ s))
    case frameTaken ch symbols => exact offered (.foldl (fun u y => u.linkSymbol_sets ch y) symbols s)
    case watchdogExpiry ch =>
      exact .ite (offered (((s.modChan_sets _ _ ⟨rfl, rfl, rfl, rfl⟩).trans (State.raise_sets _ _ _)).trans
        (State.stallJob_sets _ _))) (offered (.refl _ s))
    case relaySettleExpiry ch =>
      exact .ite (offered (s.modChan_sets _ _ (Channel.enterSettle_settings _ _ _ _))) (offered (.refl _ s))
    case dwellBudgetExpiry =>
      exact .ite (offered (((s.modLine_sets _ ⟨rfl, rfl, rfl⟩).trans (State.cutDwell_sets _)).trans
        (State.judgeDwell_sets _))) (offered (.refl _ s))
    case motionTimerExpiry =>
      exact .ite (offered ((s.modLine_sets _ ⟨rfl, rfl, rfl⟩).trans (State.raiseFault_sets _ _ _))) (offered (.refl _ s))
    case stallTimerExpiry =>
      exact .ite (offered (((s.modLine_sets _ ⟨rfl, rfl, rfl⟩).trans (State.raise_sets _ _ _)).trans
        (.of_only (State.modLineCnt_only _ _) (by decide)))) (offered (.refl _ s))
    case jetCompletion c =>
      exact .ite (offered ((s.modChute_sets c (fun e => { e with jet := none }) fun _ => rfl).trans
        (State.judgeDwell_sets _))) (offered (.refl _ s))
    case stalenessExpiry =>
      exact .ite (offered ((Sets.of_only (s.modTemp_only _) (by decide)).andThen (State.raise_sets _ _ _))) (offered (.refl _ s))
    case linkFrameReceived bytes => exact offered (.foldl State.linkByte_sets bytes s)
    case gapExpiry =>
      split
      · exact offered s.giveUp_sets
      · exact offered (.refl _ s)
    case huntingPause =>
      split
      · exact offered s.giveUp_sets
      · exact offered (.refl _ s)
      · exact offered (.refl _ s)
    case transmitEnd => exact s.frameSent_sets
    case calWriteCompletion =>
      split
      · exact offered (s.completeWrite_sets _)
      · exact offered (.refl _ s)

/-- Settles O3: each piece is read off the table of what each command writes. -/
theorem onlyTheirCommandsWrite : Obligations.OnlyTheirCommandsWrite := by
  unfold Obligations.OnlyTheirCommandsWrite
  intro c s t he
  have h := exec_sets he
  refine ⟨?speed, ?pins, ?geometry, ?index, ?phase, ?tables, ?temp, ?channels, ?mask, ?cfg, ?defs, ?timing⟩
  case speed => cases c <;> first | exact trivial | exact h .speed (by simp [commandWrites, Setting.requested])
  case pins => cases c <;> first | exact trivial | exact h .pins (by simp [commandWrites])
  case geometry => cases c <;> first | exact trivial | exact h .geometry (by simp [commandWrites])
  case index => cases c <;> first | exact trivial | exact h .index (by simp [commandWrites])
  case phase => cases c <;> first | exact trivial | exact h .phase (by simp [commandWrites])
  case tables =>
    have both (ht : .tables ∉ commandWrites c) (hw : .writing ∉ commandWrites c) :
        t.cal.stored = s.cal.stored ∧ t.cal.working = s.cal.working ∧ t.cal.valid = s.cal.valid ∧
          t.link.inProgress = s.link.inProgress := by
      obtain ⟨hs, hwork, hv⟩ := h .tables ht
      exact ⟨hs, hwork, hv, h .writing hw⟩
    cases c <;> first | exact trivial | exact both (by simp [commandWrites]) (by simp [commandWrites])
  case temp => cases c <;> first | exact trivial | exact h .temp (by simp [commandWrites])
  case channels =>
    cases c <;> first | exact trivial | exact ⟨h .shared (by simp [commandWrites]), h .channels (by simp [commandWrites])⟩
  case mask => cases c <;> first | exact trivial | exact h .mask (by simp [commandWrites])
  case cfg => cases c <;> first | exact trivial | exact h .cfg (by simp [commandWrites])
  case defs => cases c <;> first | exact trivial | exact h .defs (by simp [commandWrites])
  case timing => cases c <;> first | exact trivial | exact h .timing (by simp [commandWrites])

end Sys2Proof.Machine
end


-- ==== Sys2Proof/Proofs/Events.lean ====
section
/-! PROOFS. The event pending table: what a raise makes of an entry, what leaves it alone, and what the transmitter takes
from it (R179, R184, R185). -/

namespace Sys2Proof.Machine

/-! ### A kind's place in the table (R184) -/

theorem EventKind.all_priority (k : EventKind) : EventKind.all[k.priority - 1]? = some k := by cases k <;> rfl

theorem EventKind.priority_ne {j k : EventKind} (h : j ≠ k) : j.priority - 1 ≠ k.priority - 1 := fun hp =>
  h (Option.some.inj (by rw [← j.all_priority, hp, k.all_priority]))

theorem EventKind.priority_lt (k : EventKind) : k.priority - 1 < 14 :=
  (List.getElem?_eq_some_iff.mp k.all_priority).1

/-! ### Raises (R184) -/

theorem State.raise_event_same {s : State} (h : s.report.events.length = 14) (k : EventKind) (d : Detail) :
    (s.raise k d).report.event k = raisedEntry d s.track.k (s.report.event k) := by
  have hk : k.priority - 1 < s.report.events.length := by rw [h]; exact k.priority_lt
  simp [State.raise, Report.event, hk]

theorem State.raise_event_ne {j k : EventKind} (h : j ≠ k) (s : State) (d : Detail) :
    (s.raise j d).report.event k = s.report.event k := by
  simp [State.raise, Report.event, EventKind.priority_ne h]

/-- A kind's entry, the mask, the transmitter and the table's length stand. -/
structure KeepsEvent (k : EventKind) (s t : State) : Prop where
  event : t.report.event k = s.report.event k
  mask : t.report.mask = s.report.mask
  tx : t.report.tx = s.report.tx
  length : t.report.events.length = s.report.events.length

theorem KeepsEvent.refl (k : EventKind) (s : State) : KeepsEvent k s s := ⟨rfl, rfl, rfl, rfl⟩

theorem KeepsEvent.trans {k : EventKind} {s t u : State} (h : KeepsEvent k s t) (h' : KeepsEvent k t u) : KeepsEvent k s u :=
  ⟨h'.event.trans h.event, h'.mask.trans h.mask, h'.tx.trans h.tx, h'.length.trans h.length⟩

theorem KeepsEvent.of_report {s t : State} (h : t.report = s.report) (k : EventKind) : KeepsEvent k s t := by
  constructor <;> rw [h]

/-- An update of the queues alone. -/
theorem KeepsEvent.of_queues {s t : State} {f : Report → Report} (h : t.report = f s.report)
    (hf : ∀ r, (f r).events = r.events ∧ (f r).mask = r.mask ∧ (f r).tx = r.tx) (k : EventKind) : KeepsEvent k s t := by
  obtain ⟨he, hm, hx⟩ := hf s.report
  exact ⟨by rw [Report.event, Report.event, h, he], by rw [h, hm], by rw [h, hx], by rw [h, he]⟩

theorem KeepsEvent.raise {j k : EventKind} (h : j ≠ k) (s : State) (d : Detail) : KeepsEvent k s (s.raise j d) :=
  ⟨State.raise_event_ne h s d, rfl, rfl, List.length_modify ..⟩

/-! ### Accounts and finishes raise a chute's events alone (R137) -/

theorem State.account_keeps {k : EventKind} (hf : k ≠ .chuteFull) (hn : k ≠ .chuteNear) (s : State) (c : Nat)
    (f : Chute → Chute) : KeepsEvent k s (s.account c f) := by
  have hmod : KeepsEvent k s (s.modChute c f) := .of_report (s.modChute_report c f) k
  have raised {x y : ChuteState} {j : EventKind} (h : chuteEvent x y = some j) : j ≠ k := by
    unfold chuteEvent at h
    split at h
    · rw [← Option.some.inj h]; exact hf.symm
    · split at h
      · rw [← Option.some.inj h]; exact hn.symm
      · contradiction
  unfold State.account
  dsimp only
  split
  · next h => exact hmod.trans (.raise (raised h) _ _)
  · exact hmod

theorem State.settleAccounts_keeps {k : EventKind} (hf : k ≠ .chuteFull) (hn : k ≠ .chuteNear) (s : State) (q : Nat) :
    KeepsEvent k s (s.settleAccounts q) := by
  unfold State.settleAccounts
  split
  · exact .refl k s
  · split
    case h_1 | h_2 => exact State.account_keeps hf hn _ _ _
    all_goals exact .refl k s

theorem State.handPart_keeps (k : EventKind) (s : State) (r : PartRecord) : KeepsEvent k s (s.handPart r) := by
  unfold State.handPart
  split
  · exact .of_queues (s := s) (f := fun q => { q with part := q.part ++ [{ r with dropped := q.dropped }], dropped := 0 })
      rfl (fun _ => ⟨rfl, rfl, rfl⟩) k
  · exact .of_queues (s := s) (f := fun q => { q with dropped := satInc 65535 q.dropped }) rfl (fun _ => ⟨rfl, rfl, rfl⟩) k

theorem State.handLotEnd_keeps (k : EventKind) (s : State) (r : LotEnd) : KeepsEvent k s (s.handLotEnd r) := by
  unfold State.handLotEnd
  split
  · exact .of_queues (s := s) (f := fun q => { q with lotEnd := q.lotEnd ++ [r] }) rfl (fun _ => ⟨rfl, rfl, rfl⟩) k
  · exact .of_queues (s := s) (f := fun q => { q with lotEnd := q.lotEnd.drop 1 ++ [r] }) rfl (fun _ => ⟨rfl, rfl, rfl⟩) k

theorem State.retire_keeps (k : EventKind) (s : State) (i : SlotId) (e : LotEnding) : KeepsEvent k s (s.retire i e) := by
  unfold State.retire
  refine KeepsEvent.trans ?_ (.of_report (State.modSlot_report _ _ _) k)
  split
  · exact s.handLotEnd_keeps k _
  · exact .refl k s

theorem State.dropResidentOf_keeps (k : EventKind) (s : State) (i : Option SlotId) : KeepsEvent k s (s.dropResidentOf i) := by
  unfold State.dropResidentOf
  split
  · have hmod (j : SlotId) : KeepsEvent k s (s.modSlot j fun sl => { sl with resident := sl.resident - 1 }) :=
      .of_report (s.modSlot_report _ _) k
    unfold State.dropResident
    dsimp only
    split
    · exact (hmod _).trans (State.retire_keeps k _ _ _)
    · exact hmod _
  · exact .refl k s

theorem State.clearLive_keeps (k : EventKind) (s : State) (q : Nat) (n : Option Nat) : KeepsEvent k s (s.clearLive q n) :=
  ⟨rfl, rfl, rfl, rfl⟩

theorem State.finish_keeps {k : EventKind} (hf : k ≠ .chuteFull) (hn : k ≠ .chuteNear) (s : State) (q : Nat) (o : Finish) :
    KeepsEvent k s (s.finish q o) := by
  have h : KeepsEvent k s ((((s.settleAccounts q).handPart ((s.settleAccounts q).partOf q o)).dropResidentOf
      (s.pocket q).slot).modLineCnt (countFinish o)) :=
    (((State.settleAccounts_keeps hf hn s q).trans (State.handPart_keeps k _ _)).trans
      (State.dropResidentOf_keeps k _ _)).trans (.of_report (State.modLineCnt_report _ _) k)
  have hempty := h.trans (.of_report (State.modPocket_report _ q fun _ => .emptied) k)
  unfold State.finish
  dsimp only
  split
  · exact hempty.trans (State.clearLive_keeps k _ _ _)
  · exact hempty

/-! ### The transmitter (R179, R185) -/

theorem Report.mem_waiting {r : Report} {j : EventKind} (h : .event j ∈ r.waiting) : r.takeable j = true := by
  unfold Report.waiting at h
  simp only [List.mem_append, List.mem_map, List.mem_filter] at h
  rcases h with (((h | h) | ⟨k, ⟨-, hk⟩, hj⟩) | h) | h
  case inl.inl.inr => rw [← Msg.event.inj hj]; exact hk
  all_goals split at h <;> simp at h

/-- A message other than the kind's own entry leaves the entry. -/
theorem Report.take_event {r : Report} {m : Msg} {k : EventKind} (h : m ≠ .event k) : (r.take m).event k = r.event k := by
  unfold Report.take
  split
  case h_3 j =>
    have hj : j.priority - 1 ≠ k.priority - 1 := EventKind.priority_ne fun hjk => h (by rw [hjk])
    split
    · rfl
    · simp [Report.event, hj]
  case h_1 => rfl
  all_goals split <;> rfl

/-- The transmitter takes nothing, or one of the messages that wait. -/
theorem State.transmit_cases (s : State) : s.transmit.report = s.report ∨
    (s.report.tx = none ∧ ∃ m ∈ s.report.waiting, s.transmit.report = s.report.take m) := by
  unfold State.transmit State.takeFrom
  split
  · exact .inl rfl
  · next hx =>
    split
    · exact .inl rfl
    · next m h => exact .inr ⟨hx, m, by rw [h]; exact .head _, rfl⟩
    · next ms hnil hone =>
      have hlt : s.freeIndex s.report.waiting.length < s.report.waiting.length :=
        Nat.mod_lt _ (List.length_pos_iff.mpr hnil)
      refine .inr ⟨hx, s.report.waiting.getD (s.freeIndex s.report.waiting.length) .reply, ?_, rfl⟩
      rw [List.getD_eq_getElem?_getD, List.getElem?_eq_getElem hlt]
      exact List.getElem_mem hlt

/-- An entry that cannot be sent at once stays pending (R179, R185). -/
theorem State.transmit_event {s : State} {k : EventKind} (h : s.report.tx ≠ none ∨ s.report.masked k = true) :
    s.transmit.report.event k = s.report.event k := by
  rcases s.transmit_cases with ht | ⟨hx, m, hm, ht⟩ <;> rw [ht]
  refine Report.take_event ?_
  rintro rfl
  have htake := Report.mem_waiting hm
  simp only [Report.takeable, Bool.and_eq_true, Bool.not_eq_true'] at htake
  rcases h with h | h
  · exact h hx
  · rw [htake.2] at h; contradiction

/-- A raise amid steps that keep the kind's entry, then the transmitter's judgement (R184). -/
theorem State.notes_of_raise {s u t : State} {k : EventKind} {d : Detail} (hu : KeepsEvent k s u) (hk : u.track.k = s.track.k)
    (ht : KeepsEvent k (u.raise k d) t) : s.notes t.transmit k d := by
  intro hlen hsend
  have hwait : t.report.tx ≠ none ∨ t.report.masked k = true := by
    rw [Report.masked, ht.mask, ht.tx]
    exact hsend.imp (fun h => (hu.tx : (u.raise k d).report.tx = _) ▸ h) fun h => by
      rwa [show (u.raise k d).report.mask = s.report.mask from hu.mask]
  have hevent : t.transmit.report.event k = raisedEntry d s.track.k (s.report.event k) := by
    rw [State.transmit_event hwait, ht.event, State.raise_event_same (hu.length.trans hlen), hk, hu.event]
  rw [hevent]
  exact ⟨fun h => by rw [h]; rfl, fun e h => by rw [h]; rfl⟩

/-- An entry kept, where it cannot be sent at once. -/
theorem KeepsEvent.transmit {s t : State} {k : EventKind} (h : KeepsEvent k s t)
    (hsend : s.report.tx ≠ none ∨ s.report.masked k = true) : t.transmit.report.event k = s.report.event k := by
  rw [State.transmit_event (by rwa [Report.masked, h.mask, h.tx]), h.event]

end Sys2Proof.Machine
end


-- ==== Sys2Proof/Proofs/CutShort.lean ====
section
/-! PROOFS. What an index start does before the Track Unit's work: the line's own work (R31, R32), the jobs and requests cut
(R71, R86), the jets cut (R147); and the index start of a dwell whose work is done (R34). -/

namespace Sys2Proof.Machine

/-! ### Jobs that end CUT (R71, R82) -/

/-- What the end of a job as CUT counts at its channel (R82, R164). -/
def countCut (k : Option JobKind) (c : ChanCounters) : ChanCounters :=
  match k with
  | none => c
  | some (.station _ _ _) => { c with cut := bump c.cut }
  | some .check => { c with checks := bump c.checks }

theorem State.abortJob_cut_cnt (s : State) (ch : Chan) :
    ((s.abortJob ch .cut).chan ch).cnt = countCut ((s.chan ch).job.map Job.kind) (s.chan ch).cnt := by
  unfold State.abortJob
  split
  · next h => rw [h]; rfl
  · next j h =>
    rw [h]
    dsimp only
    split
    all_goals
      next hk =>
      rw [Option.map_some, hk]
      cases ch <;> rfl

/-- Of each channel, the job's end is counted at the channel itself alone. -/
theorem State.cutDwell_cnt (s : State) (ch : Chan) :
    (s.cutDwell.chan ch).cnt = countCut ((s.chan ch).job.map Job.kind) (s.chan ch).cnt := by
  unfold State.cutDwell
  cases ch with
  | A =>
    have hA := State.abortJob_chan_other (s.emptyRequests.abortJob .A .cut) .B .cut
    exact (congrArg Channel.cnt hA).trans (State.abortJob_cut_cnt s.emptyRequests .A)
  | B =>
    have hB : (s.emptyRequests.abortJob .A .cut).chan .B = s.chan .B := State.abortJob_chan_other _ .A .cut
    rw [State.abortJob_cut_cnt, hB]

/-! ### The attempt of a job cut short (R82) -/

/-- A channel's job names pocket q. -/
def Channel.names (c : Channel) (q : Nat) : Prop := ∃ j ∈ c.job, ∃ i g, j.kind = .station i q g

theorem State.abortJob_pocket_unnamed {s : State} {ch : Chan} {q : Nat} (h : ¬(s.chan ch).names q) (o : JobOutcome) :
    (s.abortJob ch o).pocket q = s.pocket q := by
  unfold State.abortJob
  split
  · rfl
  · next j hj =>
    have hend : (s.endJob ch).pocket q = s.pocket q := State.pocket_congr (s.endJob_track ch) q
    dsimp only
    split
    · next i x g hk =>
      have hx : q ≠ x := fun hqx => h ⟨j, hj, i, g, by rw [hk, hqx]⟩
      rw [State.recordAttempt, State.pocket_congr (State.modChan_track _ _ _), State.modPocket_ne hx, hend]
    · rw [State.pocket_congr (State.modChan_track _ _ _), hend]

theorem State.abortJob_pocket_named {s : State} {ch : Chan} {j : Job} {i q g : Nat} (hj : (s.chan ch).job = some j)
    (hk : j.kind = .station i q g) (hq : q < s.track.pockets.length) :
    (s.abortJob ch .cut).pocket q =
      { s.pocket q with attempts := (s.pocket q).attempts ++ [⟨i, ch, g, .cut, none, none⟩] } := by
  have hend : (s.endJob ch).pocket q = s.pocket q := State.pocket_congr (s.endJob_track ch) q
  unfold State.abortJob
  rw [hj]
  dsimp only
  rw [hk]
  dsimp only
  rw [State.recordAttempt, State.pocket_congr (State.modChan_track _ _ _),
    State.modPocket_same (by rw [State.endJob_track]; exact hq), hend]
  rfl

theorem State.abortJob_length (s : State) (ch : Chan) (o : JobOutcome) :
    (s.abortJob ch o).track.pockets.length = s.track.pockets.length := by
  unfold State.abortJob
  split
  · rfl
  · dsimp only
    split
    · rw [State.recordAttempt, State.modChan_track, State.modPocket_length, State.endJob_track]
    · rw [State.modChan_track, State.endJob_track]

/-- The one job that names a pocket leaves its attempt there. -/
theorem State.cutDwell_pocket_named {s : State} {ch : Chan} {j : Job} {i q g : Nat} (hj : (s.chan ch).job = some j)
    (hk : j.kind = .station i q g) (hq : q < s.track.pockets.length) (hother : ¬(s.chan (chanOther ch)).names q) :
    s.cutDwell.pocket q =
      { s.pocket q with attempts := (s.pocket q).attempts ++ [⟨i, ch, g, .cut, none, none⟩] } := by
  have hchan : (s.emptyRequests.abortJob .A .cut).chan .B = s.chan .B := State.abortJob_chan_other _ .A .cut
  cases ch with
  | A =>
    have hB : ¬((s.emptyRequests.abortJob .A .cut).chan .B).names q := by rw [hchan]; exact hother
    exact (State.abortJob_pocket_unnamed hB .cut).trans (State.abortJob_pocket_named (s := s.emptyRequests) hj hk hq)
  | B =>
    have hA : ¬(s.emptyRequests.chan .A).names q := hother
    have hlen : q < (s.emptyRequests.abortJob .A .cut).track.pockets.length := by rw [State.abortJob_length]; exact hq
    rw [State.cutDwell, State.abortJob_pocket_named (by rw [hchan]; exact hj) hk hlen, State.abortJob_pocket_unnamed hA]
    rfl

/-! ### Jets cut (R147) -/

/-- Every jet is OFF. -/
def State.jetsOff (s : State) : Prop := ∀ e ∈ s.chutes, e.jet = none

theorem State.cutJets_jetsOff (s : State) : s.cutJets.jetsOff := by
  simp [State.jetsOff, State.cutJets]

theorem State.jetsOff_iff (s : State) : s.jetsOff ↔ s.pulsingCount = 0 := by
  simp [State.jetsOff, State.pulsingCount, Chute.pulsing]

/-- With every jet OFF there is none to cut, and none is counted. -/
theorem State.cutJets_off {s : State} (h : s.jetsOff) :
    s.cutJets = s.modLineCnt fun c => { c with jetCuts := min counterTop c.jetCuts } := by
  have hmap : (s.chutes.map fun e => { e with jet := none }) = s.chutes := by
    refine (List.map_congr_left fun e he => ?_).trans (List.map_id _)
    rw [← h e he]; rfl
  have hzero := (s.jetsOff_iff).mp h
  simp only [State.cutJets, State.modChutes, State.modLineCnt, hmap, hzero, bumpBy, Nat.add_zero]

/-! ### The line's work at an index start (R31, R32) -/

theorem State.indexLineWork_line (s : State) (ls cs : Bool) : (s.indexLineWork ls cs).line = indexLine s.line := by
  unfold State.indexLineWork
  dsimp only
  split <;> rfl

theorem State.indexLineWork_motion (s : State) (ls cs : Bool) : (s.indexLineWork ls cs).pins.motion = true := by
  have h : (Pins.sampled (s.track.p == 0) ls cs s.pins).motion = true := by
    unfold Pins.sampled
    split <;> rfl
  unfold State.indexLineWork
  dsimp only
  split <;> exact h

/-- The counters of an index start, an unpermitted one counted too. -/
def LineCounters.indexed (l : LineCtl) (c : LineCounters) : LineCounters :=
  { c with indexStarts := bump c.indexStarts, unpermitted := if l.unpermitted then bump c.unpermitted else c.unpermitted }

theorem State.indexLineWork_lineCnt (s : State) (ls cs : Bool) :
    (s.indexLineWork ls cs).lineCnt = s.lineCnt.indexed s.line := by
  unfold State.indexLineWork LineCounters.indexed
  dsimp only
  split <;> rfl

/-- The report of an index start before the track's work: an unpermitted index is raised. -/
theorem State.indexLineWork_report (s : State) (ls cs : Bool) : (s.indexLineWork ls cs).report =
    if s.line.unpermitted then (s.raise .unpermittedIndex .none).report else s.report := by
  unfold State.indexLineWork
  dsimp only
  split <;> rfl

/-! ### All that is cut short -/

theorem State.cutShort_only (s : State) (ls cs : Bool) :
    Only [.pins, .track, .line, .lineCnt, .chanA, .chanB, .sched, .chutes, .report] s (s.cutShort ls cs) :=
  (((s.indexLineWork_only ls cs).mono (by decide)).trans ((State.cutDwell_only _).mono (by decide))).trans
    ((State.cutJets_only _).mono (by decide))

theorem State.cutShort_line (s : State) (ls cs : Bool) : (s.cutShort ls cs).line = indexLine s.line :=
  (State.cutJets_only _ .line (by decide)).trans
    ((State.cutDwell_only _ .line (by decide)).trans (s.indexLineWork_line ls cs))

theorem State.cutShort_motion (s : State) (ls cs : Bool) : (s.cutShort ls cs).pins.motion = true := by
  rw [show (s.cutShort ls cs).pins = (s.indexLineWork ls cs).pins from
    (State.cutJets_only _ .pins (by decide)).trans (State.cutDwell_only _ .pins (by decide)), State.indexLineWork_motion]

theorem State.cutShort_lineCnt (s : State) (ls cs : Bool) : (s.cutShort ls cs).lineCnt =
    { s.lineCnt.indexed s.line with jetCuts := min counterTop (s.lineCnt.jetCuts + s.pulsingCount) } := by
  have hcnt : ((s.indexLineWork ls cs).cutDwell).lineCnt = s.lineCnt.indexed s.line :=
    (State.cutDwell_only _ .lineCnt (by decide)).trans (s.indexLineWork_lineCnt ls cs)
  have hjets : ((s.indexLineWork ls cs).cutDwell).pulsingCount = s.pulsingCount := by
    rw [State.pulsingCount, show ((s.indexLineWork ls cs).cutDwell).chutes = s.chutes from
      (State.cutDwell_only _ .chutes (by decide)).trans (s.indexLineWork_only ls cs .chutes (by decide))]
    rfl
  rw [State.cutShort, State.cutJets, State.modChutes_lineCnt, State.modLineCnt_lineCnt, hcnt, hjets]
  rfl

theorem State.cutShort_report (s : State) (ls cs : Bool) : (s.cutShort ls cs).report =
    if s.line.unpermitted then (s.raise .unpermittedIndex .none).report else s.report :=
  (State.cutJets_only _ .report (by decide)).trans
    ((State.cutDwell_only _ .report (by decide)).trans (s.indexLineWork_report ls cs))

theorem State.cutShort_keeps {k : EventKind} (h : k ≠ .unpermittedIndex) (s : State) (ls cs : Bool) :
    KeepsEvent k s (s.cutShort ls cs) := by
  have hreport := s.cutShort_report ls cs
  split at hreport
  · exact (KeepsEvent.raise h.symm s .none).trans (.of_report hreport k)
  · exact .of_report hreport k

theorem State.cutShort_chan_cnt (s : State) (ls cs : Bool) (ch : Chan) :
    ((s.cutShort ls cs).chan ch).cnt = countCut ((s.chan ch).job.map Job.kind) (s.chan ch).cnt := by
  have hline (ch : Chan) : (s.indexLineWork ls cs).chan ch = s.chan ch :=
    State.chan_congr (s.indexLineWork_only ls cs .chanA (by decide)) (s.indexLineWork_only ls cs .chanB (by decide)) ch
  rw [State.chan_congr (t := s.cutShort ls cs) (State.cutJets_only _ .chanA (by decide))
    (State.cutJets_only _ .chanB (by decide)), State.cutDwell_cnt, hline]

/-! ### An index start with the dwell work done (R34) -/

theorem State.dwellDone_iff (s : State) : s.dwellDone = true ↔ s.jetsOff ∧ s.atRest := by
  simp [State.dwellDone, State.jetsOff_iff, State.jobRunning, State.atRest, and_assoc]

/-- With the dwell work done nothing is cut: the line's work alone. -/
theorem State.cutShort_quiet {s : State} (h : s.dwellDone = true) (ls cs : Bool) :
    Only [.pins, .line, .lineCnt, .report] s (s.cutShort ls cs) := by
  obtain ⟨hjets, hrest⟩ := (s.dwellDone_iff).mp h
  have honly := s.indexLineWork_only ls cs
  have hjets' : (s.indexLineWork ls cs).jetsOff := by
    rw [State.jetsOff, show (s.indexLineWork ls cs).chutes = s.chutes from honly .chutes (by decide)]; exact hjets
  rw [State.cutShort, State.cutDwell_atRest (hrest.of_only honly (by decide)), State.cutJets_off hjets']
  exact honly.trans ((State.modLineCnt_only _ _).mono (by decide))

theorem DwellInv.waiting {s : State} (h : DwellInv s) (hw : s.line.phase = .waiting) : s.dwellDone = true :=
  h.1 (by rw [hw]; decide)

end Sys2Proof.Machine
end


-- ==== Sys2Proof/Proofs/Finishes.lean ====
section
/-! PROOFS. A finish (R22) block by block: the PART record handed over (R183), the slot that loses a resident (R108, R113), the
counters, and the chute's account (R149). -/

namespace Sys2Proof.Machine

/-! ### The PART record handed over (R183) -/

theorem State.handPart_room {s : State} (h : s.report.part.length < 64) (r : PartRecord) : s.handPart r =
    s.modReport fun q => { q with part := q.part ++ [{ r with dropped := q.dropped }], dropped := 0 } := if_pos h

theorem State.handPart_part_length {s : State} (h : s.report.part.length ≤ 64) (r : PartRecord) :
    (s.handPart r).report.part.length = min 64 (s.report.part.length + 1) := by
  unfold State.handPart
  split
  · next hlt =>
    simp only [State.modReport_report, List.length_append, List.length_singleton]
    omega
  · simp only [State.modLineCnt_report, State.modReport_report]
    omega

/-- A queue report touches one counter, its dropped one. -/
theorem State.handPart_lineCnt (s : State) (r : PartRecord) :
    ∃ n, (s.handPart r).lineCnt = { s.lineCnt with droppedPart := n } := by
  unfold State.handPart
  split
  · exact ⟨_, rfl⟩
  · exact ⟨_, rfl⟩

theorem State.handLotEnd_lineCnt (s : State) (r : LotEnd) :
    ∃ n, (s.handLotEnd r).lineCnt = { s.lineCnt with droppedLotEnd := n } := by
  unfold State.handLotEnd
  split
  · exact ⟨_, rfl⟩
  · exact ⟨_, rfl⟩

theorem State.handLotEnd_part (s : State) (r : LotEnd) :
    (s.handLotEnd r).report.part = s.report.part ∧ (s.handLotEnd r).report.dropped = s.report.dropped := by
  unfold State.handLotEnd
  split <;> exact ⟨rfl, rfl⟩

theorem State.handLotEnd_room {s : State} (h : s.report.lotEnd.length < 2) (r : LotEnd) :
    (s.handLotEnd r).report.lotEnd = s.report.lotEnd ++ [r] := by
  rw [State.handLotEnd, if_pos h]
  rfl

/-! ### The slot that loses a resident (R108, R113) -/

theorem State.retire_report (s : State) (i : SlotId) (e : LotEnding) :
    (s.retire i e).report = (match s.lotEndOf i e with
      | some r => s.handLotEnd r
      | none => s).report := State.modSlot_report _ _ _

theorem State.retire_part (s : State) (i : SlotId) (e : LotEnding) :
    (s.retire i e).report.part = s.report.part ∧ (s.retire i e).report.dropped = s.report.dropped := by
  rw [State.retire_report]
  split
  · exact s.handLotEnd_part _
  · exact ⟨rfl, rfl⟩

theorem State.retire_lineCnt (s : State) (i : SlotId) (e : LotEnding) :
    ∃ n, (s.retire i e).lineCnt = { s.lineCnt with droppedLotEnd := n } := by
  unfold State.retire
  rw [State.modSlot_lineCnt]
  split
  · exact s.handLotEnd_lineCnt _
  · exact ⟨_, rfl⟩

/-- The slot stays: no summary is handed on. -/
theorem State.dropResident_stays {s : State} {i : SlotId} (h : (s.slot i).state ≠ .draining ∨ 1 < (s.slot i).resident) :
    s.dropResident i = s.modSlot i fun sl => { sl with resident := sl.resident - 1 } := by
  unfold State.dropResident
  simp only [State.modSlot_same]
  rw [if_neg]
  rintro ⟨hd, hr⟩
  rcases h with h | h
  · exact h hd
  · omega

/-- The last resident of a DRAINING slot: its summary is handed on. -/
theorem State.dropResident_retires {s : State} {i : SlotId} (hd : (s.slot i).state = .draining)
    (hr : (s.slot i).resident ≤ 1) :
    s.dropResident i = (s.modSlot i fun sl => { sl with resident := sl.resident - 1 }).retire i .drained := by
  unfold State.dropResident
  simp only [State.modSlot_same]
  rw [if_pos ⟨hd, by omega⟩]

theorem State.dropResidentOf_part (s : State) (i : Option SlotId) :
    (s.dropResidentOf i).report.part = s.report.part ∧ (s.dropResidentOf i).report.dropped = s.report.dropped := by
  unfold State.dropResidentOf
  split
  · next i =>
    have hmod : (s.modSlot i fun sl => { sl with resident := sl.resident - 1 }).report = s.report := State.modSlot_report ..
    unfold State.dropResident
    dsimp only
    split
    · rw [← hmod]; exact State.retire_part _ _ _
    · rw [hmod]; exact ⟨rfl, rfl⟩
  · exact ⟨rfl, rfl⟩

theorem State.dropResidentOf_lineCnt (s : State) (i : Option SlotId) :
    ∃ n, (s.dropResidentOf i).lineCnt = { s.lineCnt with droppedLotEnd := n } := by
  unfold State.dropResidentOf
  split
  · next i =>
    have hmod : (s.modSlot i fun sl => { sl with resident := sl.resident - 1 }).lineCnt = s.lineCnt :=
      State.modSlot_lineCnt ..
    unfold State.dropResident
    dsimp only
    split
    · rw [← hmod]; exact State.retire_lineCnt _ _ _
    · exact ⟨_, hmod⟩
  · exact ⟨_, rfl⟩

theorem LotSlot.dropped_stays {sl : LotSlot} (h : sl.state ≠ .draining ∨ 1 < sl.resident) :
    sl.dropped = { sl with resident := sl.resident - 1 } := if_neg fun ⟨hd, hr⟩ => by
  rcases h with h | h
  · exact h hd
  · omega

theorem LotSlot.dropped_retires {sl : LotSlot} (hd : sl.state = .draining) (hr : sl.resident ≤ 1) : sl.dropped = .freed :=
  if_pos ⟨hd, by omega⟩

/-! ### The finish, block by block (R22) -/

/-- The pocket's account settled and its PART record handed over. -/
def State.handedOver (q : Nat) (o : Finish) (s : State) : State := (s.settleAccounts q).handPart (s.partOf q o)

theorem State.partOf_congr {s t : State} (ht : t.track = s.track) (h0 : t.slot0 = s.slot0) (h1 : t.slot1 = s.slot1)
    (q : Nat) (o : Finish) : t.partOf q o = s.partOf q o := by
  simp only [State.partOf, State.definitionOf, State.pocket_congr ht, State.slot_congr h0 h1]

theorem State.finish_eq (s : State) (q : Nat) (o : Finish) : s.finish q o =
    let u := (((s.handedOver q o).dropResidentOf (s.pocket q).slot).modLineCnt (countFinish o)).modPocket q fun _ => .emptied
    if (s.pocket q).state = .referred then u.clearLive q (s.pocket q).serial else u := by
  have hs := s.settleAccounts_only q
  rw [State.finish, State.partOf_congr (hs .track (by decide)) (hs .slot0 (by decide)) (hs .slot1 (by decide))]
  rfl

theorem State.handedOver_only (s : State) (q : Nat) (o : Finish) :
    Only [.chutes, .report, .lineCnt] s (s.handedOver q o) :=
  ((s.settleAccounts_only q).mono (by decide)).trans ((State.handPart_only _ _).mono (by decide))

theorem State.finish_chutes (s : State) (q : Nat) (o : Finish) : (s.finish q o).chutes = (s.settleAccounts q).chutes := by
  have hd := State.dropResidentOf_only (s.handedOver q o) (s.pocket q).slot .chutes (by decide)
  have hh := State.handPart_only (s.settleAccounts q) (s.partOf q o) .chutes (by decide)
  rw [State.finish_eq]
  dsimp only
  split <;> exact Eq.trans hd hh

theorem State.finish_lineCnt (s : State) (q : Nat) (o : Finish) : (s.finish q o).lineCnt =
    countFinish o ((s.handedOver q o).dropResidentOf (s.pocket q).slot).lineCnt := by
  rw [State.finish_eq]
  dsimp only
  split <;> rfl

/-- The queues as the PART record and the summary leave them. -/
theorem State.finish_queues (s : State) (q : Nat) (o : Finish) :
    (s.finish q o).report.part = (s.handedOver q o).report.part ∧
      (s.finish q o).report.dropped = (s.handedOver q o).report.dropped ∧
      (s.finish q o).report.lotEnd = ((s.handedOver q o).dropResidentOf (s.pocket q).slot).report.lotEnd := by
  obtain ⟨hp, hd⟩ := State.dropResidentOf_part (s.handedOver q o) (s.pocket q).slot
  rw [State.finish_eq]
  dsimp only
  split <;> exact ⟨hp, hd, rfl⟩

/-- The events an account raises are in the event table alone. -/
theorem State.account_queues (s : State) (c : Nat) (f : Chute → Chute) :
    (s.account c f).report = { s.report with events := (s.account c f).report.events } := by
  unfold State.account
  dsimp only
  split
  · rw [State.raise, State.modReport_report, State.modChute_report]
  · rw [State.modChute_report]

theorem State.settleAccounts_queues (s : State) (q : Nat) :
    (s.settleAccounts q).report = { s.report with events := (s.settleAccounts q).report.events } := by
  unfold State.settleAccounts
  split
  · rfl
  · split
    case h_1 | h_2 => exact State.account_queues s _ _
    all_goals rfl

/-- Of the counters a finish advances its own, and those of reports that found no room. -/
theorem State.finish_counts (s : State) (q : Nat) (o : Finish) :
    ∃ m n, (s.finish q o).lineCnt = countFinish o { s.lineCnt with droppedPart := m, droppedLotEnd := n } := by
  obtain ⟨m, hm⟩ := State.handPart_lineCnt (s.settleAccounts q) (s.partOf q o)
  obtain ⟨n, hn⟩ := State.dropResidentOf_lineCnt (s.handedOver q o) (s.pocket q).slot
  have hs := s.settleAccounts_only q .lineCnt (by decide)
  refine ⟨m, n, ?_⟩
  rw [State.finish_lineCnt, hn, State.handedOver, hm, show (s.settleAccounts q).lineCnt = s.lineCnt from hs]

/-- With room for the PART record and no slot retired no report is dropped. -/
theorem State.finish_counts_room {s : State} {q : Nat} {i : SlotId} (hi : (s.pocket q).slot = some i)
    (hroom : s.report.part.length < 64) (hstay : (s.slot i).state ≠ .draining ∨ 1 < (s.slot i).resident) (o : Finish) :
    (s.finish q o).lineCnt = countFinish o s.lineCnt := by
  have honly := s.handedOver_only q o
  have hslot : (s.handedOver q o).slot i = s.slot i :=
    State.slot_congr (honly .slot0 (by decide)) (honly .slot1 (by decide)) i
  have hroom' : (s.settleAccounts q).report.part.length < 64 := by rw [State.settleAccounts_queues]; exact hroom
  have hs := s.settleAccounts_only q .lineCnt (by decide)
  rw [State.finish_lineCnt, hi]
  dsimp only [State.dropResidentOf]
  rw [State.dropResident_stays (by rw [hslot]; exact hstay), State.modSlot_lineCnt, State.handedOver,
    State.handPart_room hroom', State.modReport_lineCnt, show (s.settleAccounts q).lineCnt = s.lineCnt from hs]

theorem State.finish_part_length {s : State} (h : s.report.part.length ≤ 64) (q : Nat) (o : Finish) :
    (s.finish q o).report.part.length = min 64 (s.report.part.length + 1) := by
  have hset : (s.settleAccounts q).report.part = s.report.part := by rw [State.settleAccounts_queues]
  rw [(s.finish_queues q o).1, State.handedOver, State.handPart_part_length (by rw [hset]; exact h), hset]

/-! ### What a finish leaves between two states (R22, R113, R183) -/

/-- The summary of a slot whose last resident finishes is that of the slot as it stood. -/
theorem State.dropResident_lotEnd {s : State} {i : SlotId} {d : LotDef} (hd : (s.slot i).definition = some d)
    (hs : (s.slot i).state = .draining) (hr : (s.slot i).resident ≤ 1) (hroom : s.report.lotEnd.length < 2) :
    (s.dropResident i).report.lotEnd = s.report.lotEnd ++
      [⟨i, d.lotNumber, d.label, .drained, (s.slot i).activation.getD 0, s.cal.working.number, (s.slot i).cnt⟩] := by
  rw [State.dropResident_retires hs hr, State.retire_report]
  simp only [State.lotEndOf, State.modSlot_same, hd, Option.map_some, State.modSlot_cal]
  rw [State.handLotEnd_room (by rw [State.modSlot_report]; exact hroom), State.modSlot_report]

theorem State.finish_finishes {s : State} {q : Nat} {i : SlotId} {d : LotDef} (hi : (s.pocket q).slot = some i)
    (hd : (s.slot i).definition = some d) (hroom : s.report.part.length < 64) (o : Finish) :
    s.finishes (s.finish q o) q i d o := by
  obtain ⟨hpart, hdropped, hlotEnd⟩ := s.finish_queues q o
  obtain ⟨hslot, hother⟩ := s.finish_slot q o hi
  have honly := s.handedOver_only q o
  have hslotOver : (s.handedOver q o).slot i = s.slot i :=
    State.slot_congr (honly .slot0 (by decide)) (honly .slot1 (by decide)) i
  have hcalOver : (s.handedOver q o).cal = s.cal := honly .cal (by decide)
  have hset := s.settleAccounts_queues q
  have hroom' : (s.settleAccounts q).report.part.length < 64 := by rw [hset]; exact hroom
  have hover : (s.handedOver q o).report = { (s.settleAccounts q).report with
      part := (s.settleAccounts q).report.part ++ [{ s.partOf q o with dropped := (s.settleAccounts q).report.dropped }],
      dropped := 0 } := by rw [State.handedOver, State.handPart_room hroom']; rfl
  have hlot : (s.handedOver q o).report.lotEnd = s.report.lotEnd := by rw [hover, hset]
  rw [hi] at hlotEnd
  refine ⟨s.finish_pocket_same q o, fun r hr => s.finish_pocket_ne hr o, ?_, ?_, hother, fun hstay => ⟨?_, ?_⟩,
    fun hdrain hlast => ⟨?_, fun hlen => ?_⟩⟩
  · rw [hpart, hover, hset]
    simp [State.partOf, State.definitionOf, hi, hd]
  · rw [hdropped, hover]
  · rw [hslot, LotSlot.dropped_stays hstay]
  · rw [hlotEnd, State.dropResidentOf, State.dropResident_stays (by rw [hslotOver]; exact hstay), State.modSlot_report, hlot]
  · rw [hslot, LotSlot.dropped_retires hdrain hlast]
  · rw [hlotEnd, State.dropResidentOf, State.dropResident_lotEnd (by rw [hslotOver]; exact hd)
      (by rw [hslotOver]; exact hdrain) (by rw [hslotOver]; exact hlast) (by rw [hlot]; exact hlen), hlot, hslotOver, hcalOver]

/-! ### The chute's account (R149) -/

theorem State.settleAccounts_decided {s : State} {q c : Nat} (hs : (s.pocket q).state = .decided)
    (hc : (s.pocket q).chute = some c) : s.settleAccounts q = s.releasePlace c := by
  simp [State.settleAccounts, hs, hc]

theorem State.settleAccounts_ejected {s : State} {q c : Nat} (hs : (s.pocket q).state = .ejected)
    (hc : (s.pocket q).chute = some c) : s.settleAccounts q = s.confirmPart c := by
  simp [State.settleAccounts, hs, hc]

theorem State.settleAccounts_none {s : State} {q : Nat} (hc : (s.pocket q).chute = none) : s.settleAccounts q = s := by
  simp [State.settleAccounts, hc]

/-- An update that leaves the chute's entry as it was. -/
theorem State.modChute_chutes_fixed {s : State} {c : Nat} {f : Chute → Chute} (h : f (s.chute c) = s.chute c) :
    (s.modChute c f).chutes = s.chutes := by
  unfold State.modChute
  split
  · rfl
  · next hc =>
    refine List.ext_getElem? fun n => ?_
    simp only [State.modChutes_chutes, List.getElem?_modify]
    split
    · next hn =>
      subst hn
      cases he : s.chutes[c - 1]? with
      | none => rfl
      | some e =>
        have hchute : s.chute c = e := by simp [State.chute, hc, List.getD_eq_getElem?_getD, he]
        rw [hchute] at h
        exact congrArg some h
    · simp

end Sys2Proof.Machine
end


-- ==== Sys2Proof/Proofs/QuietIndex.lean ====
section
/-! PROOFS. An index start out of a dwell whose work is done, with DECIDE EMPTY: what stands between its load and check
handling and the state it leaves (R7, R14 to R19, R31, R44). -/

namespace Sys2Proof.Machine

/-! ### The parts of an index start that find nothing to do -/

theorem State.leaveDecide_empty {s : State} {q : Nat} (h : (s.pocket q).state = .empty) : s.leaveDecide q = s := by
  unfold State.leaveDecide
  split
  · rfl
  · rw [h]

theorem State.handleCheck_empty {s : State} {q : Nat} (h : (s.pocket q).state = .empty) : s.handleCheck q false = s := by
  simp [State.handleCheck, h]

theorem State.handleCheck_foreign {s : State} {q : Nat} (h : (s.pocket q).state = .empty) :
    s.handleCheck q true = s.raiseFault .foreignPart (.pocket q) := by
  simp [State.handleCheck, h]

theorem State.handleLoad_occupied {s : State} {q : Nat} (h : (s.pocket q).occupied = true) (sensed : Bool) :
    s.handleLoad q sensed = s := if_pos h

/-- With no part at LOAD a load miss is counted where the memory permits a load (R18). -/
theorem State.handleLoad_absent {s : State} {q : Nat} (h : (s.pocket q).state = .empty) : s.handleLoad q false =
    if s.track.loadPermit then s.modLineCnt fun c => { c with loadMisses := bump c.loadMisses } else s := by
  unfold State.handleLoad
  rw [if_neg (by rw [Pocket.occupied_iff, h]; simp)]
  cases s.track.loadPermit <;> rfl

/-- With a pocket occupied the turret has not drained (R44). -/
theorem State.judgeDrained_occupied {s : State} {q : Nat} (h : (s.pocket q).occupied = true) : s.judgeDrained = s := by
  unfold State.judgeDrained
  rw [if_neg]
  rintro ⟨-, hzero⟩
  have hpos : 0 < s.track.occupiedCount := State.countP_pos (State.lt_of_occupied h) h
  omega

/-! ### Faults with no work open (R45, R46) -/

/-- Whatever the line's state, a fault's event enters the table as any other (R46). -/
theorem State.raiseFault_report (s : State) (k : FaultKind) (d : Detail) :
    (s.raiseFault k d).report = (s.raise k.event d).report := by
  have entry : (s.faultEntry k d).report = (s.raise k.event d).report := by
    have hr : (((s.modLine (faultedLine s.pins.motion k d)).cutDwell).cutJets).report = s.report :=
      (State.cutJets_only _ .report (by decide)).trans (State.cutDwell_only _ .report (by decide))
    have hk : (((s.modLine (faultedLine s.pins.motion k d)).cutDwell).cutJets).track.k = s.track.k := by
      rw [show (((s.modLine (faultedLine s.pins.motion k d)).cutDwell).cutJets).track =
        ((s.modLine (faultedLine s.pins.motion k d)).cutDwell).track from State.cutJets_only _ .track (by decide),
        (State.cutDwell_evolves _).geometry]
      rfl
    rw [State.faultEntry, State.raise, State.raise, State.modReport_report, State.modReport_report, hr, hk]
  unfold State.raiseFault
  split
  · exact entry
  · exact entry
  · exact entry
  · exact entry
  · rfl
  · rfl

/-- Of the line's counters a fault touches the jet cuts alone. -/
theorem State.raiseFault_lineCnt (s : State) (k : FaultKind) (d : Detail) :
    ∃ n, (s.raiseFault k d).lineCnt = { s.lineCnt with jetCuts := n } := by
  have entry : ∃ n, (s.faultEntry k d).lineCnt = { s.lineCnt with jetCuts := n } := by
    have hcut : ((s.modLine (faultedLine s.pins.motion k d)).cutDwell).lineCnt = s.lineCnt :=
      State.cutDwell_only _ .lineCnt (by decide)
    refine ⟨bumpBy s.lineCnt.jetCuts ((s.modLine (faultedLine s.pins.motion k d)).cutDwell).pulsingCount, ?_⟩
    rw [State.faultEntry, State.raise, State.modReport_lineCnt, State.cutJets, State.modChutes_lineCnt,
      State.modLineCnt_lineCnt, hcut]
  unfold State.raiseFault
  split
  · exact entry
  · exact entry
  · exact entry
  · exact entry
  · exact ⟨_, rfl⟩
  · exact ⟨_, rfl⟩

/-! ### From the check handling to the end of the index start -/

/-- x ends an index start whose load and check handling left w: the track advances, the check flags are judged, and a drained
line becomes IDLE (R7, R44, R162). -/
structure IndexEnds (w x : State) : Prop where
  only : Only [.track, .line, .cal] w x
  track : x.track = w.track.advance
  line : x.line = w.line ∨
    w.line.state = .drain ∧ x.line = { w.line with state := .idle, motionTimer := none }
  occupied : ∀ q, (w.pocket q).occupied = true → x.line = w.line

theorem IndexEnds.pocket {w x : State} (h : IndexEnds w x) (q : Nat) : x.pocket q = w.pocket q := by
  rw [State.pocket, h.track]
  rfl

theorem indexEnds (w : State) (interval k : Nat) :
    IndexEnds w (((w.modTrack Track.advance).modCal (Cal.judgeFlags interval k)).judgeDrained) := by
  have hjudge := State.judgeDrained_only ((w.modTrack Track.advance).modCal (Cal.judgeFlags interval k))
  refine ⟨(((w.modTrack_only _).mono (by decide)).trans ((State.modCal_only _ _).mono (by decide))).trans
    (hjudge.mono (by decide)), hjudge .track (by decide), ?_, fun q hq => ?_⟩
  · unfold State.judgeDrained
    split
    · next h => exact .inr ⟨h.1, rfl⟩
    · exact .inl rfl
  · have ho : (((w.modTrack Track.advance).modCal (Cal.judgeFlags interval k)).pocket q).occupied = true := hq
    rw [State.judgeDrained_occupied ho]
    rfl

/-- Load handling before check handling: the two do not both act, so that no choice is made (R111). -/
theorem State.handleBoth_apart {s : State} {ls cs : Bool} (h : s.loadAndCheck ls cs = false) : s.handleBoth ls cs =
    (s.handleLoad (s.track.pocketAt 0) ls).handleCheck (s.track.pocketAt s.track.checkPos) cs := by
  simp [State.handleBoth, h]

/-- An index start with nothing open, whose load and check handling leave w with DECIDE EMPTY. -/
theorem exec_indexStart_quiet {s w : State} {ls cs : Bool} (hm : s.pins.motion = false) (hd : s.dwellDone = true)
    (hp : s.track.p ≠ 0) (hboth : s.loadAndCheck ls cs = false)
    (hw : ((s.cutShort ls cs).handleLoad (s.track.pocketAt 0) ls).handleCheck (s.track.pocketAt s.track.checkPos) cs = w)
    (hdec : (w.pocket (s.track.pocketAt s.track.decidePos)).state = .empty) :
    ∃ x, exec (.indexStart ls cs) s = .next x.transmit ∧ IndexEnds w x := by
  have htrack : (s.cutShort ls cs).track = s.track := State.cutShort_quiet hd ls cs .track (by decide)
  have hboth' : (s.cutShort ls cs).loadAndCheck ls cs = false := by
    rw [State.loadAndCheck, htrack, State.pocket_congr htrack, State.pocket_congr htrack]; exact hboth
  have hgeo : SameGeometry s w := by
    rw [← hw]
    exact ((SameGeometry.of_track htrack).trans (State.handleLoad_geometry _ _ _)).trans (State.handleCheck_geometry _ _ _)
  have hwork : (s.cutShort ls cs).trackIndex ls cs = w.modTrack Track.advance := by
    unfold State.trackIndex
    rw [if_neg (by rw [htrack]; exact hp), State.handleBoth_apart hboth', htrack]
    dsimp only
    rw [hw, hgeo.pocketAt, show w.track.decidePos = s.track.decidePos by rw [hgeo], State.leaveDecide_empty hdec]
  refine ⟨s.indexStart ls cs, exec_indexStart hm ls cs, ?_⟩
  rw [State.indexStart_eq, hwork]
  exact indexEnds w _ _

/-! ### Up to the check handling, where LOAD takes no part -/

/-- v stands at the check handling of an index start out of s that cut nothing short and loaded no part. -/
structure BeforeCheck (s v : State) : Prop where
  only : Only [.pins, .line, .lineCnt, .report] s v
  line : v.line = indexLine s.line
  loads : v.lineCnt.loads = s.lineCnt.loads
  sorted : v.lineCnt.sorted = s.lineCnt.sorted
  lost : v.lineCnt.lost = s.lineCnt.lost
  report : v.report = { s.report with events := v.report.events }
  keeps : ∀ k, k ≠ .unpermittedIndex → KeepsEvent k s v

theorem BeforeCheck.track {s v : State} (h : BeforeCheck s v) : v.track = s.track := h.only .track (by decide)

theorem BeforeCheck.chutes {s v : State} (h : BeforeCheck s v) : v.chutes = s.chutes := h.only .chutes (by decide)

theorem BeforeCheck.pocket {s v : State} (h : BeforeCheck s v) (q : Nat) : v.pocket q = s.pocket q :=
  State.pocket_congr h.track q

theorem BeforeCheck.slot {s v : State} (h : BeforeCheck s v) (i : SlotId) : v.slot i = s.slot i :=
  State.slot_congr (h.only .slot0 (by decide)) (h.only .slot1 (by decide)) i

theorem beforeCheck_cutShort {s : State} (h : s.dwellDone = true) (ls cs : Bool) : BeforeCheck s (s.cutShort ls cs) := by
  have hcnt := s.cutShort_lineCnt ls cs
  have hreport := s.cutShort_report ls cs
  refine ⟨State.cutShort_quiet h ls cs, s.cutShort_line ls cs, by rw [hcnt]; rfl, by rw [hcnt]; rfl, by rw [hcnt]; rfl, ?_,
    fun k hk => State.cutShort_keeps hk s ls cs⟩
  rw [hreport]
  split <;> rfl

/-- A load miss, or no part where none is permitted (R17, R18). -/
theorem BeforeCheck.absent {s u : State} (h : BeforeCheck s u) {q : Nat} (hq : (s.pocket q).state = .empty) :
    BeforeCheck s (u.handleLoad q false) ∧ (u.handleLoad q false).lineCnt.loadMisses =
      if s.track.loadPermit then bump u.lineCnt.loadMisses else u.lineCnt.loadMisses := by
  rw [State.handleLoad_absent (by rw [h.pocket]; exact hq), h.track]
  split
  · exact ⟨⟨h.only.trans ((State.modLineCnt_only _ _).mono (by decide)), h.line, h.loads, h.sorted, h.lost, h.report,
      fun k hk => (h.keeps k hk).trans (.of_report (State.modLineCnt_report _ _) k)⟩, rfl⟩
  · exact ⟨h, rfl⟩

/-! ### Views of a finish -/

/-- What a finish reads of the part before it, kept by other work: an event raised is no part of it. -/
theorem State.finishes.of_start {s v t : State} {q : Nat} {i : SlotId} {d : LotDef} {o : Finish} (h : v.finishes t q i d o)
    (ht : v.track = s.track) (h0 : v.slot0 = s.slot0) (h1 : v.slot1 = s.slot1) (hc : v.cal = s.cal)
    (hr : v.report = { s.report with events := v.report.events }) : s.finishes t q i d o := by
  unfold State.finishes at h ⊢
  rw [hr] at h
  simpa only [State.pocket_congr ht, State.slot_congr h0 h1, hc] using h

/-- What a finish leaves, kept by what follows it. -/
theorem State.finishes.of_end {s w t : State} {q : Nat} {i : SlotId} {d : LotDef} {o : Finish} (h : s.finishes w q i d o)
    (hp : ∀ r, t.pocket r = w.pocket r) (h0 : t.slot0 = w.slot0) (h1 : t.slot1 = w.slot1) (hr : t.report = w.report) :
    s.finishes t q i d o := by
  unfold State.finishes at h ⊢
  simpa only [hp, State.slot_congr h0 h1, hr] using h

end Sys2Proof.Machine
end


-- ==== Sys2Proof/Proofs/IndexFinishes.lean ====
section
/-! PROOFS. The finishes at CHECK of an index start (R19, R22, R113, R149, R183). -/

namespace Sys2Proof.Machine

/-- The end of an index start whose check handling finished pocket q, behind a frame being sent. -/
theorem IndexEnds.of_finish {s z x : State} {q : Nat} {i : SlotId} {d : LotDef} {o : Finish} {f : Frame}
    (hx : IndexEnds (z.finish q o) x) (hz : Only [.pins, .line, .lineCnt, .report] s z)
    (hr : z.report = { s.report with events := z.report.events }) (hi : (s.pocket q).slot = some i)
    (hd : (s.slot i).definition = some d) (hroom : s.report.part.length < 64) (htx : s.report.tx = some f) :
    x.transmit = x ∧ s.finishes x q i d o ∧ x.chutes = (z.settleAccounts q).chutes ∧
      ∃ m n, x.lineCnt = countFinish o { z.lineCnt with droppedPart := m, droppedLotEnd := n } := by
  have hpocket : z.pocket q = s.pocket q := State.pocket_congr (hz .track (by decide)) q
  have hslot : z.slot i = s.slot i := State.slot_congr (hz .slot0 (by decide)) (hz .slot1 (by decide)) i
  have hsend : x.report.tx = some f := by
    have hkeep : KeepsEvent .jam z (z.finish q o) := State.finish_keeps (by decide) (by decide) z q o
    rw [show x.report = (z.finish q o).report from hx.only .report (by decide), hkeep.tx, hr]
    exact htx
  have hfin : z.finishes (z.finish q o) q i d o :=
    State.finish_finishes (by rw [hpocket]; exact hi) (by rw [hslot]; exact hd) (by rw [hr]; exact hroom) o
  have hstart := hfin.of_start (hz .track (by decide)) (hz .slot0 (by decide)) (hz .slot1 (by decide))
    (hz .cal (by decide)) hr
  refine ⟨State.transmit_sending hsend, hstart.of_end hx.pocket (hx.only .slot0 (by decide)) (hx.only .slot1 (by decide))
    (hx.only .report (by decide)), (hx.only .chutes (by decide)).trans (z.finish_chutes q o), ?_⟩
  rw [show x.lineCnt = (z.finish q o).lineCnt from hx.only .lineCnt (by decide)]
  exact z.finish_counts q o

/-- The index starts of these claims: a dwell whose work is done, LOAD and DECIDE EMPTY, pocket q at CHECK. -/
structure AtCheck (s : State) (q : Nat) : Prop where
  motion : s.pins.motion = false
  done : s.dwellDone = true
  p : s.track.p ≠ 0
  check : q = s.track.pocketAt s.track.checkPos
  apart : s.track.pocketAt s.track.decidePos ≠ q
  load : (s.pocket (s.track.pocketAt 0)).state = .empty
  decide : (s.pocket (s.track.pocketAt s.track.decidePos)).state = .empty

/-- The part before the check handling, with no part at LOAD. -/
def State.beforeCheck (cs : Bool) (s : State) : State :=
  (s.cutShort false cs).handleLoad (s.track.pocketAt 0) false

theorem AtCheck.before {s : State} {q : Nat} (h : AtCheck s q) (cs : Bool) : BeforeCheck s (s.beforeCheck cs) :=
  ((beforeCheck_cutShort h.done false cs).absent h.load).1

/-- What the check handling leaves is what the index start ends from. -/
theorem AtCheck.ends {s w : State} {q : Nat} {cs : Bool} (h : AtCheck s q) (hw : (s.beforeCheck cs).handleCheck q cs = w)
    (hne : ∀ r, r ≠ q → w.pocket r = s.pocket r) :
    ∃ x, exec (.indexStart false cs) s = .next x.transmit ∧ IndexEnds w x :=
  exec_indexStart_quiet h.motion h.done h.p (by simp [State.loadAndCheck]) (by rw [← h.check]; exact hw)
    (by rw [hne _ h.apart]; exact h.decide)

/-- EJECTED and gone: the finish SORTED. -/
theorem AtCheck.sorted {s : State} {q : Nat} (h : AtCheck s q) (hs : (s.pocket q).state = .ejected) :
    ∃ x, exec (.indexStart false false) s = .next x.transmit ∧ IndexEnds ((s.beforeCheck false).finish q .sorted) x := by
  have hv := h.before false
  refine h.ends (by simp [State.handleCheck, hv.pocket, hs]) fun r hr => ?_
  rw [State.finish_pocket_ne _ hr, hv.pocket]

/-- DECIDED or HELD and gone: PART_LOST and the finish LOST. -/
theorem AtCheck.lost {s : State} {q : Nat} (h : AtCheck s q)
    (hs : (s.pocket q).state = .decided ∨ (s.pocket q).state = .held) :
    ∃ x, exec (.indexStart false false) s = .next x.transmit ∧
      IndexEnds (((s.beforeCheck false).raise .partLost (.pocket q)).finish q .lost) x := by
  have hv := h.before false
  refine h.ends ?_ fun r hr => ?_
  · rcases hs with hs | hs <;> simp [State.handleCheck, hv.pocket, hs]
  · rw [State.finish_pocket_ne _ hr]
    exact hv.pocket r

/-- DECIDED or HELD and present: on to lap 2. -/
theorem AtCheck.lap {s : State} {q : Nat} (h : AtCheck s q)
    (hs : (s.pocket q).state = .decided ∨ (s.pocket q).state = .held) :
    ∃ x, exec (.indexStart false true) s = .next x.transmit ∧
      IndexEnds ((s.beforeCheck true).modPocket q Pocket.secondLap) x := by
  have hv := h.before true
  refine h.ends ?_ fun r hr => ?_
  · rcases hs with hs | hs <;> simp [State.handleCheck, hv.pocket, hs]
  · rw [State.modPocket_ne hr, hv.pocket]

/-- The finish LOST of a part that PART_LOST names, behind a frame being sent. -/
theorem AtCheck.lost_finishes {s : State} {q : Nat} {i : SlotId} {d : LotDef} {f : Frame} (h : AtCheck s q)
    (hs : (s.pocket q).state = .decided ∨ (s.pocket q).state = .held) (hi : (s.pocket q).slot = some i)
    (hd : (s.slot i).definition = some d) (hroom : s.report.part.length < 64) (htx : s.report.tx = some f) :
    ∃ x, exec (.indexStart false false) s = .next x ∧ s.finishes x q i d .lost ∧ s.notes x .partLost (.pocket q) ∧
      x.lineCnt.lost = satInc 4294967295 s.lineCnt.lost ∧
      x.chutes = (((s.beforeCheck false).raise .partLost (.pocket q)).settleAccounts q).chutes := by
  have hv := h.before false
  obtain ⟨x, hexec, hends⟩ := h.lost hs
  have hraised : ((s.beforeCheck false).raise .partLost (.pocket q)).report = { s.report with
      events := ((s.beforeCheck false).raise .partLost (.pocket q)).report.events } := by
    rw [State.raise, State.modReport_report, hv.report]
  obtain ⟨hsend, hfin, hchutes, m, n, hcnt⟩ :=
    hends.of_finish (hv.only.trans ((State.raise_only _ _ _).mono (by decide))) hraised hi hd hroom htx
  have hnotes : s.notes x.transmit .partLost (.pocket q) :=
    State.notes_of_raise (hv.keeps _ (by decide)) (by rw [hv.track])
      ((State.finish_keeps (by decide) (by decide) _ q .lost).trans (.of_report (hends.only .report (by decide)) _))
  rw [hsend] at hexec hnotes
  refine ⟨x, hexec, hfin, hnotes, ?_, hchutes⟩
  rw [hcnt]
  exact congrArg bump hv.lost

/-- Settles O15: the finish of pocket q out of what the load handling leaves, its chute's account after its state. -/
theorem indexFinishesSorted : Obligations.IndexFinishesSorted := by
  unfold Obligations.IndexFinishesSorted
  intro s q i d f hshape hdwell hm hw hp hdc hcp hc0 hq hi hd hempty hroom htx
  obtain ⟨hlen, -, hphi, -, -⟩ := hshape
  have h : AtCheck s q := by
    refine ⟨hm, hdwell.waiting hw, hp, hq, ?_, hempty _ (by simp), hempty _ (by simp)⟩
    rw [hq]
    exact Track.pocketAt_ne (hphi hp) (by omega) (by omega) (by omega)
  have hv := h.before false
  refine ⟨fun c hs hc => ?_, fun c hs hc h1 => ?_, fun hs hc => ?_, fun hs => ?_⟩
  · obtain ⟨x, hexec, hends⟩ := h.sorted hs
    obtain ⟨hsend, hfin, hchutes, m, n, hcnt⟩ := hends.of_finish hv.only hv.report hi hd hroom htx
    rw [hsend] at hexec
    rw [State.settleAccounts_ejected (by rw [hv.pocket]; exact hs) (by rw [hv.pocket]; exact hc), State.confirmPart,
      State.account_chutes] at hchutes
    refine ⟨x, hexec, hfin, ?_, fun hold => ?_, fun h1 => ?_⟩
    · rw [hcnt]
      exact congrArg bump hv.sorted
    · rw [hchutes, State.modChute_chutes_fixed, hv.chutes]
      rw [State.chute_congr hv.chutes, hold, Nat.zero_sub, ← hold]
    · rw [hchutes, State.modChute_chutes h1, hv.chutes]
  · obtain ⟨x, hexec, hfin, hnotes, hcnt, hchutes⟩ := h.lost_finishes (.inl hs) hi hd hroom htx
    have hq' : ((s.beforeCheck false).raise .partLost (.pocket q)).pocket q = s.pocket q := hv.pocket q
    rw [State.settleAccounts_decided (by rw [hq']; exact hs) (by rw [hq']; exact hc), State.releasePlace,
      State.account_chutes, State.modChute_chutes h1] at hchutes
    exact ⟨x, hexec, hfin, hnotes, hcnt, by rw [hchutes, ← hv.chutes]; rfl⟩
  · obtain ⟨x, hexec, hfin, hnotes, hcnt, hchutes⟩ := h.lost_finishes (.inr hs) hi hd hroom htx
    have hq' : ((s.beforeCheck false).raise .partLost (.pocket q)).pocket q = s.pocket q := hv.pocket q
    rw [State.settleAccounts_none (by rw [hq']; exact hc)] at hchutes
    exact ⟨x, hexec, hfin, hnotes, hcnt, hchutes.trans hv.chutes⟩
  · obtain ⟨x, hexec, hends⟩ := h.lap hs
    have hv := h.before true
    have hqlen : q < (s.beforeCheck true).track.pockets.length := by
      rw [hv.track, hlen, hq]; exact Track.pocketAt_lt hp _
    have hreport : x.report = (s.beforeCheck true).report := hends.only .report (by decide)
    have hsame : x.pocket q = (s.pocket q).secondLap := by
      rw [hends.pocket, State.modPocket_same hqlen, hv.pocket]
    have hocc : (((s.beforeCheck true).modPocket q Pocket.secondLap).pocket q).occupied = true := by
      rw [State.modPocket_same hqlen, hv.pocket, Pocket.occupied_iff]
      rcases hs with hs | hs <;> simp [Pocket.secondLap, hs]
    rw [State.transmit_sending (f := f) (by rw [hreport, hv.report]; exact htx)] at hexec
    refine ⟨x, hexec, hsame, fun r hr => ?_, by rw [hreport, hv.report], by rw [hreport, hv.report],
      (hends.only .slot0 (by decide)).trans (hv.only .slot0 (by decide)),
      (hends.only .slot1 (by decide)).trans (hv.only .slot1 (by decide)),
      (hends.only .chutes (by decide)).trans hv.chutes, ?_⟩
    · rw [hends.pocket, State.modPocket_ne hr, hv.pocket]
    · rw [hends.occupied q hocc, State.modPocket_line, hv.line]
      rfl

end Sys2Proof.Machine
end


-- ==== Sys2Proof/Proofs/IndexLoads.lean ====
section
/-! PROOFS. The load handling of an index start, and FOREIGN_PART at LOAD and at CHECK (R15 to R19, R45, R46, R108). -/

namespace Sys2Proof.Machine

/-! ### What follows the check handling -/

theorem IndexEnds.transmit_lineCnt {w x : State} (hx : IndexEnds w x) : x.transmit.lineCnt = w.lineCnt :=
  (x.transmit_only .lineCnt (by decide)).trans (hx.only .lineCnt (by decide))

theorem IndexEnds.transmit_pocket {w x : State} (hx : IndexEnds w x) (q : Nat) : x.transmit.pocket q = w.pocket q :=
  (State.pocket_congr (x.transmit_only .track (by decide)) q).trans (hx.pocket q)

theorem IndexEnds.transmit_slot {w x : State} (hx : IndexEnds w x) (i : SlotId) : x.transmit.slot i = w.slot i :=
  State.slot_congr ((x.transmit_only .slot0 (by decide)).trans (hx.only .slot0 (by decide)))
    ((x.transmit_only .slot1 (by decide)).trans (hx.only .slot1 (by decide))) i

theorem IndexEnds.transmit_track {w x : State} (hx : IndexEnds w x) : x.transmit.track = w.track.advance :=
  (x.transmit_only .track (by decide)).trans hx.track

theorem State.transmit_line (s : State) : s.transmit.line = s.line := s.transmit_only .line (by decide)

/-- An index start that ends without a change to pockets, serials, loads and slots has loaded no part. -/
theorem IndexEnds.loadsNone {s w x : State} (hx : IndexEnds w x) (hp : w.track.pockets = s.track.pockets)
    (hn : w.track.nextSerial = s.track.nextSerial) (hl : w.lineCnt.loads = s.lineCnt.loads)
    (h0 : w.slot0 = s.slot0) (h1 : w.slot1 = s.slot1) : s.loadsNone x.transmit := by
  have ht := x.transmit_only
  refine ⟨?_, ?_, ?_, ?_, ?_⟩
  · rw [hx.transmit_track]; exact hp
  · rw [hx.transmit_track]; exact hn
  · rw [hx.transmit_lineCnt]; exact hl
  · exact ((ht .slot0 (by decide)).trans (hx.only .slot0 (by decide))).trans h0
  · exact ((ht .slot1 (by decide)).trans (hx.only .slot1 (by decide))).trans h1

/-! ### FOREIGN_PART (R17, R19) -/

/-- The line as a fault with no work open leaves it (R45, R46). -/
theorem State.raiseFault_line (s : State) (k : FaultKind) (d : Detail) :
    (s.line.state.underWay = true ∨ s.line.state = .stopped →
      (s.raiseFault k d).line = faultedLine s.pins.motion k d s.line) ∧
    (s.line.state = .faulted → (s.raiseFault k d).line = addLater k s.line) ∧
    (s.line.state = .idle → (s.raiseFault k d).line = s.line) := by
  refine ⟨fun h => ?_, fun h => ?_, fun h => ?_⟩
  · rw [State.raiseFault_entry h, State.faultEntry_line]
  · rw [State.raiseFault_faulted h]; rfl
  · rw [State.raiseFault_idle h]; rfl

theorem mem_addLater (k x : FaultKind) (l : LineCtl) : x ∈ (addLater k l).laterFaults ↔ x = k ∨ x ∈ l.laterFaults := by
  unfold addLater
  split
  · next h => exact ⟨.inr, fun hx => hx.elim (fun he => he ▸ h) id⟩
  · simp [or_comm]

theorem addLater_line (k : FaultKind) (l : LineCtl) :
    (addLater k l).state = l.state ∧ (addLater k l).firstFault = l.firstFault := by
  unfold addLater
  split <;> exact ⟨rfl, rfl⟩

/-- A line that a fault has reached does not drain at this index start. -/
theorem IndexEnds.line_of_not_drain {w x : State} (hx : IndexEnds w x) (h : w.line.state ≠ .drain) : x.line = w.line :=
  hx.line.resolve_right fun hd => h hd.1

/-- An index start whose load and check handling come to one FOREIGN_PART. -/
theorem IndexEnds.foreign {s v x : State} {q : Nat} (hx : IndexEnds (v.raiseFault .foreignPart (.pocket q)) x)
    (hv : BeforeCheck s v) : s.foreign x.transmit q := by
  have hstate : v.line.state = s.line.state := by rw [hv.line]; rfl
  obtain ⟨hentry, hfaulted, hidle⟩ := v.raiseFault_line .foreignPart (.pocket q)
  rw [hstate] at hentry hfaulted hidle
  have hnotes : s.notes x.transmit .foreignPart (.pocket q) := by
    refine State.notes_of_raise (hv.keeps _ (by decide)) (by rw [hv.track]) (.of_report ?_ _)
    exact (hx.only .report (by decide)).trans (v.raiseFault_report .foreignPart (.pocket q))
  refine ⟨fun h => ?_, fun h => ?_, fun h => ?_, hnotes⟩ <;> rw [State.transmit_line]
  · rw [hx.line_of_not_drain (by rw [hentry h]; simp [faultedLine]), hentry h]
    exact ⟨rfl, rfl, rfl, rfl⟩
  · obtain ⟨hst, hff⟩ := addLater_line .foreignPart v.line
    rw [hx.line_of_not_drain (by rw [hfaulted h, hst, hstate, h]; decide), hfaulted h, hst, hff, hstate, hv.line]
    exact ⟨h, rfl, fun k => mem_addLater ..⟩
  · rw [hx.line_of_not_drain (by rw [hidle h, hstate, h]; decide), hidle h, hstate, hv.line]
    exact ⟨h, rfl⟩

/-- A fault with no work open loads no part. -/
theorem IndexEnds.foreign_loadsNone {s v x : State} {q : Nat} (hx : IndexEnds (v.raiseFault .foreignPart (.pocket q)) x)
    (hv : BeforeCheck s v) (hrest : s.atRest) :
    s.loadsNone x.transmit ∧ x.transmit.lineCnt.loadMisses = v.lineCnt.loadMisses := by
  have honly := State.raiseFault_atRest (hrest.of_only hv.only (by decide)) .foreignPart (.pocket q)
  have htrack : (v.raiseFault .foreignPart (.pocket q)).track = s.track := (honly .track (by decide)).trans hv.track
  obtain ⟨n, hcnt⟩ := v.raiseFault_lineCnt .foreignPart (.pocket q)
  refine ⟨hx.loadsNone (by rw [htrack]) (by rw [htrack]) (by rw [hcnt]; exact hv.loads)
    ((honly .slot0 (by decide)).trans (hv.only .slot0 (by decide)))
    ((honly .slot1 (by decide)).trans (hv.only .slot1 (by decide))), ?_⟩
  rw [hx.transmit_lineCnt, hcnt]

/-! ### The index starts of these claims -/

/-- A dwell whose work is done, DECIDE and CHECK EMPTY, and DECIDE another position than LOAD. -/
structure AtLoad (s : State) : Prop where
  motion : s.pins.motion = false
  done : s.dwellDone = true
  p : s.track.p ≠ 0
  length : s.track.pockets.length = s.track.p
  apart : s.track.pocketAt s.track.decidePos ≠ s.track.pocketAt 0
  decide : (s.pocket (s.track.pocketAt s.track.decidePos)).state = .empty
  check : (s.pocket (s.track.pocketAt s.track.checkPos)).state = .empty

theorem AtLoad.rest {s : State} (h : AtLoad s) : s.atRest := ((s.dwellDone_iff).mp h.done).2

/-- Load and check handling do not both act: LOAD takes no part, or CHECK sees none. -/
theorem AtLoad.apartHandling {s : State} (h : AtLoad s) {ls cs : Bool} (hone : ls = false ∨ cs = false) :
    s.loadAndCheck ls cs = false := by
  have hc := (Pocket.unoccupied_iff _).mpr h.check
  rcases hone with rfl | rfl <;> simp [State.loadAndCheck, hc]

/-- An index start whose load handling leaves v, the check handling finding nothing. -/
theorem AtLoad.ends {s v : State} (h : AtLoad s) {ls : Bool}
    (hv : (s.cutShort ls false).handleLoad (s.track.pocketAt 0) ls = v)
    (hcheck : v.handleCheck (s.track.pocketAt s.track.checkPos) false = v)
    (hdec : v.pocket (s.track.pocketAt s.track.decidePos) = s.pocket (s.track.pocketAt s.track.decidePos)) :
    ∃ x, exec (.indexStart ls false) s = .next x.transmit ∧ IndexEnds v x :=
  exec_indexStart_quiet h.motion h.done h.p (h.apartHandling (.inr rfl)) (by rw [hv]; exact hcheck)
    (by rw [hdec]; exact h.decide)

/-- The same where the load handling leaves the records alone. -/
theorem AtLoad.ends_same {s v : State} (h : AtLoad s) {ls : Bool}
    (hv : (s.cutShort ls false).handleLoad (s.track.pocketAt 0) ls = v) (ht : v.track = s.track) :
    ∃ x, exec (.indexStart ls false) s = .next x.transmit ∧ IndexEnds v x :=
  h.ends hv (State.handleCheck_empty (by rw [State.pocket_congr ht]; exact h.check)) (State.pocket_congr ht _)

/-! ### A pocket on lap 2 at LOAD (R15) -/

theorem AtLoad.passed {s : State} (h : AtLoad s) (hocc : (s.pocket (s.track.pocketAt 0)).state ≠ .empty) (ls : Bool) :
    ∃ t, exec (.indexStart ls false) s = .next t ∧ s.loadsNone t ∧ t.lineCnt.loadMisses = s.lineCnt.loadMisses ∧
      t.line.state = s.line.state ∧ t.line.firstFault = s.line.firstFault ∧ t.line.laterFaults = s.line.laterFaults := by
  have hu := beforeCheck_cutShort h.done ls false
  have hocc' : ((s.cutShort ls false).pocket (s.track.pocketAt 0)).occupied = true := by
    rw [hu.pocket, Pocket.occupied_iff]; exact hocc
  obtain ⟨x, hexec, hends⟩ := h.ends_same (State.handleLoad_occupied hocc' ls) hu.track
  refine ⟨_, hexec, hends.loadsNone (by rw [hu.track]) (by rw [hu.track]) hu.loads (hu.only .slot0 (by decide))
    (hu.only .slot1 (by decide)), ?_, ?_⟩
  · rw [hends.transmit_lineCnt, State.cutShort_lineCnt]
    rfl
  · rw [State.transmit_line, hends.occupied _ hocc', hu.line]
    exact ⟨rfl, rfl, rfl⟩

/-! ### No part at LOAD (R18) -/

theorem AtLoad.absent {s : State} (h : AtLoad s) (hempty : (s.pocket (s.track.pocketAt 0)).state = .empty) :
    ∃ t, exec (.indexStart false false) s = .next t ∧ s.loadsNone t ∧ t.track.loadPermit = false ∧
      t.lineCnt.loadMisses =
        (if s.track.loadPermit then satInc 4294967295 s.lineCnt.loadMisses else s.lineCnt.loadMisses) ∧
      t.line.firstFault = s.line.firstFault ∧ t.line.laterFaults = s.line.laterFaults ∧
      (t.line.state = .faulted → s.line.state = .faulted) := by
  obtain ⟨hv, hmiss⟩ := (beforeCheck_cutShort h.done false false).absent hempty
  obtain ⟨x, hexec, hends⟩ := h.ends_same rfl hv.track
  refine ⟨_, hexec, hends.loadsNone (by rw [hv.track]) (by rw [hv.track]) hv.loads (hv.only .slot0 (by decide))
    (hv.only .slot1 (by decide)), ?_, ?_, ?_⟩
  · rw [hends.transmit_track]
    rfl
  · rw [hends.transmit_lineCnt, hmiss, State.cutShort_lineCnt]
    rfl
  · rw [State.transmit_line]
    rcases hends.line with hl | ⟨-, hl⟩ <;> rw [hl, hv.line]
    · exact ⟨rfl, rfl, id⟩
    · exact ⟨rfl, rfl, fun hf => nomatch hf⟩

/-! ### A part that may not be there (R17, R19) -/

/-- With the load-permit memory clear, or with no slot for it, a part at LOAD is foreign. -/
theorem AtLoad.handleLoad_foreign {s u : State} (hu : BeforeCheck s u)
    (hempty : (s.pocket (s.track.pocketAt 0)).state = .empty)
    (hno : s.track.loadPermit = false ∨ (s.activeSlot = none ∧ s.pendingSlot = none)) :
    u.handleLoad (s.track.pocketAt 0) true = u.raiseFault .foreignPart (.pocket (s.track.pocketAt 0)) := by
  have h0 : u.slot0 = s.slot0 := hu.only .slot0 (by decide)
  have h1 : u.slot1 = s.slot1 := hu.only .slot1 (by decide)
  unfold State.handleLoad
  rw [if_neg (by rw [hu.pocket, Pocket.occupied_iff, hempty]; simp), hu.track]
  split
  · rcases hno with hno | ⟨ha, hp⟩
    · simp_all
    · have ha' : u.activeSlot = none := by rw [State.activeSlot, h0, h1]; exact ha
      have hp' : u.pendingSlot = none := by rw [State.pendingSlot, h0, h1]; exact hp
      simp [State.load, State.askSlot, hp', ha']
  · contradiction
  · rfl
  · contradiction

theorem AtLoad.foreignAtLoad {s : State} (h : AtLoad s) (hempty : (s.pocket (s.track.pocketAt 0)).state = .empty)
    (hno : s.track.loadPermit = false ∨ (s.activeSlot = none ∧ s.pendingSlot = none)) :
    ∃ t, exec (.indexStart true false) s = .next t ∧ s.loadsNone t ∧ t.lineCnt.loadMisses = s.lineCnt.loadMisses ∧
      s.foreign t (s.track.pocketAt 0) := by
  have hu := beforeCheck_cutShort h.done true false
  have hrest := h.rest.of_only hu.only (by decide)
  obtain ⟨x, hexec, hends⟩ := h.ends_same (AtLoad.handleLoad_foreign hu hempty hno)
    ((State.raiseFault_atRest hrest _ _ .track (by decide)).trans hu.track)
  obtain ⟨hnone, hmiss⟩ := hends.foreign_loadsNone hu h.rest
  refine ⟨_, hexec, hnone, ?_, hends.foreign hu⟩
  rw [hmiss, State.cutShort_lineCnt]
  rfl

theorem AtLoad.foreignAtCheck {s : State} (h : AtLoad s) (hempty : (s.pocket (s.track.pocketAt 0)).state = .empty) :
    ∃ t, exec (.indexStart false true) s = .next t ∧ s.loadsNone t ∧ s.foreign t (s.track.pocketAt s.track.checkPos) := by
  obtain ⟨hv, -⟩ := (beforeCheck_cutShort h.done false true).absent hempty
  have hrest := h.rest.of_only hv.only (by decide)
  obtain ⟨x, hexec, hends⟩ := exec_indexStart_quiet h.motion h.done h.p (h.apartHandling (.inl rfl))
    (State.handleCheck_foreign (by rw [hv.pocket]; exact h.check))
    (by rw [State.pocket_congr ((State.raiseFault_atRest hrest _ _ .track (by decide)).trans hv.track)]; exact h.decide)
  exact ⟨_, hexec, (hends.foreign_loadsNone hv h.rest).1, hends.foreign hv⟩

/-! ### A load (R15, R16, R108) -/

/-- Where no occupied pocket holds the next serial, the load takes it (R16). -/
theorem Track.loadSerial_next {t : Track} (h : ∀ p ∈ t.pockets, p.occupied = true → p.serial ≠ some t.nextSerial) :
    t.loadSerial = t.nextSerial := by
  have hheld : t.serialHeld t.nextSerial = false := by
    simp only [Track.serialHeld, List.any_eq_false, Bool.and_eq_true, beq_iff_eq, not_and]
    exact h
  unfold Track.loadSerial
  cases t.pockets.length with
  | zero => rfl
  | succ n => simp [Track.freeSerial, hheld]

theorem State.handleLoad_loads {u : State} {q : Nat} {i : SlotId} (hempty : (u.pocket q).state = .empty)
    (hpermit : u.track.loadPermit = true) (ha : u.activeSlot = some i) (hp : u.pendingSlot = none) :
    u.handleLoad q true = u.loadInto q i := by
  unfold State.handleLoad
  rw [if_neg (by rw [Pocket.occupied_iff, hempty]; simp), hpermit]
  simp [State.load, State.askSlot, hp, ha]

/-- The record of a load, as the claims write it (R15). -/
theorem loadedPocket_eq (n : Nat) (i : SlotId) (m : Nat) :
    loadedPocket n i m = justLoaded n i (if m = 0 then none else some m) := rfl

/-- The records after a load (R15). -/
theorem AtLoad.loaded_pocket {s u : State} (h : AtLoad s) (hu : BeforeCheck s u) {i : SlotId} {d : LotDef}
    (hd : (s.slot i).definition = some d) (r : Nat) :
    (u.loadInto (s.track.pocketAt 0) i).pocket r = if r = s.track.pocketAt 0 then
      justLoaded s.track.loadSerial i (if d.retryLimit = 0 then none else some d.retryLimit) else s.pocket r := by
  have hq : s.track.pocketAt 0 < u.track.pockets.length := by rw [hu.track, h.length]; exact Track.pocketAt_lt h.p 0
  rw [State.loadInto_pocket hq, hu.pocket, hu.slot, hu.track, hd, loadedPocket_eq]
  rfl

/-- A permitted part with a slot for it ends as a load: at CHECK nothing, or the pocket just loaded, is passed over. -/
theorem AtLoad.loads_ends {s : State} (h : AtLoad s) (hempty : (s.pocket (s.track.pocketAt 0)).state = .empty) {i : SlotId}
    {d : LotDef} (hpermit : s.track.loadPermit = true) (ha : s.activeSlot = some i) (hp : s.pendingSlot = none)
    (hd : (s.slot i).definition = some d) :
    ∃ x, exec (.indexStart true false) s = .next x.transmit ∧
      IndexEnds ((s.cutShort true false).loadInto (s.track.pocketAt 0) i) x := by
  have hu := beforeCheck_cutShort h.done true false
  generalize hcut : s.cutShort true false = u at hu ⊢
  have hloaded := h.loaded_pocket hu hd
  have h0 : u.slot0 = s.slot0 := hu.only .slot0 (by decide)
  have h1 : u.slot1 = s.slot1 := hu.only .slot1 (by decide)
  have ha' : u.activeSlot = some i := by rw [State.activeSlot, h0, h1]; exact ha
  have hp' : u.pendingSlot = none := by rw [State.pendingSlot, h0, h1]; exact hp
  have hcheck : (u.loadInto (s.track.pocketAt 0) i).handleCheck (s.track.pocketAt s.track.checkPos) false =
      u.loadInto (s.track.pocketAt 0) i := by
    by_cases hsame : s.track.pocketAt s.track.checkPos = s.track.pocketAt 0
    · simp [State.handleCheck, hloaded, hsame, justLoaded]
    · exact State.handleCheck_empty (by rw [hloaded, if_neg hsame]; exact h.check)
  have hload := State.handleLoad_loads (by rw [hu.pocket]; exact hempty) (by rw [hu.track]; exact hpermit) ha' hp'
  exact h.ends (by rw [hcut]; exact hload) hcheck (by rw [hloaded, if_neg h.apart])

theorem State.loadInto_loads (s : State) (q : Nat) (i : SlotId) :
    (s.loadInto q i).lineCnt.loads = bump s.lineCnt.loads := by simp [State.loadInto]

theorem AtLoad.loads {s : State} (h : AtLoad s) (hempty : (s.pocket (s.track.pocketAt 0)).state = .empty) {i : SlotId}
    {d : LotDef} (hpermit : s.track.loadPermit = true) (ha : s.activeSlot = some i) (hp : s.pendingSlot = none)
    (hd : (s.slot i).definition = some d) :
    ∃ t, exec (.indexStart true false) s = .next t ∧
      t.pocket (s.track.pocketAt 0) =
        justLoaded s.track.loadSerial i (if d.retryLimit = 0 then none else some d.retryLimit) ∧
      ((∀ p ∈ s.track.pockets, p.occupied = true → p.serial ≠ some s.track.nextSerial) →
        s.track.loadSerial = s.track.nextSerial) ∧
      (∀ r, r ≠ s.track.pocketAt 0 → t.pocket r = s.pocket r) ∧
      t.track.nextSerial = (if 4294967295 ≤ s.track.loadSerial then 1 else s.track.loadSerial + 1) ∧
      t.slot i = { s.slot i with resident := (s.slot i).resident + 1 } ∧ t.slot i.other = s.slot i.other ∧
      t.lineCnt.loads = satInc 4294967295 s.lineCnt.loads ∧ t.chutes = s.chutes ∧ t.line.state = s.line.state := by
  obtain ⟨x, hexec, hends⟩ := h.loads_ends hempty hpermit ha hp hd
  have hu := beforeCheck_cutShort h.done true false
  generalize s.cutShort true false = u at hu hends
  have hloaded := h.loaded_pocket hu hd
  have honly := u.loadInto_only (s.track.pocketAt 0) i
  obtain ⟨hslot, hother⟩ := u.loadInto_slot (s.track.pocketAt 0) i
  have hocc : ((u.loadInto (s.track.pocketAt 0) i).pocket (s.track.pocketAt 0)).occupied = true := by
    rw [hloaded, if_pos rfl]; rfl
  refine ⟨_, hexec, ?_, Track.loadSerial_next, fun r hr => ?_, ?_, ?_, ?_, ?_, ?_, ?_⟩
  · rw [hends.transmit_pocket, hloaded, if_pos rfl]
  · rw [hends.transmit_pocket, hloaded, if_neg hr]
  · rw [hends.transmit_track, Track.advance, State.loadInto_track, hu.track]
    rfl
  · rw [hends.transmit_slot, hslot, hu.slot]
  · rw [hends.transmit_slot, hother, hu.slot]
  · rw [hends.transmit_lineCnt, State.loadInto_loads, hu.loads]
    rfl
  · exact (x.transmit_only .chutes (by decide)).trans
      ((hends.only .chutes (by decide)).trans ((honly .chutes (by decide)).trans hu.chutes))
  · rw [State.transmit_line, hends.occupied _ hocc,
      show (u.loadInto (s.track.pocketAt 0) i).line = u.line from honly .line (by decide), hu.line]
    rfl

/-- Settles O14: each way of the load handling, and FOREIGN_PART at CHECK, out of the line's work alone. -/
theorem indexLoadsPart : Obligations.IndexLoadsPart := by
  unfold Obligations.IndexLoadsPart
  intro s hshape hdwell hm hw hp hd0 hdp hcp hempties
  obtain ⟨hlen, -, hphi, -, -⟩ := hshape
  have h : AtLoad s := ⟨hm, hdwell.waiting hw, hp, hlen,
    Track.pocketAt_ne (hphi hp) hdp (by omega) (by omega), hempties _ (by simp), hempties _ (by simp)⟩
  exact ⟨h.passed, fun hempty => ⟨fun i d hpermit ha hpend hd => h.loads hempty hpermit ha hpend hd, h.absent hempty,
    h.foreignAtLoad hempty, h.foreignAtCheck hempty⟩⟩

end Sys2Proof.Machine
end


-- ==== Sys2Proof/Proofs/IndexPassage.lean ====
section
/-! PROOFS. What stands through the Track Unit's work at an index start, whatever it finds at LOAD, CHECK and DECIDE: the jets,
the line's signals and timers, the counters of the line's own work, and the records elsewhere (R31, R32, R45, R142, R147). -/

namespace Sys2Proof.Machine

/-! ### The line of a moving turret -/

/-- MOVING with READY and LOADOK low and no timer but the motion timer, which runs in RUN, DRAIN and STOPPING (R31, R37). -/
structure LineCtl.Passing (m : Nat) (l : LineCtl) : Prop where
  phase : l.phase = .moving
  ready : l.ready = false
  loadOk : l.loadOk = false
  budget : l.budget = none
  stall : l.stallTimer = none
  timer : l.state.underWay = true → l.motionTimer = some m

theorem indexLine_passing (l : LineCtl) : (indexLine l).Passing (ms l.motionLimitMs) :=
  ⟨rfl, rfl, rfl, rfl, rfl, fun h => if_pos h⟩

theorem LineState.underWay_of_worked {x : LineState} (h : x.worked = true) : x.underWay = true := by
  revert h
  cases x <;> decide

theorem faultedLine_passing (k : FaultKind) (d : Detail) (l : LineCtl) (m : Nat) :
    (faultedLine true k d l).Passing m := ⟨rfl, rfl, rfl, rfl, rfl, fun h => nomatch h⟩

/-- A CHUTE_BLOCKED while the turret moves makes the line STOPPING (R39, R40). -/
theorem State.lineBlocked_passing {s : State} {m : Nat} (h : s.line.Passing m) : s.lineBlocked.line.Passing m := by
  unfold State.lineBlocked
  split
  · next hw =>
    unfold State.enterStopping
    dsimp only
    rw [if_neg (by rw [h.phase]; decide)]
    exact ⟨h.phase, rfl, rfl, h.budget, rfl, fun _ => h.timer (LineState.underWay_of_worked hw)⟩
  · exact h

theorem State.raiseFault_passing {s : State} {m : Nat} (hm : s.pins.motion = true) (h : s.line.Passing m) (k : FaultKind)
    (d : Detail) : (s.raiseFault k d).line.Passing m := by
  obtain ⟨hentry, hfaulted, hidle⟩ := s.raiseFault_line k d
  rw [hm] at hentry
  cases hs : s.line.state
  case faulted =>
    rw [hfaulted hs]
    unfold addLater
    split
    · exact h
    · exact ⟨h.phase, h.ready, h.loadOk, h.budget, h.stall, h.timer⟩
  case idle => rw [hidle hs]; exact h
  all_goals
    rw [hentry (by rw [hs]; simp [LineState.underWay])]
    exact faultedLine_passing _ _ _ _

/-! ### The passage -/

/-- t follows s in the work at an index start, which writes the records of the pockets in Q alone. -/
structure Passes (Q : Nat → Prop) (s t : State) : Prop where
  only : Only [.track, .line, .lineCnt, .slot0, .slot1, .chutes, .report, .choices] s t
  geometry : SameGeometry s t
  pocket : ∀ r, ¬Q r → t.pocket r = s.pocket r
  jets : s.jetsOff → t.jetsOff
  starts : t.lineCnt.indexStarts = s.lineCnt.indexStarts
  unpermitted : t.lineCnt.unpermitted = s.lineCnt.unpermitted
  jetCuts : s.jetsOff → s.lineCnt.jetCuts ≤ counterTop → t.lineCnt.jetCuts = s.lineCnt.jetCuts
  line : s.pins.motion = true → ∀ m, s.line.Passing m → t.line.Passing m
  event : KeepsEvent .unpermittedIndex s t

section
variable {Q : Nat → Prop}

theorem Passes.refl (s : State) : Passes Q s s :=
  ⟨.refl _ s, rfl, fun _ _ => rfl, id, rfl, rfl, fun _ _ => rfl, fun _ _ h => h, .refl _ s⟩

theorem Passes.trans {s t u : State} (h : Passes Q s t) (k : Passes Q t u) : Passes Q s u := by
  have hpins : t.pins = s.pins := h.only .pins (by decide)
  refine ⟨h.only.trans k.only, h.geometry.trans k.geometry, fun r hr => (k.pocket r hr).trans (h.pocket r hr),
    k.jets ∘ h.jets, k.starts.trans h.starts, k.unpermitted.trans h.unpermitted, fun hj hc => ?_, fun hm m hl => ?_, h.event.trans k.event⟩
  · have hsame := h.jetCuts hj hc
    exact (k.jetCuts (h.jets hj) (by rw [hsame]; exact hc)).trans hsame
  · exact k.line (by rw [hpins]; exact hm) m (h.line hm m hl)

theorem Passes.atRest {s t : State} (h : Passes Q s t) (hr : s.atRest) : t.atRest := hr.of_only h.only (by decide)

/-- Updates that leave the line and its own counters alone. -/
theorem Passes.of_parts {s t : State}
    (honly : Only [.track, .lineCnt, .slot0, .slot1, .chutes, .report, .choices] s t) (hg : SameGeometry s t)
    (hp : ∀ r, ¬Q r → t.pocket r = s.pocket r) (hj : s.jetsOff → t.jetsOff)
    (hc : t.lineCnt.indexStarts = s.lineCnt.indexStarts ∧ t.lineCnt.unpermitted = s.lineCnt.unpermitted ∧
      t.lineCnt.jetCuts = s.lineCnt.jetCuts) (hk : KeepsEvent .unpermittedIndex s t) : Passes Q s t :=
  ⟨honly.mono (by decide), hg, hp, hj, hc.1, hc.2.1, fun _ _ => hc.2.2,
    fun _ m h => by rwa [show t.line = s.line from honly .line (by decide)], hk⟩

/-- The same where the track and the chutes stand too. -/
theorem Passes.of_reports {s t : State} (honly : Only [.lineCnt, .slot0, .slot1, .report, .choices] s t)
    (hc : t.lineCnt.indexStarts = s.lineCnt.indexStarts ∧ t.lineCnt.unpermitted = s.lineCnt.unpermitted ∧
      t.lineCnt.jetCuts = s.lineCnt.jetCuts) (hk : KeepsEvent .unpermittedIndex s t) : Passes Q s t := by
  have ht : t.track = s.track := honly .track (by decide)
  refine .of_parts (honly.mono (by decide)) (.of_track ht) (fun r _ => State.pocket_congr ht r) (fun h => ?_) hc hk
  rw [State.jetsOff, show t.chutes = s.chutes from honly .chutes (by decide)]
  exact h

theorem Passes.of_lineCnt (s : State) (f : LineCounters → LineCounters)
    (hf : (f s.lineCnt).indexStarts = s.lineCnt.indexStarts ∧ (f s.lineCnt).unpermitted = s.lineCnt.unpermitted ∧
      (f s.lineCnt).jetCuts = s.lineCnt.jetCuts) : Passes Q s (s.modLineCnt f) :=
  .of_reports ((s.modLineCnt_only f).mono (by decide)) hf (.of_report (State.modLineCnt_report f s) _)

theorem Passes.of_choices (s : State) (f : Nat → Nat) : Passes Q s (s.modChoices f) :=
  .of_reports ((s.modChoices_only f).mono (by decide)) ⟨rfl, rfl, rfl⟩ (.of_report (State.modChoices_report f s) _)

theorem Passes.raise {k : EventKind} (h : k ≠ .unpermittedIndex) (s : State) (d : Detail) : Passes Q s (s.raise k d) :=
  .of_reports ((s.raise_only k d).mono (by decide)) ⟨rfl, rfl, rfl⟩ (.raise h s d)

theorem Passes.modPocket {q : Nat} (hq : Q q) (s : State) (f : Pocket → Pocket) : Passes Q s (s.modPocket q f) :=
  .of_parts ((s.modPocket_only q f).mono (by decide)) rfl
    (fun _ hr => State.modPocket_ne (by rintro rfl; exact hr hq) f) id ⟨rfl, rfl, rfl⟩
    (.of_report (State.modPocket_report s q f) _)

theorem State.bumpLotOf_passes (s : State) (q : Nat) (f : LotCounters → LotCounters) : Passes Q s (s.bumpLotOf q f) := by
  have h := s.bumpLotOf_only q f
  have hcnt : (s.bumpLotOf q f).lineCnt = s.lineCnt := h .lineCnt (by decide)
  exact .of_reports (h.mono (by decide)) (by rw [hcnt]; exact ⟨rfl, rfl, rfl⟩) (.of_report (h .report (by decide)) _)

/-! ### Chutes (R137, R142, R149) -/

theorem State.modChute_jetsOff {s : State} (h : s.jetsOff) (c : Nat) {f : Chute → Chute} (hf : ∀ e, (f e).jet = e.jet) :
    (s.modChute c f).jetsOff := by
  unfold State.modChute
  split
  · exact h
  · intro e he
    obtain ⟨n, hn⟩ := List.mem_iff_getElem?.mp he
    rw [State.modChutes_chutes, List.getElem?_modify, Option.map_eq_map, Option.map_eq_some_iff] at hn
    obtain ⟨x, hx, rfl⟩ := hn
    have hoff : x.jet = none := h x (List.mem_of_getElem? hx)
    split
    · rw [hf]; exact hoff
    · exact hoff

theorem State.account_passes (s : State) (c : Nat) {f : Chute → Chute} (hf : ∀ e, (f e).jet = e.jet) :
    Passes Q s (s.account c f) := by
  have h := s.account_only c f
  have ht : (s.account c f).track = s.track := h .track (by decide)
  have hcnt : (s.account c f).lineCnt = s.lineCnt := h .lineCnt (by decide)
  refine .of_parts (h.mono (by decide)) (.of_track ht) (fun r _ => State.pocket_congr ht r) (fun hj => ?_)
    (by rw [hcnt]; exact ⟨rfl, rfl, rfl⟩) (State.account_keeps (by decide) (by decide) s c f)
  rw [State.jetsOff, State.account_chutes]
  exact State.modChute_jetsOff hj c hf

theorem State.settleAccounts_jetsOff {s : State} (h : s.jetsOff) (q : Nat) : (s.settleAccounts q).jetsOff := by
  have account (c : Nat) {f : Chute → Chute} (hf : ∀ e, (f e).jet = e.jet) : (s.account c f).jetsOff :=
    (State.account_passes (Q := fun _ => False) s c hf).jets h
  unfold State.settleAccounts
  split
  · exact h
  · split
    case h_1 | h_2 => exact account _ fun _ => rfl
    all_goals exact h

/-! ### Commits and decisions (R121, R131 to R134, R142) -/

theorem State.lineBlocked_passes (s : State) : Passes Q s s.lineBlocked := by
  have h := s.lineBlocked_only
  have ht : s.lineBlocked.track = s.track := h .track (by decide)
  have hcnt : s.lineBlocked.lineCnt = s.lineCnt := h .lineCnt (by decide)
  refine ⟨h.mono (by decide), .of_track ht, fun r _ => State.pocket_congr ht r, fun hj => ?_, by rw [hcnt], by rw [hcnt],
    fun _ _ => by rw [hcnt], fun _ _ hl => State.lineBlocked_passing hl, .of_report (h .report (by decide)) _⟩
  rw [State.jetsOff, show s.lineBlocked.chutes = s.chutes from h .chutes (by decide)]
  exact hj

theorem State.commit_passes {q : Nat} (hq : Q q) (s : State) (t : Nat) : Passes Q s (s.commit q t) := by
  have commitTo (c : Nat) (o : Bool) : Passes Q s (s.commitTo q c o) :=
    (Passes.modPocket hq s _).trans (State.account_passes _ c fun _ => rfl)
  have hold : Passes Q s (s.holdPocket q t) :=
    ((Passes.modPocket hq s _).trans (.raise (by decide) _ _)).trans (State.lineBlocked_passes _)
  unfold State.commit
  dsimp only
  split
  · exact commitTo _ _
  · split
    · split
      · exact (commitTo _ _).trans (State.bumpLotOf_passes _ _ _)
      · exact hold
    · exact hold

theorem State.decide_passes {q : Nat} (hq : Q q) (s : State) (dec : Decision) (t : Nat)
    (f : LotCounters → LotCounters) : Passes Q s (s.decide q dec t f) :=
  ((Passes.modPocket hq s _).trans (State.bumpLotOf_passes _ _ _)).trans (State.commit_passes hq _ _)

theorem State.clearLive_passes (s : State) (q : Nat) (n : Option Nat) : Passes Q s (s.clearLive q n) :=
  .of_reports ((s.modReport_only _).mono (by decide)) ⟨rfl, rfl, rfl⟩ (s.clearLive_keeps _ q n)

theorem State.leaveDecide_passes {q : Nat} (hq : Q q) (s : State) : Passes Q s (s.leaveDecide q) := by
  unfold State.leaveDecide
  split
  · exact .refl s
  · split
    · exact (((Passes.modPocket hq s _).trans (State.clearLive_passes _ _ _)).trans
        (State.bumpLotOf_passes _ _ _)).trans (State.commit_passes hq _ _)
    · exact State.decide_passes hq s _ _ _
    · unfold State.defaultMeasuring
      split
      · unfold State.classifyLast
        split
        · exact .refl s
        · split <;> exact State.decide_passes hq s _ _ _
      · exact State.decide_passes hq s _ _ _
    all_goals exact .refl s

/-! ### Loads and checks (R15 to R20) -/

/-- With every jet OFF a fault cuts none and counts none. -/
theorem State.raiseFault_jetsOff {s : State} (h : s.atRest) (hj : s.jetsOff) (k : FaultKind) (d : Detail) :
    (s.raiseFault k d).jetsOff ∧
      (s.lineCnt.jetCuts ≤ counterTop → (s.raiseFault k d).lineCnt.jetCuts = s.lineCnt.jetCuts) := by
  have entry : (s.faultEntry k d).jetsOff ∧
      (s.lineCnt.jetCuts ≤ counterTop → (s.faultEntry k d).lineCnt.jetCuts = s.lineCnt.jetCuts) := by
    have hcut : (s.modLine (faultedLine s.pins.motion k d)).atRest := h.of_only (s.modLine_only _) (by decide)
    unfold State.faultEntry
    rw [State.cutDwell_atRest hcut, State.cutJets_off (s := s.modLine (faultedLine s.pins.motion k d)) hj]
    exact ⟨hj, fun hle => Nat.min_eq_right hle⟩
  unfold State.raiseFault
  split
  · exact entry
  · exact entry
  · exact entry
  · exact entry
  · exact ⟨hj, fun _ => rfl⟩
  · exact ⟨hj, fun _ => rfl⟩

theorem State.raiseFault_passes {k : FaultKind} {s : State} (h : s.atRest) (d : Detail) : Passes Q s (s.raiseFault k d) := by
  have honly := State.raiseFault_atRest h k d
  have ht : (s.raiseFault k d).track = s.track := honly .track (by decide)
  have hne : k.event ≠ .unpermittedIndex := by cases k <;> decide
  obtain ⟨n, hcnt⟩ := s.raiseFault_lineCnt k d
  exact ⟨honly.mono (by decide), .of_track ht, fun r _ => State.pocket_congr ht r,
    fun hj => (State.raiseFault_jetsOff h hj k d).1, by rw [hcnt], by rw [hcnt],
    fun hj => (State.raiseFault_jetsOff h hj k d).2, fun hm _ hl => State.raiseFault_passing hm hl k d,
    (KeepsEvent.raise hne s d).trans (.of_report (s.raiseFault_report k d) _)⟩

theorem countFinish_counts (o : Finish) (c : LineCounters) : (countFinish o c).indexStarts = c.indexStarts ∧
    (countFinish o c).unpermitted = c.unpermitted ∧ (countFinish o c).jetCuts = c.jetCuts := by
  cases o <;> exact ⟨rfl, rfl, rfl⟩

theorem State.finish_passes {q : Nat} (hq : Q q) (s : State) (o : Finish) : Passes Q s (s.finish q o) := by
  obtain ⟨m, n, hcnt⟩ := s.finish_counts q o
  refine .of_parts ((s.finish_only q o).mono (by decide)) (s.finish_geometry q o)
    (fun r hr => s.finish_pocket_ne (by rintro rfl; exact hr hq) o) (fun hj => ?_)
    (by rw [hcnt]; exact countFinish_counts o _) (State.finish_keeps (by decide) (by decide) s q o)
  rw [State.jetsOff, State.finish_chutes]
  exact State.settleAccounts_jetsOff hj q

theorem State.changeOver_passes (s : State) (i : SlotId) (q : Nat) : Passes Q s (s.changeOver i q) := by
  have leave (a : SlotId) : Passes Q s (s.leaveActive a) := by
    unfold State.leaveActive
    split
    · obtain ⟨n, hcnt⟩ := s.retire_lineCnt a .drained
      exact .of_reports ((s.retire_only a .drained).mono (by decide)) (by rw [hcnt]; exact ⟨rfl, rfl, rfl⟩)
        (s.retire_keeps _ a .drained)
    · exact .of_reports ((s.modSlot_only _ _).mono (by decide)) (by rw [State.modSlot_lineCnt]; exact ⟨rfl, rfl, rfl⟩)
        (.of_report (State.modSlot_report _ _ _) _)
  have activate (t : State) : Passes Q t (t.modSlot i (LotSlot.activate t.cal.working.number)) :=
    .of_reports ((t.modSlot_only _ _).mono (by decide)) (by rw [State.modSlot_lineCnt]; exact ⟨rfl, rfl, rfl⟩)
      (.of_report (State.modSlot_report _ _ _) _)
  unfold State.changeOver
  dsimp only
  split
  · exact ((leave _).trans (activate _)).trans (.raise (by decide) _ _)
  · exact (activate s).trans (.raise (by decide) _ _)

theorem State.askSlot_passes (s : State) (q : Nat) : Passes Q s (s.askSlot q) := by
  unfold State.askSlot
  split
  · exact s.changeOver_passes _ _
  · exact .refl s

theorem State.loadInto_passes {q : Nat} (hq : Q q) (s : State) (i : SlotId) : Passes Q s (s.loadInto q i) := by
  have slot (t : State) : Passes Q t (t.modSlot i fun sl => { sl with resident := sl.resident + 1 }) :=
    .of_reports ((t.modSlot_only _ _).mono (by decide)) (by rw [State.modSlot_lineCnt]; exact ⟨rfl, rfl, rfl⟩)
      (.of_report (State.modSlot_report _ _ _) _)
  have serial (t : State) (n : Nat) : Passes Q t (t.modTrack fun x => { x with nextSerial := n }) :=
    .of_parts ((t.modTrack_only _).mono (by decide)) rfl (fun _ _ => rfl) id ⟨rfl, rfl, rfl⟩
      (.of_report (State.modTrack_report _ _) _)
  unfold State.loadInto
  exact (((Passes.modPocket hq s _).trans (serial _ _)).trans (slot _)).trans (.of_lineCnt _ _ ⟨rfl, rfl, rfl⟩)

theorem State.handleLoad_passes {q : Nat} (hq : Q q) {s : State} (h : s.atRest) (sensed : Bool) :
    Passes Q s (s.handleLoad q sensed) := by
  unfold State.handleLoad
  split
  · exact .refl s
  · split
    · have hask : Passes Q s (s.askSlot q) := s.askSlot_passes q
      unfold State.load
      dsimp only
      split
      · exact hask.trans (State.loadInto_passes hq _ _)
      · exact hask.trans (State.raiseFault_passes (hask.atRest h) _)
    · exact .of_lineCnt s _ ⟨rfl, rfl, rfl⟩
    · exact State.raiseFault_passes h _
    · exact .refl s

theorem missedPlace_jet (e : Chute) : (missedPlace e).jet = e.jet := by
  unfold missedPlace
  split <;> rfl

theorem State.handleCheck_passes {q : Nat} (hq : Q q) {s : State} (h : s.atRest) (sensed : Bool) :
    Passes Q s (s.handleCheck q sensed) := by
  have lost : Passes Q s ((s.raise .partLost (.pocket q)).finish q .lost) :=
    (Passes.raise (by decide) s _).trans (State.finish_passes hq _ _)
  have lap : Passes Q s (s.modPocket q Pocket.secondLap) := .modPocket hq s _
  unfold State.handleCheck
  split
  · exact State.raiseFault_passes h _
  · exact .refl s
  · exact State.finish_passes hq s _
  · have hmiss (c : Nat) : Passes Q s (s.missAt q c) :=
      (Passes.modPocket hq s _).trans (State.account_passes _ c missedPlace_jet)
    rw [State.ejectMiss_eq]
    split
    · exact hmiss _
    · exact (hmiss _).trans (State.raiseFault_passes ((hmiss _).atRest h) _)
  · exact lost
  · exact lap
  · exact lost
  · exact lap
  all_goals exact .refl s

end

/-- The pockets at LOAD, DECIDE and CHECK. -/
def State.AtWork (s : State) (q : Nat) : Prop := ∃ pos ∈ [0, s.track.decidePos, s.track.checkPos], q = s.track.pocketAt pos

theorem State.handleBoth_passes {s : State} (h : s.atRest) (ls cs : Bool) : Passes s.AtWork s (s.handleBoth ls cs) := by
  have hl : s.AtWork (s.track.pocketAt 0) := ⟨0, by simp, rfl⟩
  have hc : s.AtWork (s.track.pocketAt s.track.checkPos) := ⟨s.track.checkPos, by simp, rfl⟩
  have load := State.handleLoad_passes hl h ls
  have check := State.handleCheck_passes hc h cs
  have loadCheck := load.trans (State.handleCheck_passes hc (load.atRest h) cs)
  unfold State.handleBoth
  dsimp only
  split
  · split
    · exact loadCheck.trans (.of_choices _ _)
    · exact (check.trans (State.handleLoad_passes hl (check.atRest h) ls)).trans (.of_choices _ _)
  · exact loadCheck

/-- The Track Unit's work is a passage and the advance (R7, R14). -/
theorem State.trackIndex_passes {s : State} (h : s.atRest) (ls cs : Bool) :
    ∃ w, Passes s.AtWork s w ∧ (s.track.p = 0 → w = s) ∧ s.trackIndex ls cs = w.modTrack Track.advance := by
  unfold State.trackIndex
  split
  · exact ⟨s, .refl s, fun _ => rfl, rfl⟩
  · next hp =>
    have hboth := State.handleBoth_passes h ls cs
    refine ⟨_, hboth.trans (State.leaveDecide_passes ?_ _), fun h0 => absurd h0 hp, rfl⟩
    have hgeo := hboth.geometry
    refine ⟨s.track.decidePos, by simp, ?_⟩
    rw [hgeo.pocketAt, show (s.handleBoth ls cs).track.decidePos = s.track.decidePos by rw [hgeo]]

end Sys2Proof.Machine
end


-- ==== Sys2Proof/Proofs/IndexStart.lean ====
section
/-! PROOFS. INDEX_START in every line state (R7, R31, R32, R71, R82, R86, R147, R162, R164). -/

namespace Sys2Proof.Machine

theorem State.cutShort_jetsOff (s : State) (ls cs : Bool) : (s.cutShort ls cs).jetsOff := State.cutJets_jetsOff _

/-- The periodic check flags judged, as the claim writes them (R162). -/
theorem Cal.judgeFlags_eq (interval k : Nat) (c : Cal) : Cal.judgeFlags interval k c = { c with
    flagA := c.flagA || (interval != 0 && k % interval == 0)
    flagB := c.flagB || (interval != 0 && k % interval == interval / 2) } := by
  unfold Cal.judgeFlags
  split
  · next h => simp [h]
  · next h => simp [bne_iff_ne.mpr h]

theorem LineCtl.Passing.drained {m : Nat} {l : LineCtl} (h : l.Passing m) :
    ({ l with state := .idle, motionTimer := none } : LineCtl).Passing m :=
  ⟨h.phase, h.ready, h.loadOk, h.budget, h.stall, fun hu => nomatch hu⟩

theorem IndexEnds.passing {w x : State} {m : Nat} (hx : IndexEnds w x) (h : w.line.Passing m) : x.line.Passing m := by
  rcases hx.line with hl | ⟨-, hl⟩ <;> rw [hl]
  · exact h
  · exact h.drained

/-- An index start is all that is cut short, the Track Unit's passage, and its end. -/
theorem State.indexStart_passage (s : State) (ls cs : Bool) :
    ∃ w, Passes (s.cutShort ls cs).AtWork (s.cutShort ls cs) w ∧ (s.track.p = 0 → w = s.cutShort ls cs) ∧
      IndexEnds w (s.indexStart ls cs) ∧
      (s.indexStart ls cs).cal = w.cal.judgeFlags w.shared.interval w.track.advance.k := by
  obtain ⟨w, hw, hzero, heq⟩ := State.trackIndex_passes (s.cutShort_rests ls cs) ls cs
  have hp : (s.cutShort ls cs).track.p = s.track.p := (s.cutShort_evolves ls cs).sameGeometry.p
  refine ⟨w, hw, by rw [hp] at hzero; exact hzero, ?_, ?_⟩ <;> rw [State.indexStart_eq, heq]
  · exact indexEnds w _ _
  · exact State.judgeDrained_only _ .cal (by decide)

section
variable {s w x : State} {ls cs : Bool}

/-- The line's signals and timers after an index start (R31, R37). -/
theorem IndexEnds.line_after (hx : IndexEnds w x) (hw : Passes (s.cutShort ls cs).AtWork (s.cutShort ls cs) w) :
    x.line.Passing (ms s.line.motionLimitMs) := by
  refine hx.passing (hw.line (s.cutShort_motion ls cs) _ ?_)
  rw [State.cutShort_line]
  exact indexLine_passing s.line

/-- The line's counters after an index start (R31, R32, R147). -/
theorem Passes.counts_after (hw : Passes (s.cutShort ls cs).AtWork (s.cutShort ls cs) w) :
    w.lineCnt.indexStarts = bump s.lineCnt.indexStarts ∧
      w.lineCnt.unpermitted = (if s.line.unpermitted then bump s.lineCnt.unpermitted else s.lineCnt.unpermitted) ∧
      w.lineCnt.jetCuts = min counterTop (s.lineCnt.jetCuts + s.pulsingCount) := by
  have hcnt := s.cutShort_lineCnt ls cs
  have hcuts := hw.jetCuts (s.cutShort_jetsOff ls cs) (by rw [hcnt]; exact Nat.min_le_left ..)
  rw [hw.starts, hw.unpermitted, hcuts, hcnt]
  exact ⟨rfl, rfl, rfl⟩

/-- The blocks outside the passage are as what was cut short leaves them. -/
theorem IndexEnds.blocks_after (hx : IndexEnds w x) (hw : Passes (s.cutShort ls cs).AtWork (s.cutShort ls cs) w) :
    Only [.track, .line, .lineCnt, .slot0, .slot1, .chutes, .cal, .report, .choices] (s.cutShort ls cs) x.transmit :=
  ((hw.only.mono (by decide)).trans (hx.only.mono (by decide))).trans (x.transmit_only.mono (by decide))

/-- UNPERMITTED_INDEX is raised once by an unpermitted index (R32, R184). -/
theorem IndexEnds.notes_unpermitted (hx : IndexEnds w x) (hw : Passes (s.cutShort ls cs).AtWork (s.cutShort ls cs) w)
    (h : s.line.unpermitted = true) : s.notes x.transmit .unpermittedIndex .none := by
  have hcut : KeepsEvent .unpermittedIndex (s.raise .unpermittedIndex .none) (s.cutShort ls cs) :=
    .of_report (by rw [State.cutShort_report, if_pos h]) _
  exact State.notes_of_raise (.refl _ s) rfl ((hcut.trans hw.event).trans (.of_report (hx.only .report (by decide)) _))

theorem IndexEnds.keeps_unpermitted (hx : IndexEnds w x) (hw : Passes (s.cutShort ls cs).AtWork (s.cutShort ls cs) w)
    (h : s.line.unpermitted = false) (hsend : s.report.tx ≠ none ∨ s.report.masked .unpermittedIndex = true) :
    x.transmit.report.event .unpermittedIndex = s.report.event .unpermittedIndex := by
  have hcut : KeepsEvent .unpermittedIndex s (s.cutShort ls cs) :=
    .of_report (by rw [State.cutShort_report, if_neg (by rw [h]; decide)]) _
  exact ((hcut.trans hw.event).trans (.of_report (hx.only .report (by decide)) _)).transmit hsend

/-- A pocket that stands at none of LOAD, DECIDE and CHECK keeps what was cut short left in it (R7). -/
theorem IndexEnds.pocket_after (hx : IndexEnds w x) (hw : Passes (s.cutShort ls cs).AtWork (s.cutShort ls cs) w)
    (hzero : s.track.p = 0 → w = s.cutShort ls cs) {q : Nat}
    (hq : s.track.p = 0 ∨ ∀ pos ∈ [0, s.track.decidePos, s.track.checkPos], q ≠ s.track.pocketAt pos) :
    x.transmit.pocket q = (s.cutShort ls cs).pocket q := by
  rw [hx.transmit_pocket]
  rcases hq with h0 | hq
  · rw [hzero h0]
  · refine hw.pocket q ?_
    have hgeo := (s.cutShort_evolves ls cs).sameGeometry
    rintro ⟨pos, hpos, rfl⟩
    rw [show (s.cutShort ls cs).track.decidePos = s.track.decidePos by rw [hgeo],
      show (s.cutShort ls cs).track.checkPos = s.track.checkPos by rw [hgeo]] at hpos
    exact hq pos hpos (hgeo.pocketAt pos)

/-- The track after an index start (R7, R14). -/
theorem IndexEnds.track_after (hx : IndexEnds w x) (hw : Passes (s.cutShort ls cs).AtWork (s.cutShort ls cs) w) :
    x.transmit.track = { s.track.advance with pockets := w.track.pockets, nextSerial := w.track.nextSerial } := by
  have hgeo : SameGeometry s w := (s.cutShort_evolves ls cs).sameGeometry.trans hw.geometry
  rw [hx.transmit_track, hgeo]
  rfl

end

/-- The pockets that a job cut short named. -/
theorem State.cutShort_pocket (s : State) (ls cs : Bool) (q : Nat) :
    (s.cutShort ls cs).pocket q = (s.indexLineWork ls cs).cutDwell.pocket q :=
  State.pocket_congr (State.cutJets_only _ .track (by decide)) q

theorem State.cutShort_pocket_named {s : State} {ch : Chan} {j : Job} {i q g : Nat} (hj : (s.chan ch).job = some j)
    (hk : j.kind = .station i q g) (hq : q < s.track.pockets.length) (hother : ¬(s.chan (chanOther ch)).names q)
    (ls cs : Bool) : (s.cutShort ls cs).pocket q =
      { s.pocket q with attempts := (s.pocket q).attempts ++ [⟨i, ch, g, .cut, none, none⟩] } := by
  have honly := s.indexLineWork_only ls cs
  have hchan : ∀ y, (s.indexLineWork ls cs).chan y = s.chan y :=
    State.chan_congr (honly .chanA (by decide)) (honly .chanB (by decide))
  have ht : (s.indexLineWork ls cs).track = s.track := honly .track (by decide)
  rw [State.cutShort_pocket, State.cutDwell_pocket_named (by rw [hchan]; exact hj) hk (by rw [ht]; exact hq)
    (by rw [hchan]; exact hother), State.pocket_congr ht]

/-- Settles O13: what is cut short, what stands through the Track Unit's passage, and the end of the index start. -/
theorem indexStartWork : Obligations.IndexStartWork := by
  unfold Obligations.IndexStartWork
  intro ls cs s
  refine ⟨fun hm hquiet => ?_, fun hm => ?_⟩
  · simp [exec, execIndexStart, hm, State.transmit_quiet hquiet]
  obtain ⟨w, hw, hzero, hx, hcal⟩ := s.indexStart_passage ls cs
  have hexec := exec_indexStart hm ls cs
  generalize s.indexStart ls cs = x at hx hcal hexec
  have hblocks := hx.blocks_after hw
  have hcut := s.cutShort_only ls cs
  have hline : x.transmit.line.Passing (ms s.line.motionLimitMs) := by rw [State.transmit_line]; exact hx.line_after hw
  have hpins : x.transmit.pins = (s.cutShort ls cs).pins := hblocks .pins (by decide)
  have hchan (ch : Chan) : x.transmit.chan ch = (s.cutShort ls cs).chan ch :=
    State.chan_congr (hblocks .chanA (by decide)) (hblocks .chanB (by decide)) ch
  have hsched : x.transmit.sched = (s.cutShort ls cs).sched := hblocks .sched (by decide)
  have hchutes : x.transmit.chutes = w.chutes := (x.transmit_only .chutes (by decide)).trans (hx.only .chutes (by decide))
  have hcalAfter : x.transmit.cal = Cal.judgeFlags w.shared.interval w.track.advance.k w.cal :=
    (x.transmit_only .cal (by decide)).trans hcal
  have hshared : w.shared = s.shared := (hw.only .shared (by decide)).trans (hcut .shared (by decide))
  have hcal' : w.cal = s.cal := (hw.only .cal (by decide)).trans (hcut .cal (by decide))
  obtain ⟨hstarts, hunpermitted, hjets⟩ := hw.counts_after
  obtain ⟨hjobA, hjobB, hrequests⟩ := s.cutShort_rests ls cs
  have htrack := hx.track_after hw
  have hcnt := hx.transmit_lineCnt
  have hk : w.track.advance.k = (s.track.k + 1) % 4294967296 := by rw [← hx.transmit_track, htrack]; rfl
  refine ⟨_, hexec, by rw [hpins]; exact s.cutShort_motion ls cs, hline.phase, hline.ready, hline.loadOk, hline.budget,
    hline.stall, hline.timer, by rw [hcnt, hstarts]; rfl, by rw [hcnt, hunpermitted]; rfl,
    hx.notes_unpermitted hw, hx.keeps_unpermitted hw, (congrArg Channel.job (hchan .A)).trans hjobA,
    (congrArg Channel.job (hchan .B)).trans hjobB, by rw [hsched]; exact hrequests,
    by rw [hchutes]; exact hw.jets (s.cutShort_jetsOff ls cs), fun ch => ?_, ?_, by rw [hcnt, hjets]; rfl,
    by rw [htrack]; rfl, fun hp => ?_, by rw [htrack]; rfl, by rw [htrack]; rfl, by rw [htrack]; rfl, by rw [htrack]; rfl,
    by rw [htrack]; rfl, (hblocks .shared (by decide)).trans (hcut .shared (by decide)),
    (hblocks .temp (by decide)).trans (hcut .temp (by decide)), (hblocks .link (by decide)).trans (hcut .link (by decide)),
    (hblocks .linkCnt (by decide)).trans (hcut .linkCnt (by decide)), ?_⟩
  · rw [hchan, State.cutShort_chan_cnt]
    rfl
  · intro ch j i q g hj hk hq hother hpos
    rw [hx.pocket_after hw hzero hpos]
    refine State.cutShort_pocket_named hj hk hq ?_ ls cs
    rintro ⟨j', hj', i', g', hk'⟩
    exact hother j' i' g' hj' hk'
  · rw [htrack]
    exact if_neg hp
  · rw [hcalAfter, Cal.judgeFlags_eq, hk, hshared, hcal']

end Sys2Proof.Machine
end


-- ==== Sys2Proof/Proofs/Purge.lean ====
section
/-! PROOFS. POCKET.PURGE (R22, R23, R113, R149, R183): a pocket purged, pockets purged in turn, and the replies. -/

namespace Sys2Proof.Machine

/-! ### The table as the list of its records -/

theorem State.pockets_eq (s : State) : s.track.pockets = (List.range s.track.pockets.length).map s.pocket := by
  refine List.ext_getElem (by simp) fun n h _ => ?_
  simp [State.pocket, List.getD_eq_getElem?_getD, List.getElem?_eq_getElem h]

theorem State.countP_pockets (s : State) (P : Pocket → Bool) :
    s.track.pockets.countP P = (List.range s.track.pockets.length).countP fun q => P (s.pocket q) := by
  conv_lhs => rw [s.pockets_eq]
  rw [List.countP_map]
  rfl

/-! ### Pockets purged in turn (R23) -/

/-- The record of a pocket that a purge reaches. -/
def Pocket.purged (p : Pocket) : Pocket := if p.state = .empty then p else .emptied

/-- A DECIDED pocket committed to chute c, whose purge gives back a place (R149). -/
def Pocket.promisedTo (c : Nat) (p : Pocket) : Bool := p.state == .decided && p.chute == some c

/-- An EJECTED pocket on its way to chute c, whose purge confirms the part (R149). -/
def Pocket.travelsTo (c : Nat) (p : Pocket) : Bool := p.state == .ejected && p.chute == some c

/-- t is s with the pockets of l purged. -/
structure Purged (l : List Nat) (s t : State) : Prop where
  only : Only [.track, .slot0, .slot1, .chutes, .report, .lineCnt] s t
  track : t.track = { s.track with pockets := t.track.pockets }
  length : t.track.pockets.length = s.track.pockets.length
  pocket : ∀ r, t.pocket r = if r ∈ l then (s.pocket r).purged else s.pocket r
  chutes : t.chutes.length = s.chutes.length
  chute : ∀ c, 1 ≤ c → c ≤ s.chutes.length → t.chute c = { s.chute c with
    inFlight := (s.chute c).inFlight - l.countP fun q => (s.pocket q).promisedTo c
    oldBox := (s.chute c).oldBox - l.countP fun q => (s.pocket q).travelsTo c }
  part : s.report.part.length ≤ 64 →
    t.report.part.length = min 64 (s.report.part.length + l.countP fun q => (s.pocket q).occupied)
  count : s.lineCnt.purged + (l.countP fun q => (s.pocket q).occupied) ≤ counterTop →
    t.lineCnt.purged = s.lineCnt.purged + l.countP fun q => (s.pocket q).occupied
  tx : t.report.tx = s.report.tx

theorem Purged.nil (s : State) : Purged [] s s :=
  ⟨.refl _ s, rfl, rfl, fun _ => rfl, rfl, fun _ _ _ => rfl, fun h => (Nat.min_eq_right h).symm, fun _ => rfl, rfl⟩

theorem Purged.cons {q : Nat} {l : List Nat} {s t u : State} (h : Purged [q] s t) (k : Purged l t u) (hq : q ∉ l) :
    Purged (q :: l) s u := by
  have hsame (P : Pocket → Bool) : (l.countP fun r => P (t.pocket r)) = l.countP fun r => P (s.pocket r) := by
    refine List.countP_congr fun r hr => ?_
    rw [h.pocket, if_neg]
    rintro hm
    exact hq (List.mem_singleton.mp hm ▸ hr)
  have hcount (P : Pocket → Bool) : ((q :: l).countP fun r => P (s.pocket r)) =
      ([q].countP fun r => P (s.pocket r)) + l.countP fun r => P (t.pocket r) := by
    rw [hsame, ← List.countP_append]; rfl
  refine ⟨h.only.trans k.only, by rw [k.track, h.track], k.length.trans h.length, fun r => ?_, k.chutes.trans h.chutes,
    fun c h1 h2 => ?_, fun hle => ?_, fun hle => ?_, k.tx.trans h.tx⟩
  · rw [k.pocket, h.pocket]
    by_cases hr : r = q
    · subst hr; simp [hq]
    · simp [hr]
  · rw [k.chute c h1 (by rw [h.chutes]; exact h2), h.chute c h1 h2, hcount (Pocket.promisedTo c), hcount (Pocket.travelsTo c),
      Nat.sub_add_eq, Nat.sub_add_eq]
  · have hone := h.part hle
    rw [k.part (by omega), hone, hcount Pocket.occupied]
    omega
  · rw [hcount Pocket.occupied] at hle ⊢
    have hone := h.count (by omega)
    rw [k.count (by omega), hone, Nat.add_assoc]

/-! ### One pocket (R22, R149) -/

theorem State.settleAccounts_chutes_length (s : State) (q : Nat) : (s.settleAccounts q).chutes.length = s.chutes.length := by
  have account (c : Nat) (f : Chute → Chute) : (s.account c f).chutes.length = s.chutes.length := by
    rw [State.account_chutes, State.modChute]
    split
    · rfl
    · rw [State.modChutes_chutes, List.length_modify]
  unfold State.settleAccounts
  split
  · rfl
  · split
    case h_1 | h_2 => exact account _ _
    all_goals rfl

/-- An account of the chute that a pocket's field names, seen at any chute. -/
theorem State.account_chute {s : State} {c : Nat} (h1 : 1 ≤ c) (h2 : c ≤ s.chutes.length) (x : Nat) (f : Chute → Chute) :
    (s.account x f).chute c = if x = c then f (s.chute c) else s.chute c := by
  rw [State.chute_congr (s.account_chutes x f)]
  split
  · next h => subst h; exact State.modChute_same h1 h2 f
  · next h => exact State.modChute_ne (Ne.symm h) f

/-- What the settlement of a pocket's account leaves at any chute (R149). -/
theorem State.settleAccounts_chute {s : State} {c : Nat} (h1 : 1 ≤ c) (h2 : c ≤ s.chutes.length) (q : Nat) :
    (s.settleAccounts q).chute c = { s.chute c with
      inFlight := (s.chute c).inFlight - if (s.pocket q).promisedTo c then 1 else 0
      oldBox := (s.chute c).oldBox - if (s.pocket q).travelsTo c then 1 else 0 } := by
  unfold State.settleAccounts
  split
  · next h => simp [Pocket.promisedTo, Pocket.travelsTo, h]
  · next x h =>
    split
    case h_1 hs =>
      rw [State.releasePlace, State.account_chute h1 h2]
      by_cases hx : x = c <;> simp [Pocket.promisedTo, Pocket.travelsTo, h, hs, hx]
    case h_2 hs =>
      rw [State.confirmPart, State.account_chute h1 h2]
      by_cases hx : x = c <;> simp [Pocket.promisedTo, Pocket.travelsTo, h, hs, hx]
    all_goals
      next hs => simp [Pocket.promisedTo, Pocket.travelsTo, hs]

theorem purgePocket_purged (s : State) (q : Nat) : Purged [q] s (s.purgePocket q) := by
  unfold State.purgePocket
  split
  · next ho =>
    obtain ⟨m, n, hcnt⟩ := s.finish_counts q .purged
    have htrack := s.finish_track q .purged
    have hstate := (Pocket.occupied_iff _).mp ho
    have hchute (c : Nat) := State.chute_congr (s.finish_chutes q .purged) c
    refine ⟨s.finish_only q .purged, by rw [htrack]; rfl, by rw [htrack, State.modPocket_length], fun r => ?_,
      by rw [State.finish_chutes, State.settleAccounts_chutes_length], fun c h1 h2 => ?_, fun hle => ?_, fun hle => ?_,
      (State.finish_keeps (k := .jam) (by decide) (by decide) s q .purged).tx⟩
    · split
      · next hr =>
        rw [List.mem_singleton.mp hr, State.finish_pocket_same, Pocket.purged, if_neg hstate]
      · next hr => exact s.finish_pocket_ne (fun he => hr (List.mem_singleton.mpr he)) .purged
    · rw [hchute, State.settleAccounts_chute h1 h2]
      simp [List.countP_singleton]
    · rw [State.finish_part_length hle]
      simp [ho]
    · rw [hcnt]
      simp only [List.countP_singleton, ho, if_true] at hle ⊢
      exact if_pos (show s.lineCnt.purged < counterTop by omega)
  · next ho =>
    have hstate : (s.pocket q).state = .empty := (Pocket.unoccupied_iff _).mp (by simpa using ho)
    refine ⟨.refl _ s, rfl, rfl, fun r => ?_, rfl, fun c _ _ => ?_, fun hle => ?_, fun _ => ?_, rfl⟩
    · split
      · next hr => rw [List.mem_singleton.mp hr, Pocket.purged, if_pos hstate]
      · rfl
    · simp [Pocket.promisedTo, Pocket.travelsTo, hstate]
    · simp [ho, hle]
    · simp [ho]

/-- Pockets named once each are purged one after the other (R23). -/
theorem purgePockets_purged {l : List Nat} (h : l.Nodup) (s : State) : Purged l s (l.foldl State.purgePocket s) := by
  induction l generalizing s with
  | nil => exact .nil s
  | cons q l ih =>
    obtain ⟨hq, hl⟩ := List.nodup_cons.mp h
    exact (purgePocket_purged s q).cons (ih hl _) hq

/-! ### The request (R23) -/

theorem exec_pocketPurge (tag : Byte) (q : Nat) (s : State) :
    exec (.pocketPurge tag q) s = .next (s.ask tag (.pocketPurge q) (State.pocketPurge q)).transmit := rfl

/-- An answer that leaves the part and its reports alone. -/
theorem exec_pocketPurge_answer {s : State} {q : Nat} {a : Answer} (h : s.taking) (tag : Byte)
    (ho : s.pocketPurge q = (a, s)) :
    exec (.pocketPurge tag q) s = .next (s.replied (replyFrame 0x19#8 tag a.status a.fields)) := by
  rw [exec_pocketPurge, State.ask_answer h tag _ ho rfl]
  rfl

/-- An answer behind a frame being sent: the reply waits in its slot (R180). -/
theorem exec_pocketPurge_sending {s t : State} {q : Nat} {a : Answer} {f : Frame} (h : s.taking) (tag : Byte)
    (ho : s.pocketPurge q = (a, t)) (hx : t.report.tx = some f) :
    exec (.pocketPurge tag q) s = .next (t.place (replyFrame 0x19#8 tag a.status a.fields)) := by
  have hsend : (t.place (replyFrame 0x19#8 tag a.status a.fields)).report.tx = some f := hx
  rw [exec_pocketPurge, State.ask_taken h.1, ho]
  exact congrArg _ (State.transmit_sending hsend)

section
variable {s : State} {q : Nat}

theorem State.pocketPurge_notReady (h : s.track.p = 0) (q : Nat) : s.pocketPurge q = (.notReady, s) := if_pos h

theorem State.pocketPurge_busy (h : s.track.p ≠ 0) (h1 : s.line.state ≠ .stopped) (h2 : s.line.state ≠ .faulted) (q : Nat) :
    s.pocketPurge q = (.busy, s) := by
  simp [State.pocketPurge, h, h1, h2]

theorem State.pocketPurge_bad (h : s.track.p ≠ 0) (hl : s.line.state = .stopped ∨ s.line.state = .faulted)
    (h1 : s.track.p ≤ q) (h2 : q ≠ 255) : s.pocketPurge q = (.bad 1, s) := by
  simp [State.pocketPurge, h, hl, h2, Nat.not_lt.mpr h1]

theorem State.pocketPurge_taken (h : s.track.p ≠ 0) (hl : s.line.state = .stopped ∨ s.line.state = .faulted)
    (hq : q < s.track.p ∨ q = 255) : s.pocketPurge q =
      (.ok (le 1 ((s.purged q).countP fun r => (s.pocket r).occupied)), (s.purged q).foldl State.purgePocket s) := by
  simp [State.pocketPurge, h, hl, hq]

theorem State.pocketPurge_empty (h : s.track.p ≠ 0) (hl : s.line.state = .stopped ∨ s.line.state = .faulted)
    (hq : q < s.track.p) (hall : q ≠ 255) (he : (s.pocket q).state = .empty) : s.pocketPurge q = (.ok (le 1 0), s) := by
  have ho := (Pocket.unoccupied_iff _).mpr he
  rw [State.pocketPurge_taken h hl (.inl hq), State.purged, if_neg hall]
  simp [State.purgePocket, ho]

theorem State.pocketPurge_one (h : s.track.p ≠ 0) (hl : s.line.state = .stopped ∨ s.line.state = .faulted)
    (hq : q < s.track.p) (hall : q ≠ 255) (ho : (s.pocket q).occupied = true) :
    s.pocketPurge q = (.ok (le 1 1), s.finish q .purged) := by
  rw [State.pocketPurge_taken h hl (.inl hq), State.purged, if_neg hall]
  simp [State.purgePocket, ho]

/-- One occupied pocket named, behind a frame being sent. -/
theorem exec_pocketPurge_one {f : Frame} (ht : s.taking) (tag : Byte) (h : s.track.p ≠ 0)
    (hl : s.line.state = .stopped ∨ s.line.state = .faulted) (hq : q < s.track.p) (hall : q ≠ 255)
    (ho : (s.pocket q).occupied = true) (hx : s.report.tx = some f) :
    exec (.pocketPurge tag q) s = .next ((s.finish q .purged).place ⟨0x99#8, tag, [0x00#8, 0x01#8]⟩) := by
  have hkeep : KeepsEvent .jam s (s.finish q .purged) := State.finish_keeps (by decide) (by decide) s q .purged
  exact exec_pocketPurge_sending ht tag (State.pocketPurge_one h hl hq hall ho) (hkeep.tx.trans hx)

end

/-- ALL pockets purged (R23). -/
theorem State.purgeAll_purged {s : State} (hlen : s.track.pockets.length = s.track.p) :
    Purged (List.range s.track.pockets.length) s ((s.purged 255).foldl State.purgePocket s) := by
  rw [State.purged, if_pos rfl, ← hlen]
  exact purgePockets_purged List.nodup_range s

/-- The table with ALL its pockets purged. -/
theorem Purged.track_all {s t : State} (h : Purged (List.range s.track.pockets.length) s t) :
    t.track = { s.track with pockets := s.track.pockets.map Pocket.purged } := by
  have hpockets : t.track.pockets = s.track.pockets.map Pocket.purged := by
    rw [t.pockets_eq, h.length]
    conv_rhs => rw [s.pockets_eq]
    rw [List.map_map]
    refine List.map_congr_left fun q hq => ?_
    rw [h.pocket, if_pos hq]
    rfl
  rw [h.track, hpockets]

/-- Settles O48: each refusal, a finish PURGED of one pocket, and the pockets purged in turn. -/
theorem purgeTaken : Obligations.PurgeTaken := by
  unfold Obligations.PurgeTaken
  intro tag q s ht
  refine ⟨fun hp => exec_pocketPurge_answer ht tag (State.pocketPurge_notReady hp q),
    fun hp h1 h2 => exec_pocketPurge_answer ht tag (State.pocketPurge_busy hp h1 h2 q), fun hp hl =>
    ⟨fun h1 h2 => exec_pocketPurge_answer ht tag (State.pocketPurge_bad hp hl h1 h2),
      fun hq hall he => exec_pocketPurge_answer ht tag (State.pocketPurge_empty hp hl hq hall he), ?_, ?_, ?_⟩⟩
  · intro c i d f hq hall hshape hs hc h1 h2 hi hd hactive hx hroom
    obtain ⟨-, -, -, hchutes, -⟩ := hshape
    have ho : (s.pocket q).occupied = true := by rw [Pocket.occupied_iff, hs]; decide
    have hstay : (s.slot i).state ≠ .draining ∨ 1 < (s.slot i).resident := .inl (by rw [hactive]; decide)
    obtain ⟨hsame, hother, -, -, -, hslot, -⟩ := State.finish_finishes hi hd hroom .purged
    have hchute (x : Nat) : (s.finish q .purged).chute x =
        (s.account c fun e => { e with inFlight := e.inFlight - 1 }).chute x := by
      rw [State.chute_congr (s.finish_chutes q .purged), State.settleAccounts_decided hs hc, State.releasePlace]
    refine ⟨_, exec_pocketPurge_one ht tag hp hl hq hall ho hx, .inl rfl, hsame, hother, ?_, fun x hne => ?_,
      (hslot hstay).1, State.finish_counts_room hi hroom hstay .purged, ?_, s.finish_only q .purged .line (by decide)⟩
    · exact (hchute c).trans ((State.account_chute h1 (by rw [hchutes]; exact h2) c _).trans (if_pos rfl))
    · exact (hchute x).trans ((State.chute_congr (State.account_chutes _ _ _) x).trans (State.modChute_ne hne _))
    · exact (State.finish_part_length (by omega) q .purged).trans (by omega)
  · intro i d f hq hall hshape hs hi hd hx hroom
    obtain ⟨m, n, hcnt⟩ := s.finish_counts q .purged
    exact ⟨_, exec_pocketPurge_one ht tag hp hl hq hall ((Pocket.occupied_iff _).mpr hs) hx, .inl rfl,
      State.finish_finishes hi hd hroom .purged, congrArg LineCounters.purged hcnt,
      s.finish_only q .purged .line (by decide)⟩
  · rintro f n hshape hx hle rfl
    obtain ⟨hlen, -, -, hchutes, -⟩ := hshape
    have hall := State.purgeAll_purged hlen
    have hcount : ((s.purged 255).countP fun r => (s.pocket r).occupied) =
        s.track.pockets.countP fun p => p.state != .empty := by
      rw [State.purged, if_pos rfl, ← hlen]
      exact (s.countP_pockets Pocket.occupied).symm
    have hn : ((List.range s.track.pockets.length).countP fun r => (s.pocket r).occupied) =
        s.track.pockets.countP fun p => p.state != .empty := (s.countP_pockets Pocket.occupied).symm
    have hexec := exec_pocketPurge_sending ht tag (State.pocketPurge_taken hp hl (.inr rfl)) (hall.tx.trans hx)
    rw [hcount] at hexec
    have hpart := hall.part hle
    have hpurged := hall.count
    rw [hn] at hpart hpurged
    refine ⟨_, hexec, .inl rfl, hall.track_all, hall.only .line (by decide), hall.only .chanA (by decide),
      hall.only .chanB (by decide), fun c h1 h2 => ?_, hpurged, hpart⟩
    refine (hall.chute c h1 (by rw [hchutes]; exact h2)).trans ?_
    rw [State.promised, State.travelling, State.countP_pockets, State.countP_pockets]
    rfl

end Sys2Proof.Machine
end


-- ==== Sys2Proof/Proofs/LineMoves.lean ====
section
/-! PROOFS. The moves of the Line Controller under its invariant (R27, R34 to R38, R41, R45): entry to STOPPING and STOPPED, the
judgement of the dwell work, and the operations of other blocks that leave the line alone and open no dwell work. -/

namespace Sys2Proof.Machine

/-! ### The invariant, judged and unjudged -/

/-- The Line Controller's invariant while the dwell work is still to be judged: outside WORKING none is open (R34, R41). -/
def OpenInv (s : State) : Prop := LineInv s ∧ (s.line.phase ≠ .working → s.dwellDone = true)

/-- The invariant as a command leaves it. -/
def LineKept (s : State) : Prop := LineInv s ∧ DwellInv s

theorem LineKept.opened {s : State} (h : LineKept s) : OpenInv s := ⟨h.1, h.2.1⟩

/-- Outside WORKING there is nothing to judge. -/
theorem OpenInv.kept {s : State} (h : OpenInv s) (hp : s.line.phase ≠ .working) : LineKept s :=
  ⟨h.1, h.2, fun hw => absurd hw hp⟩

theorem OpenInv.atRest {s : State} (h : OpenInv s) (hp : s.line.phase ≠ .working) : s.atRest :=
  ((s.dwellDone_iff).mp (h.2 hp)).2

/-- The invariant of the line reads the line, MOTION and the load-permit memory. -/
theorem LineInv.congr {s t : State} (h : LineInv s) (hl : t.line = s.line) (hm : t.pins.motion = s.pins.motion)
    (hp : t.track.loadPermit = s.track.loadPermit) : LineInv t := by
  unfold LineInv HandshakeInv FaultInv TimerInv
  rw [hl, hm, hp]
  exact h

/-- Between s and t the line stands, and no dwell work is opened where none was open. -/
structure Eases (s t : State) : Prop where
  line : t.line = s.line
  motion : t.pins.motion = s.pins.motion
  permit : t.track.loadPermit = s.track.loadPermit
  done : s.dwellDone = true → t.dwellDone = true

theorem Eases.refl (s : State) : Eases s s := ⟨rfl, rfl, rfl, id⟩

theorem Eases.trans {s t u : State} (h : Eases s t) (k : Eases t u) : Eases s u :=
  ⟨k.line.trans h.line, k.motion.trans h.motion, k.permit.trans h.permit, k.done ∘ h.done⟩

theorem Eases.foldl {α : Type} {f : State → α → State} (h : ∀ s a, Eases s (f s a)) (xs : List α) (s : State) :
    Eases s (xs.foldl f s) := by
  induction xs generalizing s with
  | nil => exact .refl s
  | cons x xs ih => exact (h s x).trans (ih (f s x))

theorem OpenInv.eases {s t : State} (h : OpenInv s) (e : Eases s t) : OpenInv t :=
  ⟨h.1.congr e.line e.motion e.permit, fun hp => e.done (h.2 (by rw [← e.line]; exact hp))⟩

/-- While the line is WORKING any dwell work may be open. -/
theorem OpenInv.works {s t : State} (h : OpenInv s) (hw : s.line.phase = .working) (hl : t.line = s.line)
    (hm : t.pins.motion = s.pins.motion) (hp : t.track.loadPermit = s.track.loadPermit) : OpenInv t :=
  ⟨h.1.congr hl hm hp, fun hx => absurd (hl ▸ hw) hx⟩

theorem LineKept.eases {s t : State} (h : LineKept s) (e : Eases s t) (hw : t.dwellDone = true → s.dwellDone = true) :
    LineKept t := by
  refine ⟨h.1.congr e.line e.motion e.permit, (h.opened.eases e).2, fun hp => ?_⟩
  have hs := h.2.2 (by rw [← e.line]; exact hp)
  exact Bool.eq_false_iff.mpr fun ht => Bool.eq_false_iff.mp hs (hw ht)

/-! ### What leaves the line alone -/

/-- The blocks the line and the dwell work read. -/
def dwellBlocks : List Block := [.pins, .track, .line, .chanA, .chanB, .sched, .chutes]

/-- The dwell work reads the jets, the jobs and the request set (R34). -/
theorem State.dwellDone_congr {s t : State} (hc : t.chutes = s.chutes) (hA : t.chanA = s.chanA) (hB : t.chanB = s.chanB)
    (hs : t.sched = s.sched) : t.dwellDone = s.dwellDone := by
  unfold State.dwellDone State.pulsingCount State.jobRunning
  rw [hc, hA, hB, hs]

section
variable {l : List Block} {s t : State}

theorem dwellDone_of_only (h : Only l s t) (hl : ∀ b ∈ [.chutes, .chanA, .chanB, .sched], b ∉ l) :
    t.dwellDone = s.dwellDone :=
  State.dwellDone_congr (h .chutes (hl _ (by decide))) (h .chanA (hl _ (by decide))) (h .chanB (hl _ (by decide)))
    (h .sched (hl _ (by decide)))

theorem Eases.of_only (h : Only l s t) (hl : ∀ b ∈ dwellBlocks, b ∉ l) : Eases s t := by
  refine ⟨h .line (hl _ (by decide)), congrArg Pins.motion (h .pins (hl _ (by decide))),
    congrArg Track.loadPermit (h .track (hl _ (by decide))), fun hd => ?_⟩
  exact (dwellDone_of_only h fun b hb => hl b (by revert b; decide)).trans hd

theorem LineKept.of_only (hs : LineKept s) (h : Only l s t) (hl : ∀ b ∈ dwellBlocks, b ∉ l) : LineKept t :=
  hs.eases (.of_only h hl) fun hd => (dwellDone_of_only h fun b hb => hl b (by revert b; decide)).symm.trans hd

/-- The pocket records may change too. -/
theorem Eases.of_pockets (h : Only l s t) (hl : ∀ b ∈ dwellBlocks, b ≠ .track → b ∉ l)
    (hp : t.track.loadPermit = s.track.loadPermit) : Eases s t := by
  refine ⟨h .line (hl _ (by decide) (by decide)), congrArg Pins.motion (h .pins (hl _ (by decide) (by decide))), hp,
    fun hd => ?_⟩
  exact (dwellDone_of_only h fun b hb => by revert b; intro b hb; exact hl b (by revert b; decide) (by revert b; decide)).trans hd

end

section
variable (s : State)

theorem State.modPocket_eases (q : Nat) (f : Pocket → Pocket) : Eases s (s.modPocket q f) :=
  .of_pockets (s.modPocket_only q f) (by decide) rfl

theorem State.raise_eases (k : EventKind) (d : Detail) : Eases s (s.raise k d) := .of_only (s.raise_only k d) (by decide)

theorem State.bumpLotOf_eases (q : Nat) (f : LotCounters → LotCounters) : Eases s (s.bumpLotOf q f) :=
  .of_only (s.bumpLotOf_only q f) (by decide)

/-- The jets as the dwell work counts them (R34). -/
theorem State.pulsingCount_eq (s : State) : s.pulsingCount = (s.chutes.map Chute.jet).countP Option.isSome := by
  rw [List.countP_map]; rfl

theorem State.pulsingCount_congr {t : State} (h : t.chutes.map Chute.jet = s.chutes.map Chute.jet) :
    t.pulsingCount = s.pulsingCount := by
  rw [State.pulsingCount_eq, State.pulsingCount_eq, h]

theorem State.modChute_jets (c : Nat) {f : Chute → Chute} (hf : ∀ e, (f e).jet = e.jet) :
    (s.modChute c f).chutes.map Chute.jet = s.chutes.map Chute.jet := by
  unfold State.modChute
  split
  · rfl
  · refine List.ext_getElem? fun n => ?_
    simp only [State.modChutes_chutes, List.getElem?_map, List.getElem?_modify]
    cases s.chutes[n]? with
    | none => rfl
    | some e => split <;> simp [hf]

theorem State.modChute_dwellDone (c : Nat) {f : Chute → Chute} (hf : ∀ e, (f e).jet = e.jet) :
    (s.modChute c f).dwellDone = s.dwellDone := by
  unfold State.dwellDone State.jobRunning
  rw [s.pulsingCount_congr (s.modChute_jets c hf), State.modChute_chanA, State.modChute_chanB, State.modChute_sched]

/-- An account that leaves the jet alone leaves the dwell work alone (R34, R137). -/
theorem State.account_dwellDone (c : Nat) {f : Chute → Chute} (hf : ∀ e, (f e).jet = e.jet) :
    (s.account c f).dwellDone = s.dwellDone := by
  rw [← s.modChute_dwellDone c hf]
  unfold State.account
  dsimp only
  split <;> rfl

theorem State.account_eases (c : Nat) {f : Chute → Chute} (hf : ∀ e, (f e).jet = e.jet) : Eases s (s.account c f) := by
  have h := s.account_only c f
  exact ⟨h .line (by decide), congrArg Pins.motion (h .pins (by decide)), congrArg Track.loadPermit (h .track (by decide)),
    (s.account_dwellDone c hf).trans⟩

theorem State.modChan_dwellDone (ch : Chan) (f : Channel → Channel)
    (hf : (f (s.chan ch)).job.isSome = (s.chan ch).job.isSome) : (s.modChan ch f).dwellDone = s.dwellDone := by
  have hj : (s.modChan ch f).jobRunning = s.jobRunning := by
    cases ch
    · exact congrArg (· || s.chanB.job.isSome) hf
    · exact congrArg (s.chanA.job.isSome || ·) hf
  unfold State.dwellDone State.pulsingCount
  rw [hj, State.modChan_chutes, State.modChan_sched]

/-- A channel's update that ends its job, or has one only where one ran. -/
theorem State.modChan_eases (ch : Chan) (f : Channel → Channel)
    (hf : (s.chan ch).job = none → (f (s.chan ch)).job = none) : Eases s (s.modChan ch f) := by
  refine ⟨State.modChan_line _ _ _, by rw [State.modChan_pins], by rw [State.modChan_track], fun hd => ?_⟩
  have hnone := ((s.dwellDone_iff).mp hd).2.job ch
  rw [s.modChan_dwellDone ch f (by rw [hnone, hf hnone])]
  exact hd

/-- The request set made no larger. -/
theorem State.modSched_eases (f : Sched → Sched) (hf : s.sched.requests = [] → (f s.sched).requests = []) :
    Eases s (s.modSched f) := by
  refine ⟨rfl, rfl, rfl, fun hd => ?_⟩
  obtain ⟨hj, hA, hB, hr⟩ := (s.dwellDone_iff).mp hd
  exact (State.dwellDone_iff _).mpr ⟨hj, hA, hB, hf hr⟩

theorem State.endJob_eases (ch : Chan) : Eases s (s.endJob ch) :=
  (s.modChan_eases ch Channel.endJob fun _ => rfl).trans (State.modSched_eases _ _ fun h => by cases ch <;> exact h)

theorem State.recordAttempt_eases (q : Nat) (a : Attempt) : Eases s (s.recordAttempt q a) :=
  (s.modPocket_eases q _).trans (State.modChan_eases _ _ _ id)

theorem State.abortJob_eases (ch : Chan) (o : JobOutcome) : Eases s (s.abortJob ch o) := by
  unfold State.abortJob
  split
  · exact .refl s
  · dsimp only
    split
    · exact (s.endJob_eases ch).trans (State.recordAttempt_eases _ _ _)
    · exact (s.endJob_eases ch).trans (State.modChan_eases _ _ _ id)

theorem State.cutDwell_eases : Eases s s.cutDwell :=
  ((s.modSched_eases _ fun _ => rfl).trans (State.abortJob_eases _ _ _)).trans (State.abortJob_eases _ _ _)

theorem State.cutJets_eases : Eases s s.cutJets := by
  have h := s.cutJets_only
  refine ⟨h .line (by decide), congrArg Pins.motion (h .pins (by decide)), congrArg Track.loadPermit (h .track (by decide)),
    fun hd => ?_⟩
  exact (State.dwellDone_iff _).mpr ⟨s.cutJets_jetsOff, ((s.dwellDone_iff).mp hd).2.of_only h (by decide)⟩

/-- A finish leaves the line alone, and no jet of its chute pulses that did not (R22, R149). -/
theorem State.finish_eases (q : Nat) (o : Finish) : Eases s (s.finish q o) := by
  have h := s.finish_only q o
  refine ⟨h .line (by decide), congrArg Pins.motion (h .pins (by decide)), ?_, fun hd => ?_⟩
  · rw [State.finish_track]; rfl
  obtain ⟨hj, hr⟩ := (s.dwellDone_iff).mp hd
  refine (State.dwellDone_iff _).mpr ⟨?_, hr.of_only h (by decide)⟩
  rw [State.jetsOff, State.finish_chutes]
  exact State.settleAccounts_jetsOff hj q

end

/-! ### Entry to STOPPED and STOPPING (R39 to R41) -/

/-- The motion timer runs in MOVING alone (R37). -/
theorem LineInv.motionTimer_off {s : State} (h : LineInv s) (hp : s.line.phase ≠ .moving) : s.line.motionTimer = none := by
  obtain ⟨-, -, -, -, htimer⟩ := h
  rw [beq_false_of_ne hp, Bool.and_false] at htimer
  exact Option.isSome_eq_false_iff.mp htimer |> Option.isNone_iff_eq_none.mp


theorem LineState.ne_faulted {x : LineState} (h : x.underWay = true) : x ≠ .faulted := fun hx => by
  rw [hx] at h; contradiction

theorem restPhase_ne_working (m : Bool) : restPhase m ≠ .working := by cases m <;> decide

theorem restPhase_eq_moving (m : Bool) : restPhase m = .moving ↔ m = true := by cases m <;> decide

/-- STOPPED, whatever the phase was, with the motion timer stopped and no dwell work open. -/
theorem State.enterStopped_kept {s : State} (hfault : s.line.fault = (s.line.state == .faulted)) (hrec : FaultInv s)
    (hne : s.line.state ≠ .faulted) (hm : s.line.motionTimer = none) (hd : s.dwellDone = true) :
    LineKept s.enterStopped := by
  obtain ⟨hfirst, hlater⟩ := hrec
  have hoff : s.line.fault = false := by rw [hfault]; exact beq_false_of_ne hne
  have hnone : s.line.firstFault.isSome = false := by rw [hfirst]; exact beq_false_of_ne hne
  have hphase := restPhase_ne_working s.pins.motion
  exact ⟨⟨⟨rfl, hoff, fun hx => (nomatch hx), restPhase_eq_moving _, fun hx => absurd hx hphase, fun hx => (nomatch hx)⟩,
    ⟨hnone, fun _ => hlater hne⟩, fun hx => (nomatch hx), fun hx => (nomatch hx), congrArg Option.isSome hm⟩,
    fun _ => hd, fun hx => absurd hx hphase⟩

theorem OpenInv.enterStopped {s : State} (h : OpenInv s) (hu : s.line.state.underWay = true)
    (hm : s.line.motionTimer = none) (hd : s.dwellDone = true) : LineKept s.enterStopped := by
  obtain ⟨⟨⟨-, hfault, -⟩, hrec, -⟩, -⟩ := h
  exact State.enterStopped_kept hfault hrec (LineState.ne_faulted hu) hm hd

/-- The line's moves overwrite what they set: STOPPED is the same from STOPPING, and with the phase or the budget gone. -/
theorem State.enterStopped_modLine (s : State) (f : LineCtl → LineCtl)
    (hf : (f s.line).fault = s.line.fault ∧ (f s.line).motionTimer = s.line.motionTimer ∧
      (f s.line).budgetMs = s.line.budgetMs ∧ (f s.line).motionLimitMs = s.line.motionLimitMs ∧
      (f s.line).stallLimitMs = s.line.stallLimitMs ∧ (f s.line).firstFault = s.line.firstFault ∧
      (f s.line).laterFaults = s.line.laterFaults) : (s.modLine f).enterStopped = s.enterStopped := by
  obtain ⟨h1, h2, h3, h4, h5, h6, h7⟩ := hf
  simp only [State.enterStopped, State.modLine, h1, h2, h3, h4, h5, h6, h7]

/-- CHUTE_BLOCKED acts on a RUN or DRAIN line: in WAITING, with no work open, it is STOPPED at once (R40, R41). -/
theorem State.lineBlocked_waiting {s : State} (hw : s.line.state.worked = true) (hp : s.line.phase = .waiting) :
    s.lineBlocked = s.enterStopped := by
  rw [State.lineBlocked, if_pos hw, State.enterStopping, if_pos hp]
  exact s.enterStopped_modLine _ ⟨rfl, rfl, rfl, rfl, rfl, rfl, rfl⟩

/-- Elsewhere it is STOPPING. -/
theorem State.lineBlocked_open {s : State} (hw : s.line.state.worked = true) (hp : s.line.phase ≠ .waiting) :
    s.lineBlocked =
      s.modLine fun l => { l with state := .stopping, ready := false, loadOk := false, stallTimer := none } := by
  rw [State.lineBlocked, if_pos hw, State.enterStopping, if_neg hp]

theorem State.lineBlocked_unworked {s : State} (hw : s.line.state.worked = false) : s.lineBlocked = s := by
  rw [State.lineBlocked, if_neg (by rw [hw]; decide)]

theorem LineState.worked_ne {x : LineState} (h : x.worked = true) : x ≠ .faulted ∧ x ≠ .idle ∧ x ≠ .stopped ∧ x ≠ .stopping := by
  cases x <;> simp [LineState.worked] at h ⊢

theorem OpenInv.lineBlocked {s : State} (h : OpenInv s) : OpenInv s.lineBlocked := by
  cases hw : s.line.state.worked
  · rw [State.lineBlocked_unworked hw]; exact h
  have hu := LineState.underWay_of_worked hw
  have h' := h
  obtain ⟨⟨⟨-, hfault, -, hmove, -, -⟩, ⟨hfirst, hlater⟩, hbudget, -, htimer⟩, hdone⟩ := h
  by_cases hp : s.line.phase = .waiting
  · rw [State.lineBlocked_waiting hw hp]
    have hmt : s.line.motionTimer = none := h'.1.motionTimer_off (by rw [hp]; decide)
    exact (h'.enterStopped hu hmt (hdone (by rw [hp]; decide))).opened
  · rw [State.lineBlocked_open hw hp]
    obtain ⟨hne, -⟩ := LineState.worked_ne hw
    have hoff : s.line.fault = false := by rw [hfault]; exact beq_false_of_ne hne
    have hnone : s.line.firstFault.isSome = false := by rw [hfirst]; exact beq_false_of_ne hne
    rw [hu] at htimer
    exact ⟨⟨⟨rfl, hoff, fun hx => (nomatch hx), hmove, fun _ => rfl, fun _ => hp⟩, ⟨hnone, fun _ => hlater hne⟩,
      hbudget, fun hx => (nomatch hx), htimer⟩, hdone⟩

/-! ### The judgement of the dwell work (R34) -/

theorem OpenInv.judgeDwell {s : State} (h : OpenInv s) : LineKept s.judgeDwell := by
  unfold State.judgeDwell
  split
  case isFalse hj =>
    exact ⟨h.1, h.2, fun hp => by simpa [hp] using hj⟩
  case isTrue hj =>
    obtain ⟨hp, hd⟩ := hj
    have h' := h
    obtain ⟨⟨⟨-, hfault, hload, hmove, hwork, -⟩, ⟨hfirst, hlater⟩, -, -, -⟩, -⟩ := h
    have hmt : s.line.motionTimer = none := h'.1.motionTimer_off (by rw [hp]; decide)
    have hmotion : s.pins.motion = false := by
      rw [hp] at hmove
      simpa using hmove
    have ready (hs : s.line.state.worked = true) :
        LineKept ((s.modLine fun l => { l with phase := .waiting, budget := none }).modLine raiseReady) := by
      refine ⟨⟨⟨?_, hfault, hload, ?_, fun hx => (nomatch hx), ?_⟩, ⟨hfirst, hlater⟩, fun hx => (nomatch hx), fun _ => rfl, ?_⟩,
        fun _ => hd, fun hx => (nomatch hx)⟩
      · show true = (s.line.state.worked && true)
        rw [hs]; rfl
      · show Phase.waiting = .moving ↔ s.pins.motion = true
        rw [hmotion]; decide
      · exact fun hx => absurd hx (LineState.worked_ne hs).2.2.2
      · show s.line.motionTimer.isSome = (s.line.state.underWay && false)
        rw [hmt, Bool.and_false]; rfl
    dsimp only
    have hu := hwork hp
    cases hs : s.line.state <;> simp only [hs, LineState.underWay, Bool.false_eq_true] at hu
    case run => exact ready (by rw [hs]; rfl)
    case drain => exact ready (by rw [hs]; rfl)
    case stopping =>
      rw [s.enterStopped_modLine _ ⟨rfl, rfl, rfl, rfl, rfl, rfl, rfl⟩]
      exact h'.enterStopped (hwork hp) hmt hd

end Sys2Proof.Machine
end


-- ==== Sys2Proof/Proofs/Commits.lean ====
section
/-! PROOFS. The steps of a commit (R141, R142), the effect of a held one on the line (R40), and the retry of HELD commits (R144). -/

namespace Sys2Proof.Machine

/-! ### The three steps (R142) -/

/-- No chute that a commit to t may use can take the pocket: neither t nor its alternate (R142 step 3). -/
def State.blocked (s : State) (t pos : Nat) : Prop :=
  s.canTake t pos = false ∧ ∀ a, s.alternateOf t = some a → s.canTake a pos = false

theorem State.commit_target {s : State} {q t : Nat} (h : s.canTake t (s.track.positionOf q) = true) :
    s.commit q t = s.commitTo q t false := by
  rw [State.commit]
  exact if_pos h

theorem State.commit_alternate {s : State} {q t a : Nat} (h : s.canTake t (s.track.positionOf q) = false)
    (ha : s.alternateOf t = some a) (hc : s.canTake a (s.track.positionOf q) = true) :
    s.commit q t = (s.commitTo q a true).bumpLotOf q countOverflow := by
  simp [State.commit, h, ha, hc]

theorem State.commit_blocked {s : State} {q t : Nat} (h : s.blocked t (s.track.positionOf q)) :
    s.commit q t = s.holdPocket q t := by
  obtain ⟨ht, halt⟩ := h
  cases ha : s.alternateOf t with
  | none => simp [State.commit, ht, ha]
  | some a => simp [State.commit, ht, ha, halt a ha]

theorem State.commit_cases (s : State) (q t : Nat) :
    (s.canTake t (s.track.positionOf q) = true ∧ s.commit q t = s.commitTo q t false) ∨
    (∃ a, s.canTake t (s.track.positionOf q) = false ∧ s.alternateOf t = some a ∧
      s.canTake a (s.track.positionOf q) = true ∧ s.commit q t = (s.commitTo q a true).bumpLotOf q countOverflow) ∨
    (s.blocked t (s.track.positionOf q) ∧ s.commit q t = s.holdPocket q t) := by
  cases ht : s.canTake t (s.track.positionOf q)
  case true => exact .inl ⟨rfl, State.commit_target ht⟩
  case false =>
    by_cases hb : s.blocked t (s.track.positionOf q)
    · exact .inr (.inr ⟨hb, State.commit_blocked hb⟩)
    · unfold State.blocked at hb
      push Not at hb
      obtain ⟨a, ha, hc⟩ := hb ht
      have hc' : s.canTake a (s.track.positionOf q) = true := by simpa using hc
      exact .inr (.inl ⟨a, rfl, ha, hc', State.commit_alternate ht ha hc'⟩)

/-- A configured chute is FULL when the places taken are its capacity (R137). -/
theorem Chute.state_full_iff {e : Chute} {g : ChuteCfg} (h : e.cfg = some g) : e.state = .full ↔ e.taken = g.capacity := by
  unfold Chute.state
  rw [h]
  dsimp only
  split
  · next hc => exact ⟨fun _ => hc, fun _ => rfl⟩
  · next hc =>
    refine ⟨fun he => ?_, fun he => absurd he hc⟩
    split at he <;> contradiction

/-- A chute can take a pocket where it is configured, not FULL, and ahead of the pocket or reached on the second lap (R141). -/
theorem State.canTake_iff (s : State) (c pos : Nat) : s.canTake c pos = true ↔ ∃ g, (s.chute c).cfg = some g ∧
    (s.chute c).fill + (s.chute c).inFlight + (s.chute c).oldBox ≠ g.capacity ∧
    (pos < g.ejectPos ∨ s.track.checkPos < pos) := by
  unfold State.canTake
  cases hg : (s.chute c).cfg with
  | none => simp
  | some g => simp [Chute.state_full_iff hg, Chute.taken]

/-! ### What a commit leaves of the line (R40) -/

theorem State.lineBlocked_line_congr {s t : State} (hl : t.line = s.line) (hp : t.pins = s.pins) :
    t.lineBlocked.line = s.lineBlocked.line := by
  have h : t.enterStopping.line = s.enterStopping.line := by
    simp only [State.enterStopping, hl]
    split <;> simp [State.enterStopped, hl, hp]
  unfold State.lineBlocked
  rw [hl]
  split
  · exact h
  · exact hl

/-- A line that CHUTE_BLOCKED has acted on is not acted on again. -/
theorem State.lineBlocked_twice (s : State) : s.lineBlocked.lineBlocked = s.lineBlocked := by
  refine State.lineBlocked_unworked ?_
  cases hw : s.line.state.worked
  · rw [State.lineBlocked_unworked hw]; exact hw
  · by_cases hp : s.line.phase = .waiting
    · rw [State.lineBlocked_waiting hw hp]; rfl
    · rw [State.lineBlocked_open hw hp]; rfl

theorem State.commitTo_line (s : State) (q c : Nat) (o : Bool) : (s.commitTo q c o).line = s.line :=
  s.commitTo_only q c o .line (by decide)

theorem State.holdPocket_line (s : State) (q t : Nat) : (s.holdPocket q t).line = s.lineBlocked.line :=
  State.lineBlocked_line_congr rfl rfl

/-- The pocket after a commit: DECIDED with a chute and the line as it was, or HELD with the line blocked (R40, R142). -/
theorem State.commit_outcome {s : State} {q : Nat} (hq : q < s.track.pockets.length) (t : Nat) :
    (((s.commit q t).pocket q).state = .decided ∧ (s.commit q t).line = s.line) ∨
      (((s.commit q t).pocket q).state = .held ∧ (s.commit q t).line = s.lineBlocked.line) := by
  have taken (c : Nat) (o : Bool) : ((s.commitTo q c o).pocket q).state = .decided := by
    have ht : (s.commitTo q c o).track = (s.modPocket q _).track := State.account_only _ _ _ .track (by decide)
    rw [State.pocket_congr ht, State.modPocket_same hq]
  rcases s.commit_cases q t with ⟨-, h⟩ | ⟨a, -, -, -, h⟩ | ⟨-, h⟩ <;> rw [h]
  · exact .inl ⟨taken t false, s.commitTo_line q t false⟩
  · have honly := State.bumpLotOf_only (s.commitTo q a true) q countOverflow
    refine .inl ⟨?_, (honly .line (by decide)).trans (s.commitTo_line q a true)⟩
    rw [State.pocket_congr (honly .track (by decide))]
    exact taken a true
  · refine .inr ⟨?_, s.holdPocket_line q t⟩
    have ht : (s.holdPocket q t).track = (s.modPocket q _).track := State.lineBlocked_only _ .track (by decide)
    rw [State.pocket_congr ht, State.modPocket_same hq]

/-- The other records stand (R142). -/
theorem State.commit_pocket_ne (s : State) {q r : Nat} (h : r ≠ q) (t : Nat) : (s.commit q t).pocket r = s.pocket r := by
  obtain ⟨f, -, hf⟩ := s.commit_track q t
  rw [State.pocket_congr hf, State.modPocket_ne h]

theorem State.commit_length (s : State) (q t : Nat) : (s.commit q t).track.pockets.length = s.track.pockets.length := by
  obtain ⟨f, -, hf⟩ := s.commit_track q t
  rw [hf, State.modPocket_length]

/-! ### The retries (R144) -/

/-- Commits of a list of pockets in turn, each to its target. -/
def State.commits (s : State) (l : List (Nat × Nat)) : State := l.foldl (fun t h => t.commit h.1 h.2) s

theorem State.retried_eq (s : State) : s.retried = s.commits s.heldTargets := rfl

/-- The blocks that the retries write. -/
theorem State.commits_only (s : State) (l : List (Nat × Nat)) :
    Only [.track, .line, .slot0, .slot1, .chutes, .report] s (s.commits l) :=
  Only.foldl (f := fun t h => t.commit h.1 h.2) (fun u h => u.commit_only h.1 h.2) l s

theorem State.commits_line_cases (s : State) (l : List (Nat × Nat)) :
    (s.commits l).line = s.line ∨ (s.commits l).line = s.lineBlocked.line := by
  induction l generalizing s with
  | nil => exact .inl rfl
  | cons h l ih =>
    have hpins : (s.commit h.1 h.2).pins = s.pins := s.commit_only _ _ .pins (by decide)
    have hblock (hl : (s.commit h.1 h.2).line = s.line) :
        (s.commit h.1 h.2).lineBlocked.line = s.lineBlocked.line := State.lineBlocked_line_congr hl hpins
    have htwice (hl : (s.commit h.1 h.2).line = s.lineBlocked.line) :
        (s.commit h.1 h.2).lineBlocked.line = s.lineBlocked.line :=
      (State.lineBlocked_line_congr (s := s.lineBlocked) hl
        (hpins.trans (s.lineBlocked_only .pins (by decide)).symm)).trans (congrArg State.line s.lineBlocked_twice)
    have hcommit : (s.commit h.1 h.2).line = s.line ∨ (s.commit h.1 h.2).line = s.lineBlocked.line := by
      rcases s.commit_cases h.1 h.2 with ⟨-, e⟩ | ⟨a, -, -, -, e⟩ | ⟨-, e⟩ <;> rw [e]
      · exact .inl (s.commitTo_line _ _ _)
      · exact .inl ((State.bumpLotOf_only _ _ _ .line (by decide)).trans (s.commitTo_line _ _ _))
      · exact .inr (s.holdPocket_line _ _)
    rcases ih (s.commit h.1 h.2) with hrest | hrest
    · exact hcommit.imp hrest.trans hrest.trans
    · exact .inr (hrest.trans (hcommit.elim hblock htwice))

section
variable {s : State} {l : List (Nat × Nat)}

theorem State.commits_pocket_ne {q : Nat} (h : q ∉ l.map Prod.fst) : (s.commits l).pocket q = s.pocket q := by
  induction l generalizing s with
  | nil => rfl
  | cons x l ih =>
    rw [List.map_cons, List.mem_cons, not_or] at h
    exact (ih h.2).trans (s.commit_pocket_ne h.1 _)

/-- Each pocket of the list is DECIDED or HELD afterwards; one that is HELD has blocked the line, and with none HELD the line is
as it was (R40, R144). -/
theorem State.commits_outcome (hn : (l.map Prod.fst).Nodup) (hl : ∀ h ∈ l, h.1 < s.track.pockets.length) :
    (∀ h ∈ l, ((s.commits l).pocket h.1).state = .decided ∨ ((s.commits l).pocket h.1).state = .held) ∧
    ((∀ h ∈ l, ((s.commits l).pocket h.1).state ≠ .held) → (s.commits l).line = s.line) ∧
    (∀ h ∈ l, ((s.commits l).pocket h.1).state = .held → (s.commits l).line = s.lineBlocked.line) := by
  induction l generalizing s with
  | nil => exact ⟨fun _ hm => absurd hm List.not_mem_nil, fun _ => rfl, fun _ hm => absurd hm List.not_mem_nil⟩
  | cons x l ih =>
    rw [List.map_cons, List.nodup_cons] at hn
    have hx := hl x (.head _)
    have hpins : (s.commit x.1 x.2).pins = s.pins := s.commit_only _ _ .pins (by decide)
    have hsame : (s.commits (x :: l)).pocket x.1 = (s.commit x.1 x.2).pocket x.1 := State.commits_pocket_ne hn.1
    obtain ⟨hstates, hnone, hheld⟩ := ih (s := s.commit x.1 x.2) hn.2 fun h hm => by
      rw [State.commit_length]; exact hl h (.tail _ hm)
    have hafter {u : State} (hu : u.lineBlocked.line = s.lineBlocked.line) (hp : (s.commit x.1 x.2).pins = u.pins)
        (hline : (s.commit x.1 x.2).line = u.line) : (s.commit x.1 x.2).lineBlocked.line = s.lineBlocked.line :=
      (State.lineBlocked_line_congr hline hp).trans hu
    have hblock : (s.commit x.1 x.2).lineBlocked.line = s.lineBlocked.line := by
      rcases State.commit_outcome hx x.2 with ⟨-, h⟩ | ⟨-, h⟩
      · exact hafter rfl hpins h
      · exact hafter (congrArg State.line s.lineBlocked_twice)
          (hpins.trans (s.lineBlocked_only .pins (by decide)).symm) h
    refine ⟨fun h hm => ?_, fun hall => ?_, fun h hm hs => ?_⟩
    · rcases List.mem_cons.mp hm with rfl | hm
      · rw [hsame]
        exact (State.commit_outcome hx h.2).imp And.left And.left
      · exact hstates h hm
    · have hfirst := hall x (.head _)
      rw [hsame] at hfirst
      have hline := ((State.commit_outcome hx x.2).resolve_right fun h => hfirst h.1).2
      exact (hnone fun h hm => hall h (.tail _ hm)).trans hline
    · rcases List.mem_cons.mp hm with rfl | hm
      · rw [hsame] at hs
        have hline := ((State.commit_outcome hx h.2).resolve_left fun hd => by rw [hd.1] at hs; contradiction).2
        rcases (s.commit h.1 h.2).commits_line_cases l with hc | hc
        · exact hc.trans hline
        · exact hc.trans hblock
      · exact (hheld h hm hs).trans hblock

end

theorem State.mem_heldTargets {s : State} {q c : Nat} : (q, c) ∈ s.heldTargets ↔
    q < s.track.pockets.length ∧ (s.pocket q).state = .held ∧ (s.pocket q).target = some c := by
  simp only [State.heldTargets, List.mem_filterMap, List.mem_range]
  constructor
  · rintro ⟨x, hx, h⟩
    split at h
    · next hs =>
      obtain ⟨t, ht, he⟩ := Option.map_eq_some_iff.mp h
      obtain ⟨rfl, rfl⟩ := Prod.mk.inj he
      exact ⟨hx, hs, ht⟩
    · contradiction
  · rintro ⟨hq, hs, ht⟩
    exact ⟨q, hq, by rw [if_pos hs, ht]; rfl⟩

/-- What one pocket's retry would commit. -/
def State.heldTarget (s : State) (q : Nat) : Option (Nat × Nat) :=
  if (s.pocket q).state = .held then (s.pocket q).target.map fun c => (q, c) else none

theorem State.heldTarget_fst {s : State} {q : Nat} {h : Nat × Nat} (hh : s.heldTarget q = some h) : h.1 = q := by
  unfold State.heldTarget at hh
  split at hh
  · obtain ⟨c, -, rfl⟩ := Option.map_eq_some_iff.mp hh; rfl
  · contradiction

theorem State.filterMap_heldTarget_nodup (s : State) {l : List Nat} (h : l.Nodup) :
    ((l.filterMap s.heldTarget).map Prod.fst).Nodup := by
  have hsub : List.Sublist ((l.filterMap s.heldTarget).map Prod.fst) l := by
    clear h
    induction l with
    | nil => exact .slnil
    | cons q l ih =>
      rw [List.filterMap_cons]
      cases hq : s.heldTarget q with
      | none => exact ih.cons _
      | some x =>
        rw [List.map_cons, State.heldTarget_fst hq]
        exact ih.cons_cons _
  exact h.sublist hsub

theorem State.heldTargets_nodup (s : State) : (s.heldTargets.map Prod.fst).Nodup :=
  s.filterMap_heldTarget_nodup List.nodup_range

theorem State.retryPocket_eq (s : State) (q : Nat) :
    s.retryPocket q = match s.heldTarget q with | some h => s.commit h.1 h.2 | none => s := by
  unfold State.retryPocket State.heldTarget
  cases hs : (s.pocket q).state <;> cases ht : (s.pocket q).target <;> rfl

theorem State.retryPocket_ne (s : State) {q r : Nat} (h : r ≠ q) : (s.retryPocket q).pocket r = s.pocket r := by
  rw [State.retryPocket_eq]
  split
  · next x hx => exact s.commit_pocket_ne (by rw [State.heldTarget_fst hx]; exact h) _
  · rfl

/-- A retry reads its own record alone, so that the retries in turn are the commits of the pockets HELD at first (R144). -/
theorem State.retryPockets_eq {l : List Nat} (hn : l.Nodup) (s : State) :
    l.foldl State.retryPocket s = s.commits (l.filterMap s.heldTarget) := by
  induction l generalizing s with
  | nil => rfl
  | cons q l ih =>
    rw [List.nodup_cons] at hn
    have hsame : l.filterMap (s.retryPocket q).heldTarget = l.filterMap s.heldTarget :=
      List.filterMap_congr fun r hr => by
        have hne : r ≠ q := fun h => hn.1 (h ▸ hr)
        rw [State.heldTarget, State.heldTarget, s.retryPocket_ne hne]
    rw [List.foldl_cons, ih hn.2, hsame, List.filterMap_cons, State.retryPocket_eq]
    cases s.heldTarget q <;> rfl

theorem State.retryHeld_eq (s : State) : s.retryHeld = s.retried := State.retryPockets_eq List.nodup_range s

theorem State.heldTargets_of_none {s : State} (h : ∀ p ∈ s.track.pockets, p.state ≠ .held) : s.heldTargets = [] :=
  List.eq_nil_iff_forall_not_mem.mpr fun ⟨q, c⟩ hm => by
    obtain ⟨hq, hs, -⟩ := State.mem_heldTargets.mp hm
    exact h _ (State.pocket_mem hq) hs

theorem State.retried_of_none {s : State} (h : ∀ p ∈ s.track.pockets, p.state ≠ .held) : s.retried = s := by
  rw [State.retried_eq, State.heldTargets_of_none h]; rfl

theorem State.heldTargets_congr {s t : State} (h : t.track = s.track) : t.heldTargets = s.heldTargets := by
  unfold State.heldTargets
  rw [h]
  exact List.filterMap_congr fun q _ => by rw [State.pocket_congr h]

theorem State.retried_only (s : State) : Only [.track, .line, .slot0, .slot1, .chutes, .report] s s.retried :=
  s.commits_only _

theorem State.retried_line_cases (s : State) : s.retried.line = s.line ∨ s.retried.line = s.lineBlocked.line :=
  s.commits_line_cases _

/-- With no retried pocket left HELD the line is as it was. -/
theorem State.retried_line {s : State} (h : ∀ q c, (q, c) ∈ s.heldTargets → (s.retried.pocket q).state ≠ .held) :
    s.retried.line = s.line :=
  (State.commits_outcome s.heldTargets_nodup fun ⟨_, _⟩ hm => (State.mem_heldTargets.mp hm).1).2.1 fun ⟨q, c⟩ hm => h q c hm

/-- A retried pocket that is still HELD has blocked the line. -/
theorem State.retried_line_blocked {s : State} {q c : Nat} (hm : (q, c) ∈ s.heldTargets)
    (hs : (s.retried.pocket q).state = .held) : s.retried.line = s.lineBlocked.line :=
  (State.commits_outcome s.heldTargets_nodup fun ⟨_, _⟩ hm => (State.mem_heldTargets.mp hm).1).2.2 (q, c) hm hs

/-- The retries leave each pocket that was not HELD with a target as it was; the others are DECIDED or HELD. -/
theorem State.retried_pocket (s : State) (q : Nat) : s.retried.pocket q = s.pocket q ∨
    ∃ c, (q, c) ∈ s.heldTargets ∧ ((s.retried.pocket q).state = .decided ∨ (s.retried.pocket q).state = .held) := by
  by_cases hq : q ∈ s.heldTargets.map Prod.fst
  · obtain ⟨⟨_, c⟩, hm, rfl⟩ := List.mem_map.mp hq
    exact .inr ⟨c, hm, (State.commits_outcome s.heldTargets_nodup
      fun ⟨_, _⟩ hm => (State.mem_heldTargets.mp hm).1).1 _ hm⟩
  · exact .inl (State.commits_pocket_ne hq)

end Sys2Proof.Machine
end


-- ==== Sys2Proof/Proofs/LineInvariant.lean ====
section
/-! PROOFS. The Line Controller's invariant and the dwell work over every step (R27, R33 to R38, R41, R45, R47, R48). -/

namespace Sys2Proof.Machine

section
variable {s : State}

/-! ### Commits and decisions (R121, R131 to R134, R142) -/

theorem State.commitTo_eases (s : State) (q c : Nat) (o : Bool) : Eases s (s.commitTo q c o) :=
  (s.modPocket_eases q _).trans (State.account_eases _ c fun _ => rfl)

theorem OpenInv.commit (h : OpenInv s) (q t : Nat) : OpenInv (s.commit q t) := by
  rcases s.commit_cases q t with ⟨-, e⟩ | ⟨a, -, -, -, e⟩ | ⟨-, e⟩ <;> rw [e]
  · exact h.eases (s.commitTo_eases q t false)
  · exact h.eases ((s.commitTo_eases q a true).trans (State.bumpLotOf_eases _ _ _))
  · exact (h.eases ((s.modPocket_eases q _).trans (State.raise_eases _ _ _))).lineBlocked

theorem OpenInv.retryHeld (h : OpenInv s) : OpenInv s.retryHeld := by
  have all (l : List (Nat × Nat)) : ∀ u : State, OpenInv u → OpenInv (u.commits l) := by
    induction l with
    | nil => exact fun _ hu => hu
    | cons x l ih => exact fun u hu => ih _ (hu.commit x.1 x.2)
  rw [State.retryHeld_eq]
  exact all _ s h

theorem OpenInv.decide (h : OpenInv s) (q : Nat) (dec : Decision) (t : Nat) (f : LotCounters → LotCounters) :
    OpenInv (s.decide q dec t f) :=
  (h.eases ((s.modPocket_eases q _).trans (State.bumpLotOf_eases _ q f))).commit q t

theorem State.refer_eases (s : State) (q : Nat) (dec : Decision) (g : Nat) (d : Int) (f : LotCounters → LotCounters) :
    Eases s (s.refer q dec g d f) :=
  (((s.modPocket_eases q _).trans (State.bumpLotOf_eases _ q f)).trans
    (.of_only (State.handRefer_only _ _) (by decide))).trans (State.bumpLotOf_eases _ q _)

theorem OpenInv.judgeAccepted (h : OpenInv s) (q g : Nat) (d : Int) (m : Marks) : OpenInv (s.judgeAccepted q g d m) := by
  unfold State.judgeAccepted
  dsimp only
  split
  · split
    · unfold State.applyJudgement
      split
      · exact h.decide _ _ _ _
      · split
        · exact h.eases (s.refer_eases _ _ _ _ _)
        · exact h.decide _ _ _ _
      · exact h.eases (s.modPocket_eases q _)
    · exact h
  · exact h

theorem OpenInv.answerReferral (h : OpenInv s) (q t : Nat) (src : Source) (f : LotCounters → LotCounters) :
    OpenInv (s.answerReferral q t src f) :=
  (h.eases (((s.modPocket_eases q _).trans (.of_only (State.modReport_only _ _) (by decide))).trans
    (State.bumpLotOf_eases _ q f))).commit q t

theorem OpenInv.leaveDecide (h : OpenInv s) (q : Nat) : OpenInv (s.leaveDecide q) := by
  unfold State.leaveDecide
  split
  · exact h
  · split
    · exact h.answerReferral _ _ _ _
    · exact h.decide _ _ _ _
    · unfold State.defaultMeasuring
      split
      · unfold State.classifyLast
        split
        · exact h
        · split
          · exact h.decide _ _ _ _
          · exact h.decide _ _ _ _
      · exact h.decide _ _ _ _
    all_goals exact h

/-! ### Faults (R45, R46) -/

/-- Fault entry sets all that the invariant speaks of, and leaves no dwell work. -/
theorem State.faultEntry_kept (s : State) (k : FaultKind) (d : Detail) : LineKept (s.faultEntry k d) := by
  have hcut : (s.modLine (faultedLine s.pins.motion k d)).cutDwell.cutJets.dwellDone = true :=
    (State.dwellDone_iff _).mpr ⟨State.cutJets_jetsOff _, (State.cutDwell_rests _).of_only (State.cutJets_only _) (by decide)⟩
  have hdone : (s.faultEntry k d).dwellDone = true := (State.raise_eases _ _ _).done hcut
  have hmotion : (s.faultEntry k d).pins = s.pins :=
    (State.raise_only _ _ _ .pins (by decide)).trans ((State.cutJets_only _ .pins (by decide)).trans
      (State.cutDwell_only _ .pins (by decide)))
  unfold LineKept LineInv HandshakeInv FaultInv TimerInv DwellInv
  rw [State.faultEntry_line, hmotion]
  exact ⟨⟨⟨rfl, rfl, fun hx => (nomatch hx), restPhase_eq_moving _, fun hx => absurd hx (restPhase_ne_working _),
    fun hx => (nomatch hx)⟩, ⟨rfl, fun hx => absurd rfl hx⟩, fun hx => (nomatch hx), fun hx => (nomatch hx), rfl⟩, fun _ => hdone,
    fun hx => absurd hx (restPhase_ne_working _)⟩

theorem addLater_eq (k : FaultKind) (l : LineCtl) : ∃ f, addLater k l = { l with laterFaults := f } := by
  unfold addLater
  split
  · exact ⟨_, rfl⟩
  · exact ⟨_, rfl⟩

theorem OpenInv.raiseFault (h : OpenInv s) (k : FaultKind) (d : Detail) : OpenInv (s.raiseFault k d) := by
  have hraise : OpenInv (s.raise k.event d) := h.eases (s.raise_eases _ _)
  cases hs : s.line.state
  case idle => rw [State.raiseFault_idle hs]; exact hraise
  case faulted =>
    rw [State.raiseFault_faulted hs]
    obtain ⟨⟨hhand, ⟨hfirst, -⟩, htimer⟩, hdone⟩ := hraise
    obtain ⟨f, hf⟩ := addLater_eq k s.line
    have hline : ((s.raise k.event d).modLine (addLater k)).line = { s.line with laterFaults := f } := hf
    unfold OpenInv LineInv HandshakeInv FaultInv TimerInv
    rw [hline]
    exact ⟨⟨hhand, ⟨hfirst, fun hx => absurd hs hx⟩, htimer⟩, hdone⟩
  all_goals
    rw [State.raiseFault_entry (by simp [hs, LineState.underWay])]
    exact (s.faultEntry_kept k d).opened

theorem OpenInv.enterSuspect (h : OpenInv s) (ch : Chan) : OpenInv (s.enterSuspect ch) := by
  have he : Eases s (((s.modChan ch fun c => { c with service := .suspect, srcRun := 0, goodRun := 0, watchdog := none }).raise
      .channelSuspect (.channel ch)).withdrawCheck ch) :=
    ((s.modChan_eases ch _ id).trans (State.raise_eases _ _ _)).trans
      (State.modSched_eases _ _ fun hr => by rw [hr]; rfl)
  unfold State.enterSuspect State.judgeNoChannel
  split
  · exact (h.eases he).raiseFault _ _
  · exact h.eases he

theorem OpenInv.judgeSource (h : OpenInv s) (ch : Chan) (faulted : Bool) : OpenInv (s.judgeSource ch faulted) := by
  have run (n : Nat) : OpenInv (s.modChan ch fun c => { c with srcRun := n }) := h.eases (s.modChan_eases ch _ id)
  have judged (n : Nat) : OpenInv (if 3 ≤ n then (s.modChan ch fun c => { c with srcRun := n }).enterSuspect ch
      else s.modChan ch fun c => { c with srcRun := n }) := by
    split
    · exact (run n).enterSuspect ch
    · exact run n
  exact judged _

/-! ### The scheduler's offer (R34, R79) -/

/-- A review grants work only from a set that is not empty, in WORKING; then the dwell work is judged. -/
theorem OpenInv.offer (h : OpenInv s) : LineKept s.offer := by
  refine OpenInv.judgeDwell ?_
  by_cases hr : s.sched.requests = []
  · have hid : s.review = s := if_pos (by rw [hr]; rfl)
    rw [hid]; exact h
  · have hw : s.line.phase = .working := by
      by_contra hp
      exact hr (h.atRest hp).2.2
    have ho := s.review_only
    exact h.works hw (ho .line (by decide)) (congrArg Pins.motion (ho .pins (by decide)))
      (congrArg Track.loadPermit (ho .track (by decide)))

/-! ### Completions (R67, R164) -/

theorem OpenInv.completeStation (h : OpenInv s) (ch : Chan) (i q g : Nat) (r : StationResult) :
    OpenInv (s.completeStation ch i q g r) := by
  have hrec := (h.judgeSource ch (r == .sourceFault)).eases (State.recordAttempt_eases _ q (resultAttempt i ch g r))
  unfold State.completeStation State.handResult
  split
  · exact hrec.judgeAccepted _ _ _ _
  · exact hrec

theorem OpenInv.completeCheck (h : OpenInv s) (ch : Chan) (r : Nat) (result : Option Int) :
    OpenInv (s.completeCheck ch r result) := by
  have count : OpenInv (s.modChan ch fun c => { c with cnt := countCheck c.cnt }) := h.eases (s.modChan_eases ch _ id)
  unfold State.completeCheck
  dsimp only
  split
  · exact count.judgeSource _ _
  · have hsource := count.judgeSource ch false
    split
    · exact hsource.eases ((Eases.of_only (State.modCal_only _ _) (by decide)).trans (State.modChan_eases _ ch _ id))
    · exact hsource.enterSuspect ch

theorem OpenInv.completeJob (h : OpenInv s) (ch : Chan) (j : Job) : LineKept (s.completeJob ch j) := by
  have hend := h.eases (s.endJob_eases ch)
  unfold State.completeJob
  dsimp only
  split
  · exact (hend.completeStation _ _ _ _ _).offer
  · exact (hend.completeCheck _ _ _).offer

theorem OpenInv.abortOffer (h : OpenInv s) (ch : Chan) (o : JobOutcome) : LineKept (s.abortJob ch o).offer :=
  (h.eases (s.abortJob_eases ch o)).offer

/-! ### Frames of the converter link (R53 to R69) -/

/-- A channel's update that neither ends its job nor begins one. -/
theorem LineKept.modChan (h : LineKept s) (ch : Chan) (f : Channel → Channel)
    (hf : (f (s.chan ch)).job.isSome = (s.chan ch).job.isSome) : LineKept (s.modChan ch f) := by
  refine h.eases (s.modChan_eases ch f fun hn => ?_) fun hd => (s.modChan_dwellDone ch f hf).symm.trans hd
  rw [hn] at hf
  exact Option.isNone_iff_eq_none.mp (Option.isSome_eq_false_iff.mp hf)

/-- A job's kind kept is the job kept. -/
theorem isSome_of_kind {x y : Option Job} (h : x.map Job.kind = y.map Job.kind) : x.isSome = y.isSome := by
  rw [← Option.isSome_map (f := Job.kind) (x := x), h, Option.isSome_map]

theorem LineKept.sampleError (h : LineKept s) (ch : Chan) {j : Job} (hj : (s.chan ch).job = some j) :
    LineKept (s.sampleError ch j) := by
  unfold State.sampleError
  split
  · exact h.opened.abortOffer ch _
  · exact h.modChan ch _ (by rw [hj]; rfl)

theorem LineKept.goodSample (h : LineKept s) (ch : Chan) (positive : Bool) (f : Sample) {j : Job}
    (hj : (s.chan ch).job = some j) : LineKept (s.goodSample ch positive f j) := by
  unfold State.goodSample
  split
  · dsimp only
    split
    · split
      · exact h.modChan ch _ (isSome_of_kind (by
          rw [Channel.endPositive, Channel.enterSettle_kind, hj, Option.map_some, Option.map_some, Job.addSample_kind]))
      · exact h.opened.completeJob ch _
    · exact h.modChan ch _ (by rw [hj]; rfl)
  · exact h.opened.abortOffer ch _

theorem LineKept.useFrame (h : LineKept s) (ch : Chan) (err : Option FrameError) (f : Taken) :
    LineKept (s.useFrame ch err f) := by
  unfold State.useFrame
  split
  · exact h
  · next j hj =>
    have settle (x : JobState) : LineKept (s.modChan ch (Channel.settleFrame x j)) :=
      h.modChan ch _ (isSome_of_kind (by rw [Channel.settleFrame_kind, hj]; rfl))
    split
    · exact h
    · exact h
    · exact settle _
    · exact settle _
    · split
      · exact h.goodSample ch _ _ hj
      · exact h.sampleError ch hj
    · split
      · exact h.goodSample ch _ _ hj
      · exact h.sampleError ch hj

theorem LineKept.countGood (h : LineKept s) (ch : Chan) (err : Option FrameError) : LineKept (s.countGood ch err) := by
  unfold State.countGood
  split
  · exact h.modChan ch _ rfl
  · split
    · exact (h.modChan ch Channel.enterService rfl).opened.offer
    · exact h.modChan ch _ rfl

theorem LineKept.linkSymbol (h : LineKept s) (ch : Chan) (y : LinkSymbol) : LineKept (s.linkSymbol ch y) := by
  have received (r : Receiver) : LineKept (s.modChan ch fun c => { c with receiver := r }) := h.modChan ch _ rfl
  unfold State.linkSymbol
  dsimp only
  split
  · have counted {u : State} (hu : LineKept u) (n : ChanCounters → ChanCounters) :
        LineKept (u.modChan ch fun c => { c.restartWatchdog with cnt := n c.cnt }) := hu.modChan ch _ rfl
    unfold State.takeFrame
    dsimp only
    split
    · exact (counted (received _) _).useFrame _ _ _
    · exact (counted (received _) _).countGood _ _
    · exact counted (received _) _
  · exact received _

theorem LineKept.stallJob (h : LineKept s) (ch : Chan) : LineKept (s.stallJob ch) := by
  unfold State.stallJob
  split
  · exact h.opened.abortOffer ch _
  · exact h

/-! ### The settle (R33) -/

/-- LOADOK is asserted in RUN with the load-permit memory set (R14, R35). -/
theorem LineInv.judgeLoadOk (h : LineInv s) : LineInv s.judgeLoadOk := by
  unfold State.judgeLoadOk
  split
  · next hfit =>
    have hrun : s.line.state = .run := by
      simp only [State.loadFit, Bool.and_eq_true, beq_iff_eq] at hfit
      exact hfit.1.1
    obtain ⟨⟨hready, hfault, -, hrest⟩, hrecord, htimer⟩ := h
    exact ⟨⟨hready, hfault, fun _ => ⟨hrun, rfl⟩, hrest⟩, hrecord, htimer⟩
  · exact h

theorem OpenInv.judgeLoadOk (h : OpenInv s) : OpenInv s.judgeLoadOk := by
  refine ⟨h.1.judgeLoadOk, fun hp => ?_⟩
  have hphase : s.judgeLoadOk.line.phase = s.line.phase := by
    unfold State.judgeLoadOk
    split <;> rfl
  rw [dwellDone_of_only s.judgeLoadOk_only (by decide)]
  exact h.2 (by rw [← hphase]; exact hp)

/-- A firing leaves the line, the pins and the load-permit memory alone (R145). -/
structure Fires (s t : State) : Prop where
  line : t.line = s.line
  pins : t.pins = s.pins
  permit : t.track.loadPermit = s.track.loadPermit

theorem State.fireChute_fires (s : State) (c : Nat) : Fires s (s.fireChute c) := by
  unfold State.fireChute
  split
  · exact ⟨rfl, rfl, rfl⟩
  · next g _ =>
    have ho := s.account_only c (fired g.pulseMs)
    have hpermit : (s.account c (fired g.pulseMs)).track.loadPermit = s.track.loadPermit :=
      congrArg Track.loadPermit (ho .track (by decide))
    dsimp only
    split
    · exact ⟨ho .line (by decide), ho .pins (by decide), hpermit⟩
    · exact ⟨rfl, rfl, rfl⟩

theorem State.fireJets_fires (s : State) : Fires s s.fireJets := by
  have all (l : List Nat) : ∀ u : State, Fires u (l.foldl State.fireChute u) := by
    induction l with
    | nil => exact fun _ => ⟨rfl, rfl, rfl⟩
    | cons c l ih =>
      intro u
      have h := u.fireChute_fires c
      have k := ih (u.fireChute c)
      exact ⟨k.line.trans h.line, k.pins.trans h.pins, k.permit.trans h.permit⟩
  exact all chuteNumbers s

/-- CHUTE_BLOCKED leaves a WORKING phase WORKING: STOPPED at once is for WAITING (R40). -/
theorem State.lineBlocked_phase {s : State} (h : s.line.phase = .working) : s.lineBlocked.line.phase = .working := by
  cases hw : s.line.state.worked
  · rw [State.lineBlocked_unworked hw]; exact h
  · rw [State.lineBlocked_open hw (by rw [h]; decide)]; exact h

theorem State.retryHeld_phase {s : State} (h : s.line.phase = .working) : s.retryHeld.line.phase = .working := by
  rw [State.retryHeld_eq]
  rcases s.retried_line_cases with e | e <;> rw [e]
  · exact h
  · exact State.lineBlocked_phase h

theorem State.judgeLoadOk_phase (s : State) : s.judgeLoadOk.line.phase = s.line.phase := by
  unfold State.judgeLoadOk
  split <;> rfl

/-- A line in WORKING is worked through the settle: retries, LOADOK, the set, the firing, and the judgement (R33). -/
theorem OpenInv.workedSettle (h : OpenInv (s.modLine openDwell)) : LineKept s.workedSettle := by
  have hload := h.retryHeld.judgeLoadOk
  have hphase : (s.modLine openDwell).retryHeld.judgeLoadOk.line.phase = .working :=
    (State.judgeLoadOk_phase _).trans (State.retryHeld_phase rfl)
  have hform := hload.works (t := (s.modLine openDwell).retryHeld.judgeLoadOk.formRequests) hphase rfl rfl rfl
  have hfire := (s.modLine openDwell).retryHeld.judgeLoadOk.formRequests.fireJets_fires
  exact (hform.works hphase hfire.line (congrArg Pins.motion hfire.pins) hfire.permit).offer

theorem Option.eq_none_of_isSome_false {α : Type} {o : Option α} {p : Prop} (h : o.isSome = true → p) (hp : ¬p) :
    o = none :=
  Option.isNone_iff_eq_none.mp (Option.isSome_eq_false_iff.mp (Bool.eq_false_iff.mpr (mt h hp)))

/-- In MOVING READY is low, and budget and stall timer are stopped (R27, R36, R38). -/
theorem LineInv.moving_off (h : LineInv s) (hp : s.line.phase = .moving) :
    s.line.ready = false ∧ s.line.budget = none ∧ s.line.stallTimer = none := by
  obtain ⟨⟨hready, -⟩, -, hbudget, hstall, -⟩ := h
  have hoff : s.line.ready = false := by rw [hready, hp]; exact Bool.and_false _
  exact ⟨hoff, Option.eq_none_of_isSome_false hbudget (by rw [hp]; decide),
    Option.eq_none_of_isSome_false hstall (by rw [hoff]; decide)⟩

/-- What a fall of MOTION does before the line state is looked at (R33, R37). -/
def State.motionFalls (s : State) : State :=
  (s.modPins fun p => { p with motion := false }).modLine fun l => { l with motionTimer := none }

theorem State.motionFalls_motion (s : State) : s.motionFalls.pins.motion = false := rfl

/-- Outside RUN and DRAIN a retry does not act on the line (R40). -/
theorem State.retryHeld_line_unworked (hw : s.line.state.worked = false) : s.retryHeld.line = s.line := by
  rw [State.retryHeld_eq]
  rcases s.retried_line_cases with h | h
  · exact h
  · rw [h, State.lineBlocked_unworked hw]

theorem OpenInv.retryHeld_rest (h : OpenInv s) (hw : s.line.state.worked = false) (hp : s.line.phase ≠ .working) :
    LineKept s.retryHeld :=
  h.retryHeld.kept (by rw [State.retryHeld_line_unworked hw]; exact hp)

theorem LineState.not_worked {x : LineState} (h : x.underWay = false) : x.worked = false :=
  Bool.eq_false_iff.mpr fun hx => by rw [LineState.underWay_of_worked hx] at h; contradiction

/-- The fall of MOTION (R33, R41). -/
theorem LineKept.settle (h : LineKept s) (hm : s.pins.motion = true) : LineKept s.settle := by
  have h' := h
  obtain ⟨⟨⟨-, hfault, hload, hphase, -, -⟩, hrecord, -⟩, hdwell, -⟩ := h
  have hmoving : s.line.phase = .moving := hphase.mpr hm
  have hdone : s.dwellDone = true := hdwell (by rw [hmoving]; decide)
  obtain ⟨hready, hbudget, hstall⟩ := h'.1.moving_off hmoving
  have hfalls : Phase.working = .moving ↔ (false = true) := by decide
  have hrests : Phase.waiting = .moving ↔ (false = true) := by decide
  have nobudget : s.line.budget.isSome ≠ true := by rw [hbudget]; decide
  have nostall : s.line.stallTimer.isSome ≠ true := by rw [hstall]; decide
  have worked (hw : s.line.state.worked = true) : LineKept s.motionFalls.workedSettle :=
    OpenInv.workedSettle ⟨⟨⟨hready.trans (Bool.and_false _).symm, hfault, hload, hfalls,
      fun _ => LineState.underWay_of_worked hw, fun _ hx => (nomatch hx)⟩, hrecord, fun _ => rfl, fun hx => absurd hx nostall,
      (Bool.and_false _).symm⟩, fun hx => absurd rfl hx⟩
  have resting (hw : s.line.state.underWay = false) : LineKept (s.motionFalls.modLine restLine).retryHeld := by
    have hunworked := LineState.not_worked hw
    have hstop : s.line.state ≠ .stopping := fun hx => by rw [hx] at hw; contradiction
    have hlow : false = (s.line.state.worked && Phase.waiting == Phase.waiting) := by rw [hunworked]; rfl
    exact OpenInv.retryHeld_rest ⟨⟨⟨hlow, hfault, fun hx => (nomatch hx), hrests, fun hx => (nomatch hx),
      fun hx => absurd hx hstop⟩, hrecord, fun hx => absurd hx nobudget, fun hx => absurd hx nostall, (Bool.and_false _).symm⟩,
      fun _ => hdone⟩ hunworked (fun hx => (nomatch hx))
  unfold State.settle
  dsimp only
  cases hs : s.line.state
  case run => exact worked (by rw [hs]; rfl)
  case drain => exact worked (by rw [hs]; rfl)
  case stopping =>
    have hstopped : LineKept s.motionFalls.enterStopped :=
      State.enterStopped_kept hfault hrecord (by show s.line.state ≠ .faulted; rw [hs]; decide) rfl hdone
    exact hstopped.opened.retryHeld_rest rfl (restPhase_ne_working s.motionFalls.pins.motion)
  all_goals exact resting (by rw [hs]; rfl)

/-! ### Entry to RUN or DRAIN (R30, R144) -/

/-- In IDLE, STOPPED and FAULTED no signal is asserted and no timer runs but the dwell's own stillness (R27, R36 to R38). -/
theorem LineInv.still (h : LineInv s) (hu : s.line.state.underWay = false) : s.line.ready = false ∧
    s.line.loadOk = false ∧ s.line.phase ≠ .working ∧ s.line.budget = none ∧ s.line.stallTimer = none ∧
    s.line.motionTimer = none := by
  obtain ⟨⟨hready, -, hload, -, hwork, -⟩, -, hbudget, hstall, htimer⟩ := h
  have hphase : s.line.phase ≠ .working := fun hx => by rw [hwork hx] at hu; contradiction
  have hoff : s.line.ready = false := by rw [hready, LineState.not_worked hu]; rfl
  refine ⟨hoff, Bool.eq_false_iff.mpr fun hx => ?_, hphase, Option.eq_none_of_isSome_false hbudget hphase,
    Option.eq_none_of_isSome_false hstall (by rw [hoff]; decide), Option.eq_none_of_isSome_false (p := False) (fun hx => ?_) id⟩
  · rw [(hload hx).1] at hu; contradiction
  · rw [htimer, hu] at hx; contradiction

/-- The commits change neither MOTION nor the load-permit memory nor the dwell work. -/
theorem State.commit_stands (s : State) (q t : Nat) : (s.commit q t).pins = s.pins ∧
    (s.commit q t).track.loadPermit = s.track.loadPermit ∧ (s.commit q t).dwellDone = s.dwellDone := by
  refine ⟨s.commit_only q t .pins (by decide), ?_, ?_⟩
  · obtain ⟨f, -, hf⟩ := s.commit_track q t
    rw [hf]; rfl
  · have taken (c : Nat) (o : Bool) : (s.commitTo q c o).dwellDone = s.dwellDone := State.account_dwellDone _ c fun _ => rfl
    rcases s.commit_cases q t with ⟨-, e⟩ | ⟨a, -, -, -, e⟩ | ⟨-, e⟩ <;> rw [e]
    · exact taken t false
    · exact (dwellDone_of_only (State.bumpLotOf_only _ q _) (by decide)).trans (taken a true)
    · exact dwellDone_of_only (s.holdPocket_only q t) (by decide)

theorem State.commits_stands (s : State) (l : List (Nat × Nat)) : (s.commits l).pins = s.pins ∧
    (s.commits l).track.loadPermit = s.track.loadPermit ∧ (s.commits l).dwellDone = s.dwellDone := by
  induction l generalizing s with
  | nil => exact ⟨rfl, rfl, rfl⟩
  | cons x l ih =>
    obtain ⟨h1, h2, h3⟩ := ih (s.commit x.1 x.2)
    obtain ⟨k1, k2, k3⟩ := s.commit_stands x.1 x.2
    exact ⟨h1.trans k1, h2.trans k2, h3.trans k3⟩

/-- The line on entry to RUN or DRAIN, before any retry (R30). -/
def enteredLine (motion : Bool) (target : LineState) (l : LineCtl) : LineCtl :=
  { l with state := target, phase := restPhase motion, motionTimer := if motion then some (ms l.motionLimitMs) else l.motionTimer }

/-- The retries on entry from STOPPED (R144). -/
def State.entered (target : LineState) (s : State) : State :=
  if s.line.state = .stopped then (s.modLine (enteredLine s.pins.motion target)).retried
  else s.modLine (enteredLine s.pins.motion target)

theorem State.enterRun_eq (s : State) (target : LineState) : s.enterRun target =
    if s.pins.motion then s.entered target else (s.entered target).readyAtRest := by
  unfold State.entered
  rw [← State.retryHeld_eq]
  rfl

/-- What the retries on entry leave, and the two things they can make of the line. -/
theorem State.entered_cases (s : State) (target : LineState) : (s.entered target).pins = s.pins ∧
    (s.entered target).track.loadPermit = s.track.loadPermit ∧ (s.entered target).dwellDone = s.dwellDone ∧
    ((s.entered target).line = enteredLine s.pins.motion target s.line ∨
      (s.entered target).line = (s.modLine (enteredLine s.pins.motion target)).lineBlocked.line) := by
  unfold State.entered
  split
  · obtain ⟨h1, h2, h3⟩ := (s.modLine (enteredLine s.pins.motion target)).commits_stands
      (s.modLine (enteredLine s.pins.motion target)).heldTargets
    exact ⟨h1, h2, h3, State.retried_line_cases _⟩
  · exact ⟨rfl, rfl, rfl, .inl rfl⟩

/-- A state that holds a kept line, and has no more dwell work open. -/
theorem LineKept.transfer {u v : State} (h : LineKept u) (hp : u.line.phase ≠ .working) (hl : v.line = u.line)
    (hpins : v.pins = u.pins) (hpermit : v.track.loadPermit = u.track.loadPermit) (hd : v.dwellDone = u.dwellDone) :
    LineKept v :=
  (h.opened.eases ⟨hl, congrArg Pins.motion hpins, hpermit, hd.trans⟩).kept (by rw [hl]; exact hp)

theorem State.lineBlocked_phase_ne {s : State} (h : s.line.phase ≠ .working) : s.lineBlocked.line.phase ≠ .working := by
  cases hw : s.line.state.worked
  · rw [State.lineBlocked_unworked hw]; exact h
  · by_cases hp : s.line.phase = .waiting
    · rw [State.lineBlocked_waiting hw hp]; exact restPhase_ne_working s.pins.motion
    · rw [State.lineBlocked_open hw hp]; exact h

/-- What entry to RUN or DRAIN rests on: a line that is not under way, not FAULTED, with no dwell work open. -/
structure Enterable (s : State) : Prop where
  kept : LineKept s
  state : s.line.state.underWay = false
  unfaulted : s.line.state ≠ .faulted

section
variable {target : LineState}

theorem Enterable.faults (h : Enterable s) (ht : target.worked = true) : s.line.fault = (target == .faulted) ∧
    s.line.firstFault.isSome = (target == .faulted) ∧ s.line.laterFaults = [] := by
  obtain ⟨⟨⟨⟨-, hfault, -⟩, ⟨hfirst, hlater⟩, -⟩, -⟩, -, hf⟩ := h
  obtain ⟨htf, -⟩ := LineState.worked_ne ht
  rw [beq_false_of_ne hf] at hfault hfirst
  rw [beq_false_of_ne htf]
  exact ⟨hfault, hfirst, hlater hf⟩

/-- Entry with MOTION high: MOVING, the motion timer running (R30, R37). -/
theorem Enterable.moving (h : Enterable s) (ht : target.worked = true) (hm : s.pins.motion = true) :
    LineKept (s.modLine (enteredLine true target)) := by
  obtain ⟨hready, hload, hphase, hbudget, hstall, -⟩ := h.kept.1.still h.state
  obtain ⟨hfault, hfirst, hlater⟩ := h.faults ht
  obtain ⟨-, -, -, hts⟩ := LineState.worked_ne ht
  have hdone := h.kept.2.1 hphase
  have htimer : true = (target.underWay && true) := by rw [LineState.underWay_of_worked ht]; rfl
  refine OpenInv.kept ⟨⟨⟨hready.trans (Bool.and_false _).symm, hfault, fun hx => ?_, ⟨fun _ => hm, fun _ => rfl⟩,
    fun hx => (nomatch hx), fun hx => absurd hx hts⟩, ⟨hfirst, fun _ => hlater⟩, fun hx => ?_, fun hx => ?_, htimer⟩,
    fun _ => hdone⟩ (fun hx => (nomatch hx))
  · exact absurd hx (by show s.line.loadOk ≠ true; rw [hload]; decide)
  · exact absurd hx (by show s.line.budget.isSome ≠ true; rw [hbudget]; decide)
  · exact absurd hx (by show s.line.stallTimer.isSome ≠ true; rw [hstall]; decide)

/-- Entry with MOTION low: WAITING, with READY asserted (R30, R38). -/
theorem Enterable.waiting (h : Enterable s) (ht : target.worked = true) (hm : s.pins.motion = false) :
    LineKept ((s.modLine (enteredLine false target)).modLine raiseReady) := by
  obtain ⟨-, hload, hphase, hbudget, -, hmt⟩ := h.kept.1.still h.state
  obtain ⟨hfault, hfirst, hlater⟩ := h.faults ht
  obtain ⟨-, -, -, hts⟩ := LineState.worked_ne ht
  have hdone := h.kept.2.1 hphase
  have hready : true = (target.worked && true) := by rw [ht]; rfl
  have htimer : s.line.motionTimer.isSome = (target.underWay && false) := by rw [hmt, Bool.and_false]; rfl
  refine OpenInv.kept ⟨⟨⟨hready, hfault, fun hx => ?_, ⟨fun hx => (nomatch hx), fun hx => ?_⟩, fun hx => (nomatch hx),
    fun hx => absurd hx hts⟩, ⟨hfirst, fun _ => hlater⟩, fun hx => ?_, fun _ => rfl, htimer⟩, fun _ => hdone⟩
    (fun hx => (nomatch hx))
  · exact absurd hx (by show s.line.loadOk ≠ true; rw [hload]; decide)
  · exact absurd hx (by show s.pins.motion ≠ true; rw [hm]; decide)
  · exact absurd hx (by show s.line.budget.isSome ≠ true; rw [hbudget]; decide)

/-- Entry with MOTION low, a retried pocket still HELD: STOPPED again (R40, R41). -/
theorem Enterable.stopped (h : Enterable s) (ht : target.worked = true) :
    LineKept (s.modLine (enteredLine false target)).enterStopped := by
  obtain ⟨-, -, hphase, -, -, hmt⟩ := h.kept.1.still h.state
  obtain ⟨hfault, hfirst, hlater⟩ := h.faults ht
  exact State.enterStopped_kept hfault ⟨hfirst, fun _ => hlater⟩ (LineState.worked_ne ht).1 hmt (h.kept.2.1 hphase)

theorem Enterable.enterRun (h : Enterable s) (ht : target.worked = true) : LineKept (s.enterRun target) := by
  obtain ⟨hpins, hpermit, hwork, hline⟩ := s.entered_cases target
  rw [State.enterRun_eq]
  cases hm : s.pins.motion <;> rw [hm] at hline
  case true =>
    have hmoving := h.moving ht hm
    rcases hline with hline | hline
    · exact hmoving.transfer (fun hx => (nomatch hx)) hline hpins hpermit hwork
    · have hphase : (s.modLine (enteredLine true target)).lineBlocked.line.phase ≠ .working :=
        State.lineBlocked_phase_ne fun hx => (nomatch hx)
      have hb := State.lineBlocked_only (s.modLine (enteredLine true target))
      exact (hmoving.opened.lineBlocked.kept hphase).transfer hphase hline (hpins.trans (hb .pins (by decide)).symm)
        (hpermit.trans (congrArg Track.loadPermit (hb .track (by decide))).symm)
        (hwork.trans (dwellDone_of_only hb (by decide)).symm)
  case false =>
    rcases hline with hline | hline
    · have hready : LineKept ((s.entered target).modLine raiseReady) :=
        (h.waiting ht hm).transfer (fun hx => (nomatch hx)) (congrArg raiseReady hline) hpins hpermit hwork
      have hworked : (s.entered target).line.state.worked = true := by rw [hline]; exact ht
      have hphase : ((s.entered target).modLine raiseReady).judgeLoadOk.line.phase ≠ .working := by
        rw [State.judgeLoadOk_phase, show ((s.entered target).modLine raiseReady).line.phase = .waiting from
          congrArg LineCtl.phase hline]
        decide
      rw [if_neg (by decide), State.readyAtRest, if_pos hworked]
      exact hready.opened.judgeLoadOk.kept hphase
    · rw [State.lineBlocked_waiting (s := s.modLine (enteredLine false target)) ht rfl] at hline
      have hunworked : (s.entered target).line.state.worked = false := by rw [hline]; rfl
      rw [if_neg (by decide), State.readyAtRest, if_neg (by rw [hunworked]; decide)]
      exact (h.stopped ht).transfer (restPhase_ne_working s.pins.motion) hline hpins hpermit hwork

end

end

end Sys2Proof.Machine
end


-- ==== Sys2Proof/Proofs/LineInvariantKept.lean ====
section
/-! PROOFS. The Line Controller's invariant through the requests, the index start, time and every step (R27, R31, R34 to R38). -/

namespace Sys2Proof.Machine

section
variable {s : State}

/-! ### The requests -/

theorem LineKept.still (h : LineKept s) (hu : s.line.state.underWay = false) : s.line.phase ≠ .working := (h.1.still hu).2.2.1

theorem LineState.settable_rests {x : LineState} (h : x.settable = true) : x.underWay = false ∧ x ≠ .faulted := by
  cases x <;> simp_all [LineState.settable, LineState.underWay]

theorem LineKept.lineStart (h : LineKept s) (b m t : Nat) : LineKept (s.lineStart b m t).2 := by
  unfold State.lineStart
  split
  · next hs =>
    split
    · split
      · exact h
      · have hset : LineKept (s.modLine fun l => { l with budgetMs := b, motionLimitMs := m, stallLimitMs := t }) := h
        exact Enterable.enterRun ⟨hset, by show s.line.state.underWay = false; rw [hs]; rfl,
          by show s.line.state ≠ .faulted; rw [hs]; decide⟩ rfl
    · exact h
  · exact h

theorem LineKept.enterStopping (h : LineKept s) (hw : s.line.state.worked = true) : LineKept s.enterStopping := by
  have hblock : s.lineBlocked = s.enterStopping := if_pos hw
  have hopen := h.opened.lineBlocked
  rw [hblock] at hopen
  by_cases hp : s.line.phase = .working
  · refine ⟨hopen.1, hopen.2, fun _ => ?_⟩
    rw [dwellDone_of_only s.enterStopping_only (by decide)]
    exact h.2.2 hp
  · exact hopen.kept (by rw [← hblock]; exact State.lineBlocked_phase_ne hp)

theorem LineKept.lineStop (h : LineKept s) : LineKept s.lineStop.2 := by
  unfold State.lineStop
  split
  · next hs => exact h.enterStopping (by rw [hs]; rfl)
  · next hs => exact h.enterStopping (by rw [hs]; rfl)
  all_goals exact h

theorem LineKept.enterFromStopped (h : LineKept s) (hs : s.line.state = .stopped) {target : LineState}
    (ht : target.worked = true) : LineKept (s.enterRun target) :=
  Enterable.enterRun ⟨h, by rw [hs]; rfl, by rw [hs]; decide⟩ ht

theorem LineKept.lineDrain (h : LineKept s) : LineKept s.lineDrain.2 := by
  unfold State.lineDrain
  split
  · next hs =>
    obtain ⟨⟨⟨hready, hfault, -, hmotion, hwork, -⟩, hrecord, htimer⟩, hdwell⟩ := h
    rw [FaultInv, hs] at hrecord
    rw [TimerInv, hs] at htimer
    rw [hs] at hready hfault
    exact ⟨⟨⟨hready, hfault, fun hx => (nomatch hx), hmotion, fun _ => rfl, fun hx => (nomatch hx)⟩,
      ⟨hrecord.1, fun _ => hrecord.2 (by decide)⟩, htimer⟩, hdwell⟩
  · next hs =>
    split
    · exact h
    · exact h.enterFromStopped hs rfl
  all_goals exact h

theorem LineKept.lineResume (h : LineKept s) : LineKept s.lineResume.2 := by
  unfold State.lineResume
  split
  · next hs =>
    split
    · exact h
    · exact h.enterFromStopped hs rfl
  · exact h

/-- A line at rest in another state of rest, its record as that state has it (R47). -/
theorem LineKept.rest (h : LineKept s) (hu : s.line.state.underWay = false) {x : LineState} {t : State}
    (hx : x = .stopped ∨ x = .idle)
    (hl : t.line = { s.line with state := x, fault := false, firstFault := none, laterFaults := [] })
    (hm : t.pins.motion = s.pins.motion) (hd : t.dwellDone = s.dwellDone) : LineKept t := by
  obtain ⟨hready, hload, hphase, hbudget, hstall, hmt⟩ := h.1.still hu
  have hx' : x.worked = false ∧ x.underWay = false ∧ x ≠ .faulted ∧ x ≠ .stopping := by
    rcases hx with rfl | rfl <;> decide
  obtain ⟨⟨⟨-, -, -, hmotion, -, -⟩, -⟩, hdwell, -⟩ := h
  obtain ⟨hxw, hxu, hxf, hxs⟩ := hx'
  unfold LineKept LineInv HandshakeInv FaultInv TimerInv DwellInv
  rw [hl, hm, hd]
  refine ⟨⟨⟨?_, (beq_false_of_ne hxf).symm, fun hx => ?_, hmotion, fun hx => absurd hx hphase, fun hx => absurd hx hxs⟩,
    ⟨(beq_false_of_ne hxf).symm, fun _ => rfl⟩, fun hx => ?_, fun hx => ?_, ?_⟩, hdwell, fun hx => absurd hx hphase⟩
  · show s.line.ready = (x.worked && _); rw [hready, hxw]; rfl
  · exact absurd hx (by show s.line.loadOk ≠ true; rw [hload]; decide)
  · exact absurd hx (by show s.line.budget.isSome ≠ true; rw [hbudget]; decide)
  · exact absurd hx (by show s.line.stallTimer.isSome ≠ true; rw [hstall]; decide)
  · show s.line.motionTimer.isSome = (x.underWay && _); rw [hmt, hxu]; rfl

theorem LineKept.lineClear (h : LineKept s) : LineKept s.lineClear.2 := by
  unfold State.lineClear
  split
  · next hs => exact h.rest (by rw [hs]; rfl) (.inl rfl) rfl rfl rfl
  · next hs =>
    split
    · have hne : s.line.state ≠ .faulted := by rw [hs]; decide
      have hfault : s.line.fault = false := by rw [h.1.1.2.1]; exact beq_false_of_ne hne
      have hfirst : s.line.firstFault = none := by
        have := h.1.2.1.1
        rw [beq_false_of_ne hne] at this
        exact Option.isNone_iff_eq_none.mp (Option.isSome_eq_false_iff.mp this)
      have hlater := h.1.2.1.2 hne
      refine h.rest (by rw [hs]; rfl) (.inr rfl) ?_ rfl rfl
      show ({ s.line with state := .idle } : LineCtl) = _
      rw [← hfault, ← hfirst, ← hlater]
    · exact h
  all_goals exact h

theorem State.resetAll_kept (s : State) : LineKept s.resetAll := by
  have hjets : s.resetAll.jetsOff := fun e he => by
    obtain ⟨x, -, rfl⟩ := List.mem_map.mp he
    rfl
  have hphase : s.resetAll.line.phase ≠ .working := restPhase_ne_working s.pins.motion
  exact ⟨⟨⟨rfl, rfl, fun hx => (nomatch hx), restPhase_eq_moving _, fun hx => absurd hx hphase, fun hx => (nomatch hx)⟩,
    ⟨rfl, fun _ => rfl⟩, fun hx => (nomatch hx), fun hx => (nomatch hx), rfl⟩,
    fun _ => (State.dwellDone_iff _).mpr ⟨hjets, rfl, rfl, rfl⟩, fun hx => absurd hx hphase⟩

/-- Chutes written with the line at rest: no jet pulses that did not. -/
theorem LineKept.chutes (h : LineKept s) (hp : s.line.phase ≠ .working) {t : State} (ho : Only [.chutes, .report] s t)
    (hj : s.jetsOff → t.jetsOff) : LineKept t := by
  have hdone := h.2.1 hp
  obtain ⟨hjets, hrest⟩ := (s.dwellDone_iff).mp hdone
  have hd : t.dwellDone = true := (State.dwellDone_iff _).mpr ⟨hj hjets, hrest.of_only ho (by decide)⟩
  exact h.transfer hp (ho .line (by decide)) (ho .pins (by decide)) (congrArg Track.loadPermit (ho .track (by decide)))
    (hd.trans hdone.symm)

theorem State.modChute_offs (h : s.jetsOff) (c : Nat) {f : Chute → Chute} (hf : ∀ e, e.jet = none → (f e).jet = none) :
    (s.modChute c f).jetsOff := by
  unfold State.modChute
  split
  · exact h
  · intro e he
    obtain ⟨n, hn⟩ := List.mem_iff_getElem?.mp he
    rw [State.modChutes_chutes, List.getElem?_modify, Option.map_eq_map, Option.map_eq_some_iff] at hn
    obtain ⟨x, hx, rfl⟩ := hn
    have hoff : x.jet = none := h x (List.mem_of_getElem? hx)
    split
    · exact hf x hoff
    · exact hoff

theorem LineKept.account (h : LineKept s) (hp : s.line.phase ≠ .working) (c : Nat) {f : Chute → Chute}
    (hf : ∀ e, e.jet = none → (f e).jet = none) : LineKept (s.account c f) :=
  h.chutes hp (s.account_only c f) fun hj => by
    rw [State.jetsOff, State.account_chutes]
    exact State.modChute_offs hj c hf

theorem LineKept.chuteSet (h : LineKept s) (c a : Nat) (f : ChuteFields) : LineKept (s.chuteSet c a f).2 := by
  unfold State.chuteSet
  split
  · exact h
  · split
    · next hset =>
      have hp := h.still (LineState.settable_rests hset).1
      split
      · exact h
      · split
        · unfold State.removeChute
          split
          · split
            · exact h
            · exact h.account hp c fun _ _ => rfl
          · exact h
        · unfold State.configureChute
          split
          · exact h
          · refine h.account hp c fun e he => ?_
            unfold configuredEntry
            split
            · rfl
            · exact he
    · exact h

theorem LineKept.trackSet (h : LineKept s) (r : TrackSetReq) : LineKept (s.trackSet r).2 := by
  rcases s.trackSet_cases r with e | ⟨hset, -, e⟩ <;> rw [e]
  · exact h
  · obtain ⟨hs, -⟩ := State.trackSettable_iff.mp hset
    have hu : s.line.state.underWay = false := by rw [hs]; rfl
    have hp := h.still hu
    have hload := (h.1.still hu).2.1
    have hdone := h.2.1 hp
    obtain ⟨⟨⟨hready, hfault, -, hrest⟩, hrecord, htimer⟩, -⟩ := h
    refine OpenInv.kept ⟨⟨⟨hready, hfault, fun hx => ?_, hrest⟩, hrecord, htimer⟩, fun _ => ?_⟩ hp
    · exact absurd hx (by show s.line.loadOk ≠ true; rw [hload]; decide)
    · refine (State.dwellDone_iff _).mpr ⟨fun e he => ?_, ((s.dwellDone_iff).mp hdone).2⟩
      obtain ⟨x, -, rfl⟩ := List.mem_map.mp he
      rfl

theorem LineKept.purgePockets (l : List Nat) : ∀ {u : State}, LineKept u → u.line.phase ≠ .working →
    LineKept (l.foldl State.purgePocket u) := by
  induction l with
  | nil => exact fun h _ => h
  | cons q l ih =>
    intro u h hp
    have he : Eases u (u.purgePocket q) := by
      unfold State.purgePocket
      split
      · exact u.finish_eases q _
      · exact .refl u
    have hp' : (u.purgePocket q).line.phase ≠ .working := by rw [he.line]; exact hp
    exact ih ((h.opened.eases he).kept hp') hp'

theorem LineKept.pocketPurge (h : LineKept s) (n : Nat) : LineKept (s.pocketPurge n).2 := by
  rcases s.pocketPurge_cases n with e | ⟨hs, e⟩ <;> rw [e]
  · exact h
  · exact LineKept.purgePockets _ h (h.still (by rcases hs with hs | hs <;> rw [hs] <;> rfl))

/-- An operation that keeps the dwell work as it is, on the way to a line that need not be judged. -/
theorem OpenInv.keptWork {t : State} (h : LineKept s) (ht : OpenInv t) (hd : t.dwellDone = s.dwellDone)
    (hp : t.line.phase = .working → s.line.phase = .working) : LineKept t :=
  ⟨ht.1, ht.2, fun hx => hd.trans (h.2.2 (hp hx))⟩

theorem State.commit_phase {q t : Nat} (h : (s.commit q t).line.phase = .working) : s.line.phase = .working := by
  by_contra hp
  rcases s.commit_cases q t with ⟨-, e⟩ | ⟨a, -, -, -, e⟩ | ⟨-, e⟩ <;> rw [e] at h
  · rw [State.commitTo_line] at h; exact hp h
  · rw [show ((s.commitTo q a true).bumpLotOf q countOverflow).line = s.line from
      (State.bumpLotOf_only _ _ _ .line (by decide)).trans (s.commitTo_line q a true)] at h
    exact hp h
  · rw [State.holdPocket_line] at h
    exact State.lineBlocked_phase_ne hp h

theorem LineKept.answerReferral (h : LineKept s) (q t : Nat) (src : Source) (f : LotCounters → LotCounters) :
    LineKept (s.answerReferral q t src f) := by
  refine OpenInv.keptWork h (h.opened.answerReferral q t src f) ?_ fun hx => ?_
  · unfold State.answerReferral
    rw [(State.commit_stands _ q t).2.2, dwellDone_of_only (State.bumpLotOf_only _ q f) (by decide)]
    rfl
  · have bumped (u : State) : (u.bumpLotOf q f).line = u.line := u.bumpLotOf_only q f .line (by decide)
    have hb := State.commit_phase hx
    rw [bumped] at hb
    exact hb

theorem LineKept.verdict (h : LineKept s) (n c : Nat) : LineKept (s.verdict n c).2 := by
  unfold State.verdict
  split
  · exact h
  · split
    · exact h
    · split
      · exact h.answerReferral _ _ _ _
      · unfold State.lateVerdict
        dsimp only
        split
        · split
          · exact h.of_only (s.bumpLotOf_only _ _) (by decide)
          · exact h
        · exact h

theorem LineKept.boxExchanged (h : LineKept s) (c : Nat) : LineKept (s.boxExchanged c).2 := by
  have hjet (n : Nat) (e : Chute) : (exchanged n e).jet = e.jet := by
    unfold exchanged
    split <;> rfl
  unfold State.boxExchanged
  split
  · exact h.eases (s.account_eases c (hjet _)) (s.account_dwellDone c (hjet _)).symm.trans
  · exact h

theorem LineKept.chanSet (h : LineKept s) (r : ChanSetReq) : LineKept (s.chanSet r).2 := by
  unfold State.chanSet
  split
  · split
    · next ch _ _ =>
      exact ((h.modChan ch (Channel.install r) rfl).of_only (State.modShared_only _ _) (by decide)).of_only
        (State.modCal_only _ _) (by decide)
    · exact h
    · exact h
  · exact h

theorem LineKept.chanReset (h : LineKept s) (n : Nat) : LineKept (s.chanReset n).2 := by
  unfold State.chanReset
  split
  · exact h
  · next ch _ =>
    have hreset := h.modChan ch Channel.enterStalled rfl
    split
    · exact h
    · exact hreset.stallJob ch
    · exact hreset

theorem LineKept.chanRestore (h : LineKept s) (n : Nat) : LineKept (s.chanRestore n).2 := by
  unfold State.chanRestore
  split
  · exact h
  · next ch _ =>
    split
    · exact h
    · exact h
    · exact ((h.modChan ch (fun c => { c.enterService with srcRun := 0 }) rfl).of_only
        (State.modCal_only _ _) (by decide)).opened.offer

theorem LineKept.countRead (h : LineKept s) (g i c : Nat) : LineKept (s.countRead g i c).2 := by
  have clear (x : Group) : LineKept (s.clearGroup x) := by
    cases x with
    | line => exact h.of_only (s.modLineCnt_only _) (by decide)
    | lot i => exact h.of_only (s.modSlot_only i _) (by decide)
    | chute c =>
      have hj : ∀ e : Chute, ({ e with ejected := 0, misses := 0 } : Chute).jet = e.jet := fun _ => rfl
      have ho := s.modChute_only c fun e => { e with ejected := 0, misses := 0 }
      have hd := s.modChute_dwellDone c hj
      exact h.eases ⟨ho .line (by decide), congrArg Pins.motion (ho .pins (by decide)),
        congrArg Track.loadPermit (ho .track (by decide)), hd.trans⟩ hd.symm.trans
    | chan ch => exact h.modChan ch _ rfl
    | link => exact h.of_only (s.modLinkCnt_only _) (by decide)
  unfold State.countRead
  split
  · exact h
  · split
    · exact clear _
    · exact h
  · exact h

theorem State.lot_only (s : State) : (∀ r, Only [.slot0, .slot1] s (s.lotLoad r).2) ∧
    (∀ n, Only [.slot0, .slot1] s (s.lotArm n).2) ∧ ∀ n, Only [.slot0, .slot1, .report, .lineCnt] s (s.lotFree n).2 := by
  refine ⟨fun r => ?_, fun n => ?_, fun n => ?_⟩
  · unfold State.lotLoad
    repeat' split
    all_goals first | exact s.modSlot_only _ _ | exact .refl _ s
  · unfold State.lotArm State.armReady
    repeat' split
    all_goals first | exact s.modSlot_only _ _ | exact .refl _ s
  · unfold State.lotFree
    repeat' split
    all_goals first | exact (s.modSlot_only _ _).mono (by decide) | exact s.retire_only _ _ | exact .refl _ s

theorem LineKept.eventMask (h : LineKept s) (m : Nat) : LineKept (s.eventMask m).2 := by
  unfold State.eventMask
  split
  · exact h.of_only (s.modReport_only _) (by decide)
  · exact h

theorem LineKept.owner (h : LineKept s) (r : Request) : LineKept (s.owner r).2 := by
  obtain ⟨hident, htrack, hchan, hlot, hpocket, hcal⟩ := s.reads_state
  obtain ⟨hload, harm, hfree⟩ := s.lot_only
  have same {u : State} (hu : u = s) : LineKept u := hu ▸ h
  cases r with
  | ident => exact same hident
  | trackRead => exact same htrack
  | chanRead c => exact same (hchan c)
  | lotRead i => exact same (hlot i)
  | pocketRead q => exact same (hpocket q)
  | calRead => exact same hcal
  | calWrite _ => exact h
  | trackSet r => exact h.trackSet r
  | lineReset => exact s.resetAll_kept
  | pocketPurge n => exact h.pocketPurge n
  | chuteSet c a f => exact h.chuteSet c a f
  | chanSet r => exact h.chanSet r
  | chanReset c => exact h.chanReset c
  | chanRestore c => exact h.chanRestore c
  | lotLoad r => exact h.of_only (hload r) (by decide)
  | lotArm i => exact h.of_only (harm i) (by decide)
  | lotFree i => exact h.of_only (hfree i) (by decide)
  | lineStart b m t => exact h.lineStart b m t
  | lineStop => exact h.lineStop
  | lineDrain => exact h.lineDrain
  | lineResume => exact h.lineResume
  | lineClear => exact h.lineClear
  | verdict n c => exact h.verdict n c
  | boxExchanged c => exact h.boxExchanged c
  | tempSet v => exact h.of_only (s.modTemp_only _) (by decide)
  | countRead g i c => exact h.countRead g i c
  | eventMask m => exact h.eventMask m

theorem HandsOver.lineKept {t : State} (h : HandsOver s t) (hs : LineKept s) : LineKept t := by
  obtain ⟨calen, buffer, v, hv, honly⟩ := h
  have hoffer : LineKept (s.offering calen buffer) := hs
  have hv' : LineKept v := by
    rcases hv with rfl | ⟨r, rfl⟩
    · exact hoffer
    · exact hoffer.owner r
  exact hv'.of_only honly (by decide)

/-! ### The index start (R31, R44) -/

theorem LineKept.cutShort (h : LineKept s) (ls cs : Bool) : OpenInv (s.cutShort ls cs) := by
  have hdone : (s.cutShort ls cs).dwellDone = true :=
    (State.dwellDone_iff _).mpr ⟨s.cutShort_jetsOff ls cs, s.cutShort_rests ls cs⟩
  obtain ⟨⟨⟨-, hfault, -⟩, hrecord, -, -, htimer⟩, -⟩ := h
  unfold OpenInv LineInv HandshakeInv FaultInv TimerInv
  rw [State.cutShort_line, State.cutShort_motion]
  refine ⟨⟨⟨(Bool.and_false _).symm, hfault, fun hx => (nomatch hx), ⟨fun _ => rfl, fun _ => rfl⟩, fun hx => (nomatch hx),
    fun _ hx => (nomatch hx)⟩, hrecord, fun hx => (nomatch hx), fun hx => (nomatch hx), ?_⟩, fun _ => hdone⟩
  show (if s.line.state.underWay then some (ms s.line.motionLimitMs) else s.line.motionTimer).isSome =
    (s.line.state.underWay && true)
  cases hu : s.line.state.underWay
  · rw [hu] at htimer; exact htimer
  · rfl

theorem OpenInv.handleLoad (h : OpenInv s) (q : Nat) (sensed : Bool) : OpenInv (s.handleLoad q sensed) := by
  have hask := h.eases (.of_only (s.askSlot_only q) (by decide))
  have load (u : State) (i : SlotId) : Eases u (u.loadInto q i) :=
    .of_pockets (u.loadInto_only q i) (by decide) (by rw [State.loadInto_track]; rfl)
  unfold State.handleLoad
  split
  · exact h
  · split
    · unfold State.load
      dsimp only
      split
      · exact hask.eases (load _ _)
      · exact hask.raiseFault _ _
    · exact h.eases (.of_only (s.modLineCnt_only _) (by decide))
    · exact h.raiseFault _ _
    · exact h

theorem OpenInv.handleCheck (h : OpenInv s) (q : Nat) (sensed : Bool) : OpenInv (s.handleCheck q sensed) := by
  have lost : OpenInv ((s.raise .partLost (.pocket q)).finish q .lost) :=
    h.eases ((s.raise_eases _ _).trans (State.finish_eases _ _ _))
  have lap : OpenInv (s.modPocket q Pocket.secondLap) := h.eases (s.modPocket_eases q _)
  unfold State.handleCheck
  split
  · exact h.raiseFault _ _
  · exact h
  · exact h.eases (s.finish_eases q _)
  · have hmiss (c : Nat) : OpenInv (s.missAt q c) :=
      h.eases ((s.modPocket_eases q _).trans (State.account_eases _ c missedPlace_jet))
    rw [State.ejectMiss_eq]
    split
    · exact hmiss _
    · exact (hmiss _).raiseFault _ _
  · exact lost
  · exact lap
  · exact lost
  · exact lap
  all_goals exact h

theorem OpenInv.handleBoth (h : OpenInv s) (ls cs : Bool) : OpenInv (s.handleBoth ls cs) := by
  have chosen (u : State) : Eases u u.chosen := .of_only (u.modChoices_only _) (by decide)
  unfold State.handleBoth
  dsimp only
  split
  · split
    · exact ((h.handleLoad _ _).handleCheck _ _).eases (chosen _)
    · exact ((h.handleCheck _ _).handleLoad _ _).eases (chosen _)
  · exact (h.handleLoad _ _).handleCheck _ _

/-- The load-permit memory is cleared, and LOADOK has fallen (R14, R31). -/
theorem OpenInv.advance (h : OpenInv s) (hload : s.line.loadOk = false) : OpenInv (s.modTrack Track.advance) := by
  obtain ⟨⟨⟨hready, hfault, -, hrest⟩, hrecord, htimer⟩, hdone⟩ := h
  exact ⟨⟨⟨hready, hfault, fun hx => absurd hx (by show s.line.loadOk ≠ true; rw [hload]; decide), hrest⟩, hrecord, htimer⟩, hdone⟩

theorem State.trackIndex_open (h : OpenInv s) (hrest : s.atRest) (hm : s.pins.motion = true) {m : Nat}
    (hp : s.line.Passing m) (ls cs : Bool) : OpenInv (s.trackIndex ls cs) := by
  obtain ⟨w, hw, -, heq⟩ := State.trackIndex_passes hrest ls cs
  have hload : (s.trackIndex ls cs).line.loadOk = false := by
    rw [heq]
    exact (hw.line hm m hp).loadOk
  unfold State.trackIndex at hload ⊢
  split
  · exact h.advance hp.loadOk
  · next hne =>
    rw [if_neg hne] at hload
    exact ((h.handleBoth ls cs).leaveDecide _).advance hload

/-- A drained line in MOVING is IDLE, its motion timer stopped (R44). -/
theorem OpenInv.judgeDrained (h : OpenInv s) (hp : s.line.phase = .moving) : OpenInv s.judgeDrained := by
  unfold State.judgeDrained
  split
  · next hd =>
    obtain ⟨hs, -⟩ := hd
    obtain ⟨hoff, -⟩ := h.1.moving_off hp
    obtain ⟨⟨⟨hready, hfault, hload, hmotion, -, -⟩, ⟨hfirst, hlater⟩, hbudget, hstall, -⟩, hdone⟩ := h
    rw [hs] at hfault hfirst hlater
    refine ⟨⟨⟨hoff, hfault, fun hx => ?_, hmotion, fun hx => ?_, fun hx => (nomatch hx)⟩, ⟨hfirst, fun _ => hlater (by decide)⟩,
      hbudget, hstall, rfl⟩, hdone⟩
    · have hrun := (hload hx).1
      rw [hs] at hrun; contradiction
    · rw [show s.line.phase = .working from hx] at hp; contradiction
  · exact h

theorem LineKept.indexStart (h : LineKept s) (ls cs : Bool) : LineKept (s.indexStart ls cs) := by
  have hpassing : (s.cutShort ls cs).line.Passing (ms s.line.motionLimitMs) := by
    rw [State.cutShort_line]; exact indexLine_passing _
  obtain ⟨w, hw, -, hx, -⟩ := s.indexStart_passage ls cs
  have hafter := hx.line_after hw
  have htrack := State.trackIndex_open (h.cutShort ls cs) (s.cutShort_rests ls cs) (s.cutShort_motion ls cs) hpassing ls cs
  have hmoving : ((s.cutShort ls cs).trackIndex ls cs).line.phase = .moving := by
    obtain ⟨v, hv, -, heq⟩ := State.trackIndex_passes (s.cutShort_rests ls cs) ls cs
    rw [heq]
    exact (hv.line (s.cutShort_motion ls cs) _ hpassing).phase
  refine OpenInv.kept ?_ (by rw [hafter.phase]; decide)
  rw [State.indexStart_eq]
  exact (htrack.eases (.of_only (State.modCal_only _ _) (by decide))).judgeDrained hmoving

/-! ### Time, power-on and every step -/

theorem tickTimer_isSome (t : Option Nat) : (tickTimer t).isSome = t.isSome := Option.isSome_map

theorem LineKept.tick (h : LineKept s) : LineKept s.tick := by
  have hd : s.tick.dwellDone = s.dwellDone := by
    have hj : s.tick.pulsingCount = s.pulsingCount := by
      show (s.chutes.map Chute.tick).countP Chute.pulsing = _
      rw [List.countP_map]
      exact congrArg (fun p => s.chutes.countP p) (funext fun e => tickTimer_isSome e.jet)
    unfold State.dwellDone
    rw [hj]; rfl
  unfold LineKept LineInv HandshakeInv FaultInv TimerInv DwellInv at h ⊢
  rw [hd]
  simp only [State.tick, LineCtl.tick, tickTimer_isSome]
  exact h

theorem LineKept.idle (h : LineKept s) : LineKept s.idle := by
  unfold State.idle
  split
  · exact h.tick
  · exact h
  · exact h

theorem State.poweredOn_kept (pins : Pins) (stored : StoredCal) (valid : Bool) (n : Nat) (l : List Instr) :
    LineKept (State.poweredOn pins stored valid n l) := by
  have hphase := restPhase_ne_working pins.motion
  have hjets : (State.poweredOn pins stored valid n l).jetsOff := fun e he => by rw [List.eq_of_mem_replicate he]; rfl
  exact ⟨⟨⟨rfl, rfl, fun hx => (nomatch hx), restPhase_eq_moving _, fun hx => absurd hx hphase, fun hx => (nomatch hx)⟩,
    ⟨rfl, fun _ => rfl⟩, fun hx => (nomatch hx), fun hx => (nomatch hx), rfl⟩,
    fun _ => (State.dwellDone_iff _).mpr ⟨hjets, rfl, rfl, rfl⟩, fun hx => absurd hx hphase⟩

/-- The budget's expiry cuts the jobs and the set, then the dwell work is judged (R36, R86). -/
theorem LineKept.budgetExpiry (h : LineKept s) :
    LineKept ((s.modLine fun l => { l with budget := none }).cutDwell.judgeDwell) := by
  obtain ⟨⟨hhand, hrecord, -, htimer⟩, hdwell, -⟩ := h
  have hopen : OpenInv (s.modLine fun l => { l with budget := none }) :=
    ⟨⟨hhand, hrecord, fun hx => (nomatch hx), htimer⟩, hdwell⟩
  exact (hopen.eases (State.cutDwell_eases _)).judgeDwell

/-- The motion timer runs in MOVING of a line under way, which its expiry faults (R37). -/
theorem LineKept.motionExpiry (h : LineKept s) (ht : s.line.motionTimer.isSome = true) :
    LineKept ((s.modLine fun l => { l with motionTimer := none }).raiseFault .motionFault .none) := by
  obtain ⟨⟨-, -, -, -, htimer⟩, -⟩ := h
  rw [htimer, Bool.and_eq_true] at ht
  rw [State.raiseFault_entry (s := s.modLine fun l => { l with motionTimer := none }) (.inl ht.1)]
  exact State.faultEntry_kept _ _ _

theorem LineKept.stallExpiry (h : LineKept s) : LineKept (s.modLine fun l => { l with stallTimer := none }) := by
  obtain ⟨⟨hhand, hrecord, hbudget, -, htimer⟩, hdwell⟩ := h
  exact ⟨⟨hhand, hrecord, hbudget, fun hx => (nomatch hx), htimer⟩, hdwell⟩

theorem LineKept.jetCompletion (h : LineKept s) (c : Nat) :
    LineKept (s.modChute c fun e => { e with jet := none }).judgeDwell := by
  have ho := s.modChute_only c fun e => { e with jet := none }
  refine (h.opened.eases ⟨ho .line (by decide), congrArg Pins.motion (ho .pins (by decide)),
    congrArg Track.loadPermit (ho .track (by decide)), fun hd => ?_⟩).judgeDwell
  obtain ⟨hj, hr⟩ := (s.dwellDone_iff).mp hd
  exact (State.dwellDone_iff _).mpr ⟨State.modChute_offs hj c fun _ _ => rfl, hr.of_only ho (by decide)⟩

theorem LineKept.transmit (h : LineKept s) : LineKept s.transmit := h.of_only s.transmit_only (by decide)

/-- The commands of the part itself and of its lines. -/
theorem LineKept.exec_own (h : LineKept s) {c : Instr} {t : State} (hc : c.request = none) (hr : ∀ b, c ≠ .requestTaken b)
    (he : exec c s = .next t) : LineKept t := by
  have ite {p : Prop} [Decidable p] {u v : State} (hu : p → LineKept u) (hv : LineKept v) :
      LineKept (if p then u.transmit else v.transmit) := by
    split
    · next hp => exact (hu hp).transmit
    · exact hv.transmit
  cases c <;> simp only [Instr.request, reduceCtorEq] at hc
  case requestTaken b => exact absurd rfl (hr b)
  all_goals obtain rfl := Host.Outcome.next.inj he
  case powerOnReset m a b => exact State.poweredOn_kept _ _ _ _ _
  case indexStart ls cs =>
    split
    · exact h.transmit
    · exact (h.indexStart ls cs).transmit
  case settle => exact ite h.settle h
  case frameTaken ch symbols =>
    have all (l : List LinkSymbol) : ∀ u, LineKept u → LineKept (l.foldl (State.linkSymbol ch) u) := by
      induction l with
      | nil => exact fun _ hu => hu
      | cons y l ih => exact fun u hu => ih _ (hu.linkSymbol ch y)
    exact (all symbols s h).transmit
  case watchdogExpiry ch =>
    exact ite (fun _ => ((h.modChan ch Channel.enterStalled rfl).of_only (State.raise_only _ _ _) (by decide)).stallJob ch) h
  case relaySettleExpiry ch => exact ite (fun _ => h.modChan ch _ (isSome_of_kind (Channel.enterSettle_kind _ _ _ _))) h
  case dwellBudgetExpiry => exact ite (fun _ => h.budgetExpiry) h
  case motionTimerExpiry => exact ite h.motionExpiry h
  case stallTimerExpiry =>
    exact ite (fun _ => (h.stallExpiry.of_only (State.raise_only _ _ _) (by decide)).of_only
      (State.modLineCnt_only _ _) (by decide)) h
  case jetCompletion c => exact ite (fun _ => h.jetCompletion c) h
  case stalenessExpiry =>
    exact ite (fun _ => (h.of_only (s.modTemp_only _) (by decide)).of_only (State.raise_only _ _ _) (by decide)) h
  case linkFrameReceived bytes => exact (h.of_only (Only.foldl State.linkByte_only bytes s) (by decide)).transmit
  case gapExpiry =>
    split
    · exact (h.of_only (t := s.giveUp) (((s.setReceiver_only _).mono (by decide)).trans
        ((State.modLinkCnt_only _ _).mono (m := [.link, .linkCnt]) (by decide))) (by decide)).transmit
    · exact h.transmit
  case huntingPause =>
    split
    · exact (h.of_only (t := s.giveUp) (((s.setReceiver_only _).mono (by decide)).trans
        ((State.modLinkCnt_only _ _).mono (m := [.link, .linkCnt]) (by decide))) (by decide)).transmit
    · exact h.transmit
    · exact h.transmit
  case transmitEnd => exact h.of_only s.frameSent_only (by decide)
  case calWriteCompletion =>
    split
    · exact (((h.of_only (s.modCal_only _) (by decide)).of_only (State.modLink_only _ _) (by decide)).of_only
        (State.modReport_only _ _) (by decide)).transmit
    · exact h.transmit

theorem LineKept.exec (h : LineKept s) {c : Instr} {t : State} (he : exec c s = .next t) : LineKept t := by
  cases hr : c.request with
  | some x => exact (exec_request_handsOver hr he).lineKept h
  | none =>
    by_cases hb : ∃ b, c = .requestTaken b
    · obtain ⟨b, rfl⟩ := hb
      exact (exec_requestTaken_handsOver he).lineKept h
    · push Not at hb
      exact h.exec_own hr hb he

/-- Settles O7: every operation keeps the invariant with the dwell work unjudged, and whatever can end that work judges it. -/
theorem lineInvariantKept : Obligations.LineInvariantKept := by
  unfold Obligations.LineInvariantKept
  intro s t hline hdwell hstep
  have h : LineKept s := ⟨hline, hdwell⟩
  rcases step_cases hstep with rfl | ⟨c, rest, -, he⟩
  · exact h.idle
  · exact LineKept.exec (s := { s with pending := rest }) h he

end

end Sys2Proof.Machine
end


-- ==== Sys2Proof/Proofs/LineRequests.lean ====
section
/-! PROOFS. The state at reset, and LINE.START, LINE.STOP and LINE.CLEAR taken at once: what the owner makes of the line, then
its reply (R28 to R30, R39 to R41, R47, R49). -/

namespace Sys2Proof.Machine

/-! ### The state at reset -/

theorem State.reset_slotInv (i : SlotId) : SlotInv State.reset i := by
  cases i <;> exact ⟨rfl, fun _ => rfl, fun h => (nomatch h), rfl⟩

theorem State.reset_chuteInv {c : Nat} (h1 : 1 ≤ c) (h2 : c ≤ 20) : ChuteInv State.reset c := by
  have hc : State.reset.chute c = .powerOn := by interval_cases c <;> rfl
  unfold ChuteInv
  rw [hc]
  exact ⟨rfl, Nat.zero_le _, fun _ hg => (nomatch hg), fun _ => ⟨rfl, rfl⟩, fun h => (nomatch h)⟩

/-- Settles O6: reset is a power-on, whose line invariant holds for every level of MOTION; the tables are empty. -/
theorem resetMeetsInvariants : Obligations.ResetMeetsInvariants := by
  unfold Obligations.ResetMeetsInvariants
  obtain ⟨hline, hdwell⟩ : LineKept State.reset := State.poweredOn_kept _ _ _ _ _
  have hchan : ChannelInv .powerOn none :=
    ⟨rfl, rfl, fun h => (nomatch h), rfl, fun _ h => (nomatch h), rfl, rfl, fun h => absurd rfl h, by decide, by decide⟩
  refine ⟨⟨rfl, by decide, fun h => absurd rfl h, rfl, rfl⟩, hline, hdwell, ⟨hchan, hchan⟩,
    ⟨State.reset_slotInv _, State.reset_slotInv _, ⟨by decide, by decide⟩⟩, fun c => State.reset_chuteInv, fun q hq => ?_,
    .of_empty (fun h => absurd rfl h) (fun p hp => (nomatch hp)) (hline.atRest hdwell rfl),
    ⟨by decide, by decide, by decide, by decide⟩, fun _ => rfl⟩
  exact absurd hq (Nat.not_lt_zero q)

/-! ### A line reply -/

section
variable {s : State}

/-- A LINE request whose owner leaves t and answers with its line fields: the reply placed, all else as in t (R49). -/
theorem State.ask_line {t : State} {st : Status} {ordinal extra : List Byte} {o : State → Answer × State} (h : s.taking)
    (tag : Byte) (r : Request) (ho : o s = t.lineReply st ordinal extra) (hr : t.report = s.report) :
    (s.ask tag r o).transmit =
      t.replied (replyFrame r.typeCode tag st (ordinal ++ t.line.fields ++ extra)) :=
  State.ask_answer h tag r ho hr

theorem State.ask_lineOk {t : State} {o : State → Answer × State} (h : s.taking)
    (tag : Byte) (r : Request) (ho : o s = t.lineOk) (hr : t.report = s.report) :
    (s.ask tag r o).transmit = t.replied ⟨r.typeCode + 0x80#8, tag, 0x00#8 :: t.line.fields⟩ := by
  rw [State.ask_line h tag r ho hr, List.append_nil]; rfl

theorem State.ask_lineBusy {o : State → Answer × State} (h : s.taking)
    (tag : Byte) (r : Request) (ho : o s = s.lineBusy) :
    (s.ask tag r o).transmit = s.replied ⟨r.typeCode + 0x80#8, tag, 0x01#8 :: s.line.fields⟩ := by
  rw [State.ask_line h tag r ho rfl, List.append_nil]; rfl

theorem State.ask_lineNotReady {n : Nat} {o : State → Answer × State} (h : s.taking)
    (tag : Byte) (r : Request) (ho : o s = s.lineNotReady n) :
    (s.ask tag r o).transmit = s.replied ⟨r.typeCode + 0x80#8, tag, 0x02#8 :: s.line.fields ++ le 1 n⟩ :=
  State.ask_line h tag r ho rfl

/-! ### LINE.CLEAR (R47) -/

theorem exec_lineClear (tag : Byte) (s : State) :
    exec (.lineClear tag) s = .next (s.ask tag .lineClear State.lineClear).transmit := rfl

/-- Settles O39: the owner's rule by line state, and its answer. -/
theorem lineClearTaken : Obligations.LineClearTaken := by
  unfold Obligations.LineClearTaken
  intro tag s hs
  simp only [exec_lineClear]
  have busy (h : s.lineClear = s.lineBusy) := congrArg (Host.Outcome.next (ρ := Refusal) (φ := Fault))
    (State.ask_lineBusy hs tag .lineClear h)
  refine ⟨fun h l hl => ?_, fun h hempty l hl => ?_, fun h ⟨p, hp, hne⟩ => ?_, fun h => busy ?_⟩
  · subst hl
    exact congrArg _ (State.ask_lineOk (t := s.modLine clearFault) hs tag _ (by simp only [State.lineClear, h]) rfl)
  · subst hl
    refine congrArg _ (State.ask_lineOk (t := (s.modLine fun l => { l with state := .idle }).modTrack fun t =>
      { t with loadPermit := false }) hs tag _ ?_ rfl)
    simp only [State.lineClear, h, Track.occupiedCount_eq_zero.mpr hempty, if_true]
  · have hocc : s.track.occupiedCount ≠ 0 := fun h0 => hne (Track.occupiedCount_eq_zero.mp h0 p hp)
    exact busy (by simp only [State.lineClear, h, hocc, if_false])
  · unfold State.lineClear
    rcases h with h | h | h | h <;> rw [h]

/-! ### LINE.STOP (R39, R40, R41) -/

theorem exec_lineStop (tag : Byte) (s : State) :
    exec (.lineStop tag) s = .next (s.ask tag .lineStop State.lineStop).transmit := rfl

theorem State.lineStop_worked (h : s.line.state.worked = true) : s.lineStop = s.enterStopping.lineOk := by
  unfold State.lineStop
  cases hs : s.line.state <;> rw [hs] at h <;> first | rfl | contradiction

theorem State.enterStopping_waiting (h : s.line.phase = .waiting) : s.enterStopping = s.modLine fun l => { l with
    state := .stopped, phase := restPhase s.pins.motion, ready := false, loadOk := false, budget := none,
    stallTimer := none } := if_pos h

theorem State.enterStopping_open (h : s.line.phase ≠ .waiting) : s.enterStopping = s.modLine fun l => { l with
    state := .stopping, ready := false, loadOk := false, stallTimer := none } := if_neg h

/-- Settles O37: the owner's rule by line state, and the entry to STOPPING by phase. -/
theorem lineStopTaken : Obligations.LineStopTaken := by
  unfold Obligations.LineStopTaken
  intro tag s hs
  simp only [exec_lineStop]
  refine ⟨fun h => congrArg _ (State.ask_lineBusy hs tag _ ?_), fun h => congrArg _ (State.ask_lineOk hs tag _ ?_ rfl),
    fun h => ?_⟩
  · unfold State.lineStop
    rcases h with h | h <;> rw [h]
  · unfold State.lineStop
    rcases h with h | h <;> rw [h]
  · have hw : s.line.state.worked = true := by rcases h with h | h <;> rw [h] <;> rfl
    have hown := State.lineStop_worked hw
    constructor
    · intro hp l hl
      subst hl
      rw [State.enterStopping_waiting hp] at hown
      exact congrArg _ (State.ask_lineOk hs tag _ hown rfl)
    · intro hp l hl
      subst hl
      rw [State.enterStopping_open hp] at hown
      have hask := State.ask_lineOk hs tag .lineStop hown rfl
      exact congrArg _ hask

/-! ### READY at rest, and LOADOK (R30, R35) -/

theorem State.activeSlot_isSome (s : State) :
    s.activeSlot.isSome = true ↔ s.slot0.state = .active ∨ s.slot1.state = .active := by
  unfold State.activeSlot
  split
  · next h => exact ⟨fun _ => .inl h, fun _ => rfl⟩
  · next h0 =>
    split
    · next h1 => exact ⟨fun _ => .inr h1, fun _ => rfl⟩
    · next h1 => exact ⟨fun h => (nomatch h), fun h => absurd h (not_or.mpr ⟨h0, h1⟩)⟩

theorem State.pendingSlot_isSome (s : State) :
    s.pendingSlot.isSome = true ↔ s.slot0.state = .pending ∨ s.slot1.state = .pending := by
  unfold State.pendingSlot
  split
  · next h => exact ⟨fun _ => .inl h, fun _ => rfl⟩
  · next h0 =>
    split
    · next h1 => exact ⟨fun _ => .inr h1, fun _ => rfl⟩
    · next h1 => exact ⟨fun h => (nomatch h), fun h => absurd h (not_or.mpr ⟨h0, h1⟩)⟩

theorem State.loadFit_iff (s : State) : s.loadFit = true ↔ s.line.state = .run ∧
    (s.pocket (s.track.pocketAt 0)).state = .empty ∧ (s.activeSlot ≠ none ∨ s.pendingSlot ≠ none) := by
  simp [State.loadFit, Option.isSome_iff_ne_none, and_assoc]

/-- LOADOK and the load-permit memory are set where the pocket at LOAD is fit, and stay as they were elsewhere (R14, R35). -/
theorem State.judgeLoadOk_eq (s : State) : s.judgeLoadOk =
    (s.modLine fun l => { l with loadOk := l.loadOk || s.loadFit }).modTrack fun t =>
      { t with loadPermit := t.loadPermit || s.loadFit } := by
  unfold State.judgeLoadOk
  cases h : s.loadFit
  · simp [State.modLine, State.modTrack]
  · simp

/-- The line and the track of a RUN or DRAIN line with READY raised and the pocket at LOAD judged (R30, R35, R38). -/
theorem State.readyAtRest_worked (h : s.line.state.worked = true) : s.readyAtRest =
    (s.modLine fun l => { l with
      ready := true, stallTimer := if s.line.stallLimitMs = 0 then none else some (1000 * s.line.stallLimitMs)
      loadOk := l.loadOk || s.loadFit }).modTrack fun t => { t with loadPermit := t.loadPermit || s.loadFit } := by
  unfold State.readyAtRest
  rw [if_pos h, State.judgeLoadOk_eq]
  rfl

theorem State.readyAtRest_unworked (h : s.line.state.worked = false) : s.readyAtRest = s := by
  unfold State.readyAtRest
  rw [h]; rfl

/-! ### LINE.START (R28, R29, R30) -/

theorem exec_lineStart (tag : Byte) (b m t : Nat) (s : State) :
    exec (.lineStart tag b m t) s = .next (s.ask tag (.lineStart b m t) (State.lineStart b m t)).transmit := rfl

theorem setBits_eq_zero {l : List Bool} : setBits l = 0 ↔ ∀ b ∈ l, b = false := by
  induction l with
  | nil => simp [setBits]
  | cons b l ih => cases b <;> simp [setBits, ih]

theorem State.startFailed_iff (s : State) : s.startFailed = 0 ↔ s.track.p ≠ 0 ∧ (∃ e ∈ s.chutes, e.cfg ≠ none) ∧
    (s.slot0.state = .active ∨ s.slot1.state = .active ∨ s.slot0.state = .pending ∨ s.slot1.state = .pending) ∧
    s.cal.valid = true ∧ (s.chanA.service = .inService ∨ s.chanB.service = .inService) := by
  rw [State.startFailed, setBits_eq_zero]
  simp only [State.startConditions, List.map_cons, List.map_nil, List.forall_mem_cons, List.not_mem_nil, false_implies,
    implies_true, and_true, Bool.not_eq_false', Bool.or_eq_true, State.activeSlot_isSome, State.pendingSlot_isSome,
    bne_iff_ne, beq_iff_eq, List.any_eq_true, or_assoc]
  simp only [Option.isSome_iff_ne_none]

theorem startPasses_one (b m t : Nat) : startPasses b m t 1 ↔ 5 ≤ b ∧ b ≤ 1000 :=
  ⟨fun ⟨h, _⟩ => h rfl, fun h => ⟨fun _ => h, by omega, by omega⟩⟩

theorem startPasses_two (b m t : Nat) : startPasses b m t 2 ↔ 20 ≤ m ∧ m ≤ 5000 :=
  ⟨fun ⟨_, h, _⟩ => h rfl, fun h => ⟨by omega, fun _ => h, by omega⟩⟩

theorem startPasses_three (b m t : Nat) : startPasses b m t 3 ↔ t = 0 ∨ (100 ≤ t ∧ t ≤ 60000) :=
  ⟨fun ⟨_, _, h⟩ => h rfl, fun h => ⟨by omega, by omega, fun _ => h⟩⟩

/-- What each judged field of LINE.START says is what R28 asks of its ordinal. -/
theorem startFields_pass (b m t : Nat) :
    ∀ e ∈ [(1, within 5 1000 b), (2, within 20 5000 m), (3, t == 0 || within 100 60000 t)],
      e.2 = true ↔ startPasses b m t e.1 := by
  simp only [List.forall_mem_cons, List.not_mem_nil, false_implies, implies_true, and_true, startPasses_one,
    startPasses_two, startPasses_three, within, Bool.and_eq_true, Bool.or_eq_true, decide_eq_true_eq, beq_iff_eq]

theorem lineStartBad_of_firstFails {b m t n : Nat} (h : firstFails (startPasses b m t) n) : lineStartBad b m t = some n := by
  refine firstBad_of_firstFails (by simp) (startFields_pass b m t) (fun hfail => ?_) h
  have hn : n = 1 ∨ n = 2 ∨ n = 3 := by
    by_contra hno
    exact hfail ⟨by omega, by omega, by omega⟩
  rcases hn with rfl | rfl | rfl
  · exact ⟨_, List.mem_cons_self, rfl⟩
  · exact ⟨_, List.mem_cons_of_mem _ List.mem_cons_self, rfl⟩
  · exact ⟨_, List.mem_cons_of_mem _ (List.mem_cons_of_mem _ List.mem_cons_self), rfl⟩

theorem lineStartBad_eq_none {b m t : Nat} (h : ∀ n, startPasses b m t n) : lineStartBad b m t = none :=
  firstBad_eq_none.mpr fun e he => (startFields_pass b m t e he).mpr (h _)

/-- Entry to RUN from IDLE retries nothing (R30). -/
theorem State.enterRun_idle (h : s.line.state = .idle) : s.enterRun .run =
    if s.pins.motion then s.modLine (enteredLine s.pins.motion .run)
    else (s.modLine (enteredLine s.pins.motion .run)).readyAtRest := by
  rw [State.enterRun_eq, State.entered, if_neg (show ¬s.line.state = .stopped by rw [h]; decide)]

theorem State.lineStart_taken {b m t : Nat} (hidle : s.line.state = .idle) (hf : s.startFailed = 0)
    (hall : ∀ n, startPasses b m t n) : s.lineStart b m t =
      ((s.modLine fun l => { l with budgetMs := b, motionLimitMs := m, stallLimitMs := t }).enterRun .run).lineOk := by
  unfold State.lineStart
  rw [if_pos hidle, if_pos hf, lineStartBad_eq_none hall]

/-- LINE.START with MOTION high: the line is RUN in MOVING, with the motion timer (R30). -/
theorem State.lineStart_moving {b m t : Nat} (hidle : s.line.state = .idle) (hf : s.startFailed = 0)
    (hall : ∀ n, startPasses b m t n) (hm : s.pins.motion = true) : s.lineStart b m t =
      (s.modLine fun l => { l with
        budgetMs := b, motionLimitMs := m, stallLimitMs := t, state := .run, phase := .moving
        motionTimer := some (1000 * m) }).lineOk := by
  rw [State.lineStart_taken hidle hf hall, State.enterRun_idle (by exact hidle), if_pos (show (s.modLine _).pins.motion = true from hm)]
  unfold enteredLine
  rw [show (s.modLine _).pins.motion = true from hm]
  rfl

/-- LINE.START with MOTION low: READY and the stall timer, and LOADOK where the pocket at LOAD is EMPTY (R30, R35). -/
theorem State.lineStart_waiting {b m t : Nat} (hidle : s.line.state = .idle) (hf : s.startFailed = 0)
    (hall : ∀ n, startPasses b m t n) (hm : s.pins.motion = false) :
    ∃ fit, (fit = true ↔ (s.pocket (s.track.pocketAt 0)).state = .empty) ∧ s.lineStart b m t =
      ((s.modLine fun l => { l with
        budgetMs := b, motionLimitMs := m, stallLimitMs := t, state := .run, phase := .waiting, ready := true
        stallTimer := if t = 0 then none else some (1000 * t), loadOk := l.loadOk || fit }).modTrack fun x =>
          { x with loadPermit := x.loadPermit || fit }).lineOk := by
  obtain ⟨-, -, hslots, -⟩ := s.startFailed_iff.mp hf
  have hlot : s.activeSlot ≠ none ∨ s.pendingSlot ≠ none := by
    rw [← Option.isSome_iff_ne_none, ← Option.isSome_iff_ne_none, State.activeSlot_isSome, State.pendingSlot_isSome, or_assoc]
    exact hslots
  rw [State.lineStart_taken hidle hf hall, State.enterRun_idle (by exact hidle),
    if_neg (show ¬(s.modLine _).pins.motion = true from ne_true_of_eq_false hm), State.readyAtRest_worked rfl]
  unfold enteredLine
  rw [show (s.modLine _).pins.motion = false from hm]
  exact ⟨State.loadFit { s with line := { s.line with
      budgetMs := b, motionLimitMs := m, stallLimitMs := t, state := .run, phase := .waiting } },
    (State.loadFit_iff _).trans ⟨fun ⟨_, h, _⟩ => h, fun h => ⟨rfl, h, hlot⟩⟩, rfl⟩

/-- Settles O36: the refusals in order, then the entry to RUN with MOTION high and low. -/
theorem lineStartTaken : Obligations.LineStartTaken := by
  unfold Obligations.LineStartTaken
  intro tag b m t s hs
  simp only [exec_lineStart]
  refine ⟨fun h => congrArg _ (State.ask_lineBusy hs tag _ (if_neg h)), fun hidle => ⟨fun hf => ?_, s.startFailed_iff,
    fun n hf hn => ?_, fun hf hall => ?_⟩⟩
  · exact congrArg _ (State.ask_lineNotReady hs tag _ ((if_pos hidle).trans (if_neg hf)))
  · have hown : s.lineStart b m t = s.lineReply .badField (le 1 n) [] := by
      unfold State.lineStart
      rw [if_pos hidle, if_pos hf, lineStartBad_of_firstFails hn]
    have hask := State.ask_line hs tag (.lineStart b m t) hown rfl
    rw [List.append_nil] at hask
    exact congrArg _ hask
  · cases hm : s.pins.motion
    · obtain ⟨fit, hfit, hown⟩ := State.lineStart_waiting hidle hf hall hm
      have hask := State.ask_lineOk hs tag (.lineStart b m t) hown rfl
      refine ⟨_, _, congrArg _ hask, rfl, rfl, rfl, rfl, rfl, rfl, rfl, fun h => (nomatch h), fun _ => ⟨rfl, rfl, rfl, rfl,
        fun he => ?_, fun he => ?_⟩⟩
      · rw [hfit.mpr he]
        exact ⟨Bool.or_true _, Bool.or_true _⟩
      · rw [eq_false_of_ne_true (mt hfit.mp he)]
        refine ⟨Bool.or_false _, ?_⟩
        show { s.track with loadPermit := s.track.loadPermit || false } = s.track
        rw [Bool.or_false]
    · have hask := State.ask_lineOk hs tag (.lineStart b m t) (State.lineStart_moving hidle hf hall hm) rfl
      exact ⟨_, s.track, congrArg _ hask, rfl, rfl, rfl, rfl, rfl, rfl, rfl, fun _ => ⟨rfl, rfl, rfl, rfl, rfl⟩,
        fun h => (nomatch h)⟩

end

end Sys2Proof.Machine
end


-- ==== Sys2Proof/Proofs/DrainAndResume.lean ====
section
/-! PROOFS. LINE.DRAIN and LINE.RESUME: the refusals, and the entry to RUN or DRAIN from STOPPED with its retries of HELD
commits (R30, R40, R42, R43, R144). -/

namespace Sys2Proof.Machine

section
variable {s t u : State}

/-! ### What a commit leaves of the reports and the slots -/

/-- Of the Report Queue the event table alone is written, and the slots keep their states and definitions. -/
structure Retains (s t : State) : Prop where
  report : t.report = { s.report with events := t.report.events }
  slot : ∀ i, (t.slot i).state = (s.slot i).state

theorem Retains.refl (s : State) : Retains s s := ⟨rfl, fun _ => rfl⟩

theorem Retains.trans (h : Retains s t) (k : Retains t u) : Retains s u :=
  ⟨by rw [k.report, h.report], fun i => (k.slot i).trans (h.slot i)⟩

theorem Retains.of_only {l : List Block} (h : Only l s t) (hr : .report ∉ l) (h0 : .slot0 ∉ l) (h1 : .slot1 ∉ l) :
    Retains s t := by
  have hrep : t.report = s.report := h .report hr
  exact ⟨by rw [hrep], fun i => by rw [State.slot_congr (h .slot0 h0) (h .slot1 h1)]⟩

theorem Retains.raise (s : State) (k : EventKind) (d : Detail) : Retains s (s.raise k d) := ⟨rfl, fun i => by cases i <;> rfl⟩

theorem Retains.tx (h : Retains s t) : t.report.tx = s.report.tx := by rw [h.report]

theorem Retains.reply (h : Retains s t) : t.report.reply = s.report.reply := by rw [h.report]

theorem Retains.activeSlot (h : Retains s t) : t.activeSlot = s.activeSlot := by
  have h0 := h.slot .s0
  have h1 := h.slot .s1
  unfold State.activeSlot
  rw [show t.slot0.state = s.slot0.state from h0, show t.slot1.state = s.slot1.state from h1]

theorem Retains.pendingSlot (h : Retains s t) : t.pendingSlot = s.pendingSlot := by
  have h0 := h.slot .s0
  have h1 := h.slot .s1
  unfold State.pendingSlot
  rw [show t.slot0.state = s.slot0.state from h0, show t.slot1.state = s.slot1.state from h1]

theorem State.account_retains (s : State) (c : Nat) (f : Chute → Chute) : Retains s (s.account c f) := by
  have h := s.account_only c f
  exact ⟨s.account_queues c f, fun i => by rw [State.slot_congr (h .slot0 (by decide)) (h .slot1 (by decide))]⟩

theorem State.bumpLotOf_retains (s : State) (q : Nat) (f : LotCounters → LotCounters) : Retains s (s.bumpLotOf q f) := by
  have hr : (s.bumpLotOf q f).report = s.report := s.bumpLotOf_only q f .report (by decide)
  refine ⟨by rw [hr], fun i => ?_⟩
  unfold State.bumpLotOf
  split
  · next j _ => cases i <;> cases j <;> rfl
  · rfl

theorem State.modPocket_retains (s : State) (q : Nat) (f : Pocket → Pocket) : Retains s (s.modPocket q f) :=
  .of_only (s.modPocket_only q f) (by decide) (by decide) (by decide)

theorem State.commit_retains (s : State) (q d : Nat) : Retains s (s.commit q d) := by
  have commitTo (c : Nat) (o : Bool) : Retains s (s.commitTo q c o) :=
    (s.modPocket_retains q _).trans (State.account_retains _ _ _)
  rcases s.commit_cases q d with ⟨-, e⟩ | ⟨a, -, -, -, e⟩ | ⟨-, e⟩ <;> rw [e]
  · exact commitTo _ _
  · exact (commitTo _ _).trans (State.bumpLotOf_retains _ _ _)
  · exact ((s.modPocket_retains q _).trans (.raise _ _ _)).trans
      (.of_only (State.lineBlocked_only _) (by decide) (by decide) (by decide))

theorem State.commits_retains (s : State) (l : List (Nat × Nat)) : Retains s (s.commits l) := by
  induction l generalizing s with
  | nil => exact .refl s
  | cons x l ih => exact (s.commit_retains x.1 x.2).trans (ih _)

theorem State.retried_retains (s : State) : Retains s s.retried := s.commits_retains _

/-! ### A reply after the retries -/

/-- A line request whose owner leaves t, which has raised events alone and none at an IDLE transmitter. -/
theorem State.ask_lineOk_retains {o : State → Answer × State} (h : s.taking) (tag : Byte) (r : Request) (ho : o s = t.lineOk)
    (hr : Retains s t) (hx : s.report.tx ≠ none ∨ t.report = s.report) :
    (s.ask tag r o).transmit = t.replied ⟨r.typeCode + 0x80#8, tag, 0x00#8 :: t.line.fields⟩ := by
  rcases hx with hx | hx
  · rw [State.ask_taken h.1, ho]
    refine (State.place_transmit (fun hn => absurd (hr.tx.symm.trans hn) hx)
      (hr.reply.trans (State.takesAtOnce_reply h.1)) _).trans ?_
    simp only [State.lineOk, State.lineReply, List.append_nil]
    rfl
  · exact State.ask_lineOk h tag r ho hx

/-! ### Entry from STOPPED (R30, R144) -/

/-- The line entered, before any retry, with its retries made. -/
theorem State.entered_stopped (h : s.line.state = .stopped) (target : LineState) :
    s.entered target = (s.modLine (enteredLine s.pins.motion target)).retried := if_pos h

theorem State.entered_heldTargets (s : State) (m : Bool) (target : LineState) :
    (s.modLine (enteredLine m target)).heldTargets = s.heldTargets := State.heldTargets_congr rfl

/-- With every retried pocket committed the line is as entered. -/
theorem State.entered_line (h : s.line.state = .stopped) {target : LineState}
    (hd : ∀ q d, (q, d) ∈ s.heldTargets → ((s.entered target).pocket q).state ≠ .held) :
    (s.entered target).line = enteredLine s.pins.motion target s.line := by
  rw [State.entered_stopped h] at hd ⊢
  exact State.retried_line fun q d hm => hd q d ((s.entered_heldTargets _ target) ▸ hm)

/-- A line that CHUTE_BLOCKED meets on entry: STOPPED again, with MOTION high STOPPING (R40). -/
theorem State.entered_blockedLine (s : State) {target : LineState} (ht : target.worked = true) :
    (s.modLine (enteredLine s.pins.motion target)).lineBlocked.line = { enteredLine s.pins.motion target s.line with
      state := if s.pins.motion then .stopping else .stopped, ready := false, loadOk := false, stallTimer := none
      budget := if s.pins.motion then s.line.budget else none } := by
  cases hm : s.pins.motion
  · rw [State.lineBlocked_waiting (s := s.modLine (enteredLine false target)) ht rfl]
    show { enteredLine false target s.line with
      state := .stopped, phase := restPhase s.pins.motion, ready := false, loadOk := false, budget := none,
      stallTimer := none } = _
    rw [hm]; rfl
  · rw [State.lineBlocked_open (s := s.modLine (enteredLine true target)) ht (by
      show restPhase true ≠ .waiting; decide)]
    rfl

theorem State.entered_line_blocked (h : s.line.state = .stopped) {target : LineState} (ht : target.worked = true) {q d : Nat}
    (hm : (q, d) ∈ s.heldTargets) (hd : ((s.entered target).pocket q).state = .held) :
    (s.entered target).line = { enteredLine s.pins.motion target s.line with
      state := if s.pins.motion then .stopping else .stopped, ready := false, loadOk := false, stallTimer := none
      budget := if s.pins.motion then s.line.budget else none } := by
  rw [State.entered_stopped h] at hd ⊢
  rw [← s.entered_blockedLine ht]
  exact State.retried_line_blocked ((s.entered_heldTargets _ target).symm ▸ hm) hd

/-- A line still in its target state after the retries is as entered. -/
theorem State.entered_line_of_state (h : s.line.state = .stopped) {target : LineState} (ht : target.worked = true)
    (hs : (s.entered target).line.state = target) : (s.entered target).line = enteredLine s.pins.motion target s.line := by
  by_contra hne
  have : ∃ q d, (q, d) ∈ s.heldTargets ∧ ((s.entered target).pocket q).state = .held := by
    by_contra hno
    push Not at hno
    exact hne (State.entered_line h hno)
  obtain ⟨q, d, hm, hd⟩ := this
  rw [State.entered_line_blocked h ht hm hd] at hs
  rw [← hs] at ht
  revert ht
  show LineState.worked (if s.pins.motion then .stopping else .stopped) = true → False
  cases s.pins.motion <;> decide

theorem State.entered_retains (s : State) (target : LineState) : Retains s (s.entered target) := by
  have h : Retains s (s.modLine (enteredLine s.pins.motion target)) :=
    .of_only (s.modLine_only _) (by decide) (by decide) (by decide)
  unfold State.entered
  split
  · exact h.trans (State.retried_retains _)
  · exact h

theorem State.readyAtRest_retains (s : State) : Retains s s.readyAtRest := by
  unfold State.readyAtRest
  split
  · exact .of_only (((s.modLine_only _).mono (m := [.line, .track]) (by decide)).trans (State.judgeLoadOk_only _))
      (by decide) (by decide) (by decide)
  · exact .refl s

theorem State.enterRun_retains (s : State) (target : LineState) : Retains s (s.enterRun target) := by
  rw [State.enterRun_eq]
  split
  · exact s.entered_retains target
  · exact (s.entered_retains target).trans (State.readyAtRest_retains _)

/-! ### The two requests -/

theorem exec_lineResume (tag : Byte) (s : State) :
    exec (.lineResume tag) s = .next (s.ask tag .lineResume State.lineResume).transmit := rfl

theorem exec_lineDrain (tag : Byte) (s : State) :
    exec (.lineDrain tag) s = .next (s.ask tag .lineDrain State.lineDrain).transmit := rfl

theorem State.bothSuspect_iff (s : State) : s.bothSuspect = true ↔ s.chanA.service = .suspect ∧ s.chanB.service = .suspect := by
  simp [State.bothSuspect]

theorem State.bothSuspect_false (h : s.chanA.service ≠ .suspect ∨ s.chanB.service ≠ .suspect) : s.bothSuspect = false :=
  eq_false_of_ne_true (mt s.bothSuspect_iff.mp (not_and_or.mpr h))

theorem State.lineResume_enters (h : s.line.state = .stopped) (hs : s.bothSuspect = false) :
    s.lineResume = (s.enterRun .run).lineOk := by
  simp [State.lineResume, h, hs]

theorem State.lineDrain_enters (h : s.line.state = .stopped) (hs : s.bothSuspect = false) :
    s.lineDrain = (s.enterRun .drain).lineOk := by
  simp [State.lineDrain, h, hs]

/-- LINE.RESUME or LINE.DRAIN, with its type and the state that it enters. -/
def entersLine (tag : Byte) (c : Instr) (typ : Byte) (target : LineState) : Prop :=
  c = .lineResume tag ∧ typ = 0x93#8 ∧ target = .run ∨ c = .lineDrain tag ∧ typ = 0x92#8 ∧ target = .drain

theorem entersLine.worked {tag typ : Byte} {c : Instr} {target : LineState} (h : entersLine tag c typ target) :
    target.worked = true := by
  rcases h with ⟨-, -, rfl⟩ | ⟨-, -, rfl⟩ <;> rfl

/-- Either request from STOPPED: the entry's state, with the reply. -/
theorem entersLine.exec {tag typ : Byte} {c : Instr} {target : LineState} (h : entersLine tag c typ target) (hs : s.taking)
    (hstop : s.line.state = .stopped) (hsus : s.chanA.service ≠ .suspect ∨ s.chanB.service ≠ .suspect)
    (hu : s.enterRun target = u) (hx : s.report.tx ≠ none ∨ u.report = s.report) :
    Machine.exec c s = .next (u.replied ⟨typ, tag, 0x00#8 :: u.line.fields⟩) := by
  have hr : Retains s u := hu ▸ s.enterRun_retains target
  rcases h with ⟨rfl, rfl, rfl⟩ | ⟨rfl, rfl, rfl⟩
  · exact congrArg _ (State.ask_lineOk_retains hs tag .lineResume
      (hu ▸ State.lineResume_enters hstop (State.bothSuspect_false hsus)) hr hx)
  · exact congrArg _ (State.ask_lineOk_retains hs tag .lineDrain
      (hu ▸ State.lineDrain_enters hstop (State.bothSuspect_false hsus)) hr hx)

/-- Entry with MOTION low and no retry that blocks the line: READY, and LOADOK where the pocket at LOAD is fit (R30, R35). -/
theorem State.enterRun_waiting (hstop : s.line.state = .stopped) {target : LineState} (ht : target.worked = true)
    (hm : s.pins.motion = false) (hst : (s.entered target).line.state = target) : ∃ fit,
    (fit = true ↔ target = .run ∧ ((s.entered target).pocket ((s.entered target).track.pocketAt 0)).state = .empty ∧
      (s.activeSlot ≠ none ∨ s.pendingSlot ≠ none)) ∧
    s.enterRun target = ((s.entered target).modLine fun l => { l with
      ready := true, loadOk := l.loadOk || fit
      stallTimer := if s.line.stallLimitMs = 0 then none else some (1000 * s.line.stallLimitMs) }).modTrack fun x =>
        { x with loadPermit := x.loadPermit || fit } := by
  have hr := s.entered_retains target
  refine ⟨(s.entered target).loadFit, ?_, ?_⟩
  · rw [State.loadFit_iff, hst, hr.activeSlot, hr.pendingSlot]
  · rw [State.enterRun_eq, hm, if_neg (by decide), State.readyAtRest_worked (by rw [hst]; exact ht)]
    have hstall : (s.entered target).line.stallLimitMs = s.line.stallLimitMs := by
      rw [State.entered_line_of_state hstop ht hst]; rfl
    rw [hstall]

/-- The report of an entry without a HELD pocket. -/
theorem State.entered_noneHeld (hstop : s.line.state = .stopped) (hno : ∀ p ∈ s.track.pockets, p.state ≠ .held)
    (target : LineState) : s.entered target = s.modLine (enteredLine s.pins.motion target) := by
  rw [State.entered_stopped hstop]
  exact State.retried_of_none hno

/-- Settles O38: the refusals by line state and by channels; then the entry, whose retries leave the line as entered or block it. -/
theorem drainAndResumeTaken : Obligations.DrainAndResumeTaken := by
  unfold Obligations.DrainAndResumeTaken
  intro tag s hs
  refine ⟨fun h => congrArg _ (State.ask_lineBusy hs tag .lineResume (if_neg h)), fun h => ?_, fun h => ?_, fun h l hl => ?_,
    fun hstop hA hB => ?_, fun hstop hsus hm hno => ?_, fun hstop hsus hx c typ target r hc hr => ?_⟩
  · have hown : s.lineDrain = s.lineBusy := by
      unfold State.lineDrain
      rcases h with h | h | h <;> rw [h]
    exact congrArg _ (State.ask_lineBusy hs tag .lineDrain hown)
  · have hown : s.lineDrain = s.lineOk := by simp only [State.lineDrain, h]
    exact congrArg _ (State.ask_lineOk hs tag .lineDrain hown rfl)
  · subst hl
    have hown : s.lineDrain = (s.modLine fun l => { l with state := .drain, loadOk := false }).lineOk := by
      simp only [State.lineDrain, h]
    exact congrArg _ (State.ask_lineOk hs tag .lineDrain hown rfl)
  · have hboth := s.bothSuspect_iff.mpr ⟨hA, hB⟩
    exact ⟨congrArg _ (State.ask_lineNotReady hs tag .lineResume (by simp [State.lineResume, hstop, hboth]; rfl)),
      congrArg _ (State.ask_lineNotReady hs tag .lineDrain (by simp [State.lineDrain, hstop, hboth]; rfl))⟩
  · have waiting (target : LineState) (ht : target.worked = true) := State.enterRun_waiting hstop ht hm
      (by rw [State.entered_noneHeld hstop hno]; rfl)
    have henter (target : LineState) := State.entered_noneHeld hstop hno target
    rw [hm] at henter
    constructor
    · intro l hl
      subst hl
      obtain ⟨fit, hfit, hu⟩ := waiting .drain rfl
      obtain rfl : fit = false := eq_false_of_ne_true fun h => (nomatch (hfit.mp h).1)
      have hsame : s.enterRun .drain = { s with line := { s.line with
          state := .drain, phase := .waiting, ready := true
          stallTimer := if s.line.stallLimitMs = 0 then none else some (1000 * s.line.stallLimitMs) } } := by
        rw [hu, henter]
        simp [State.modLine, State.modTrack, enteredLine, restPhase]
      exact entersLine.exec (.inr ⟨rfl, rfl, rfl⟩) hs hstop hsus hsame (.inr rfl)
    · obtain ⟨fit, hfit, hu⟩ := waiting .run rfl
      rw [henter] at hfit hu
      refine ⟨_, _, entersLine.exec (.inl ⟨rfl, rfl, rfl⟩) hs hstop hsus hu (.inr rfl), rfl, rfl, rfl, rfl, fun he hslot => ?_⟩
      rw [hfit.mpr ⟨rfl, he, hslot⟩]
      exact ⟨Bool.or_true _, Bool.or_true _⟩
  · have hent : r = s.entered target := by rw [State.entered_stopped hstop]; exact hr
    have ht := entersLine.worked hc
    have hrep : s.report.tx ≠ none ∨ (s.entered target).report = s.report := by
      refine hx.imp_right fun hno => ?_
      rw [State.entered_noneHeld hstop hno]; rfl
    subst hent
    refine ⟨fun h => ?_, fun q d hm hd => ?_, fun h => ?_, fun hm hst => ?_⟩
    · rw [State.entered_line hstop h]; rfl
    · rw [State.entered_line_blocked hstop ht hm hd]
      exact ⟨rfl, rfl, rfl, rfl⟩
    · have hu : s.enterRun target = s.entered target := by
        rw [State.enterRun_eq]
        split
        · rfl
        · next hm => exact State.readyAtRest_unworked (by rw [h.resolve_left hm]; rfl)
      exact entersLine.exec hc hs hstop hsus hu hrep
    · obtain ⟨fit, hfit, hu⟩ := State.enterRun_waiting hstop ht hm hst
      exact ⟨fit, _, hfit, rfl, entersLine.exec hc hs hstop hsus hu hrep⟩

end

end Sys2Proof.Machine
end


-- ==== Sys2Proof/Proofs/CommitSteps.lean ====
section
/-! PROOFS. What each step of a commit leaves of the pocket, the chutes, the counters and the events (R137, R141, R142). -/

namespace Sys2Proof.Machine

section
variable {s : State}

/-! ### Chutes -/

/-- A chute beyond the table reads as an unconfigured one (R136). -/
theorem State.chute_outside {c : Nat} (h : ¬(1 ≤ c ∧ c ≤ s.chutes.length)) : s.chute c = .powerOn := by
  unfold State.chute
  split
  · rfl
  · rw [List.getD_eq_getElem?_getD, List.getElem?_eq_none (by omega)]; rfl

theorem State.chute_configured {c : Nat} {g : ChuteCfg} (h : (s.chute c).cfg = some g) : 1 ≤ c ∧ c ≤ s.chutes.length := by
  by_contra hno
  rw [State.chute_outside hno] at h
  contradiction

theorem State.canTake_configured {c pos : Nat} (h : s.canTake c pos = true) : 1 ≤ c ∧ c ≤ s.chutes.length := by
  obtain ⟨g, hg, -⟩ := (s.canTake_iff c pos).mp h
  exact State.chute_configured hg

theorem Chute.state_configured {e : Chute} {g : ChuteCfg} (h : e.cfg = some g) : e.state =
    if e.taken = g.capacity then .full else if g.near ≤ e.taken ∧ e.taken < g.capacity then .near else .opened := by
  unfold Chute.state
  rw [h]

/-- The event that one more place in flight raises (R137). -/
theorem Chute.promise_event {e : Chute} {g : ChuteCfg} (h : e.cfg = some g) :
    chuteEvent e.state { e with inFlight := e.inFlight + 1 }.state =
      if e.taken + 1 = g.capacity then some .chuteFull
      else if e.taken < g.near ∧ g.near ≤ e.taken + 1 ∧ e.taken + 1 < g.capacity then some .chuteNear else none := by
  have htaken : ({ e with inFlight := e.inFlight + 1 } : Chute).taken = e.taken + 1 := by
    simp only [Chute.taken]; omega
  rw [Chute.state_configured h, Chute.state_configured (e := { e with inFlight := e.inFlight + 1 }) h, htaken]
  generalize e.taken = n
  unfold chuteEvent
  by_cases hfull : n + 1 = g.capacity
  · have hbefore : ¬n = g.capacity := by omega
    simp only [hfull, if_true, hbefore, if_false]
    split <;> simp
  · by_cases hnear : g.near ≤ n + 1 ∧ n + 1 < g.capacity
    · have hbefore : ¬n = g.capacity := by omega
      by_cases hlow : n < g.near
      · have hopen : ¬(g.near ≤ n ∧ n < g.capacity) := by omega
        simp [hfull, hnear, hbefore, hopen, hlow]
      · have hopen : g.near ≤ n ∧ n < g.capacity := by omega
        simp [hfull, hnear, hbefore, hopen, hlow]
    · have hnone : ¬(n < g.near ∧ g.near ≤ n + 1 ∧ n + 1 < g.capacity) := fun hx => hnear hx.2
      rw [if_neg hnone]
      simp [hfull, hnear]

theorem State.account_report_raised {c : Nat} {f : Chute → Chute} {k : EventKind}
    (h : chuteEvent (s.chute c).state ((s.modChute c f).chute c).state = some k) :
    (s.account c f).report = (s.raise k (.chute c)).report := by
  unfold State.account
  dsimp only
  rw [h]
  dsimp only
  rw [State.raise, State.raise, State.modReport_report, State.modReport_report, State.modChute_report, State.modChute_track]

theorem State.account_report_quiet {c : Nat} {f : Chute → Chute}
    (h : chuteEvent (s.chute c).state ((s.modChute c f).chute c).state = none) : (s.account c f).report = s.report := by
  unfold State.account
  dsimp only
  rw [h]
  exact s.modChute_report c f

/-- The report of a promise: CHUTE_FULL, CHUTE_NEAR or none, by the places taken (R137). -/
theorem State.promise_raises {c : Nat} (h1 : 1 ≤ c) (h2 : c ≤ s.chutes.length) :
    s.raisesChute (s.account c fun e => { e with inFlight := e.inFlight + 1 }) c := by
  intro g taken hg htaken
  obtain rfl : taken = (s.chute c).taken := htaken
  have hevent := Chute.promise_event hg
  rw [← State.modChute_same h1 h2 fun e => { e with inFlight := e.inFlight + 1 }] at hevent
  refine ⟨fun hfull => State.account_report_raised ?_, fun hlow hnear hroom => State.account_report_raised ?_,
    fun hno hnone => State.account_report_quiet ?_⟩ <;> rw [hevent]
  · exact if_pos hfull
  · rw [if_neg (by omega), if_pos ⟨hlow, hnear, hroom⟩]
  · rw [if_neg hno, if_neg hnone]

/-! ### The promise of a place (R142) -/

theorem State.commitTo_pocket {q : Nat} (hq : q < s.track.pockets.length) (c : Nat) (o : Bool) :
    (s.commitTo q c o).pocket q = { s.pocket q with state := .decided, chute := some c, overflow := o } := by
  have ht : (s.commitTo q c o).track = (s.modPocket q _).track := State.account_only _ _ _ .track (by decide)
  rw [State.pocket_congr ht, State.modPocket_same hq]

theorem State.commitTo_chute (q : Nat) {c : Nat} (h1 : 1 ≤ c) (h2 : c ≤ s.chutes.length) (o : Bool) :
    (s.commitTo q c o).chute c = { s.chute c with inFlight := (s.chute c).inFlight + 1 } :=
  (State.account_chute (s := s.modPocket q _) h1 h2 c _).trans (if_pos rfl)

theorem State.commitTo_chute_ne (q : Nat) {c x : Nat} (h : x ≠ c) (o : Bool) : (s.commitTo q c o).chute x = s.chute x :=
  (State.chute_congr (State.account_chutes (s.modPocket q _) c _) x).trans (State.modChute_ne h _)

theorem State.commitTo_raises (q : Nat) {c : Nat} (h1 : 1 ≤ c) (h2 : c ≤ s.chutes.length) (o : Bool) :
    s.raisesChute (s.commitTo q c o) c := fun g taken hg ht =>
  State.promise_raises (s := s.modPocket q _) h1 h2 g taken hg ht

/-! ### A held pocket (R40, R142) -/

theorem State.holdPocket_pocket {q : Nat} (hq : q < s.track.pockets.length) (c : Nat) :
    (s.holdPocket q c).pocket q = { s.pocket q with state := .held, chute := none, overflow := false } := by
  have ht : (s.holdPocket q c).track = (s.modPocket q _).track := State.lineBlocked_only _ .track (by decide)
  rw [State.pocket_congr ht, State.modPocket_same hq]

theorem State.holdPocket_report (s : State) (q c : Nat) :
    (s.holdPocket q c).report = (s.raise .chuteBlocked (.chute c)).report := State.lineBlocked_only _ .report (by decide)

theorem State.lineBlocked_worked (hw : s.line.state.worked = true) : s.lineBlocked.line.ready = false ∧
    s.lineBlocked.line.loadOk = false ∧
    s.lineBlocked.line.state = (if s.line.phase = .waiting then .stopped else .stopping) := by
  by_cases hp : s.line.phase = .waiting
  · rw [State.lineBlocked_waiting hw hp, if_pos hp]; exact ⟨rfl, rfl, rfl⟩
  · rw [State.lineBlocked_open hw hp, if_neg hp]; exact ⟨rfl, rfl, rfl⟩

/-- What bars a commit is that its target, and the target's alternate, cannot take the pocket. -/
theorem State.blocked_iff (s : State) (c pos : Nat) : s.blocked c pos ↔ s.canTake c pos = false ∧
    ∀ g a, (s.chute c).cfg = some g → g.alternate = some a → s.canTake a pos = false := by
  simp only [State.blocked, State.alternateOf, Option.bind_eq_some_iff]
  exact ⟨fun ⟨h, k⟩ => ⟨h, fun g a hg ha => k a ⟨g, hg, ha⟩⟩, fun ⟨h, k⟩ => ⟨h, fun a ⟨g, hg, ha⟩ => k g a hg ha⟩⟩

/-- The target takes the pocket (R142 step 1). -/
theorem State.commit_takes {q c : Nat} (hq : q < s.track.pockets.length) (h : s.canTake c (s.track.positionOf q) = true) :
    (s.commit q c).pocket q = { s.pocket q with state := .decided, chute := some c, overflow := false } ∧
      (s.commit q c).chute c = { s.chute c with inFlight := (s.chute c).inFlight + 1 } ∧
      (∀ x, x ≠ c → (s.commit q c).chute x = s.chute x) ∧ (s.commit q c).line = s.line ∧ (s.commit q c).slot0 = s.slot0 ∧
      (s.commit q c).slot1 = s.slot1 ∧ s.raisesChute (s.commit q c) c := by
  obtain ⟨h1, h2⟩ := State.canTake_configured h
  have honly := s.commitTo_only q c false
  rw [State.commit_target h]
  exact ⟨State.commitTo_pocket hq c false, State.commitTo_chute q h1 h2 false, fun x hx => State.commitTo_chute_ne q hx false,
    s.commitTo_line q c false, honly .slot0 (by decide), honly .slot1 (by decide), State.commitTo_raises q h1 h2 false⟩

/-- The alternate takes it, with the overflow flag and count (R142 step 2). -/
theorem State.commit_overflows {q c a : Nat} {g : ChuteCfg} {i : SlotId} (hq : q < s.track.pockets.length)
    (hno : s.canTake c (s.track.positionOf q) = false) (hg : (s.chute c).cfg = some g) (ha : g.alternate = some a)
    (h : s.canTake a (s.track.positionOf q) = true) (hi : (s.pocket q).slot = some i) :
    (s.commit q c).pocket q = { s.pocket q with state := .decided, chute := some a, overflow := true } ∧
      (s.commit q c).chute a = { s.chute a with inFlight := (s.chute a).inFlight + 1 } ∧
      (∀ x, x ≠ a → (s.commit q c).chute x = s.chute x) ∧ (s.commit q c).line = s.line ∧
      ((s.commit q c).slot i).cnt = { (s.slot i).cnt with overflow := satInc 4294967295 (s.slot i).cnt.overflow } ∧
      (s.commit q c).slot i.other = s.slot i.other ∧ s.raisesChute (s.commit q c) a := by
  obtain ⟨h1, h2⟩ := State.canTake_configured h
  have hpocket := State.commitTo_pocket hq a true
  have honly := State.bumpLotOf_only (s.commitTo q a true) q countOverflow
  have hslots : ∀ j, (s.commitTo q a true).slot j = s.slot j := State.slot_congr
    (s.commitTo_only q a true .slot0 (by decide)) (s.commitTo_only q a true .slot1 (by decide))
  have hbump : (s.commitTo q a true).bumpLotOf q countOverflow =
      (s.commitTo q a true).modSlot i fun sl => { sl with cnt := countOverflow sl.cnt } := by
    unfold State.bumpLotOf
    rw [hpocket]
    simp only [hi]
  rw [State.commit_alternate hno (by rw [State.alternateOf, hg]; exact ha) h]
  refine ⟨(State.pocket_congr (honly .track (by decide)) q).trans hpocket,
    (State.chute_congr (honly .chutes (by decide)) a).trans (State.commitTo_chute q h1 h2 true),
    fun x hx => (State.chute_congr (honly .chutes (by decide)) x).trans (State.commitTo_chute_ne q hx true),
    (honly .line (by decide)).trans (s.commitTo_line q a true), ?_, ?_, ?_⟩
  · rw [hbump, State.modSlot_same, hslots]
    rfl
  · rw [hbump, State.modSlot_other, hslots]
  · intro g' taken hg' ht
    have hr : ((s.commitTo q a true).bumpLotOf q countOverflow).report = _ := honly .report (by decide)
    rw [hr]
    exact State.commitTo_raises q h1 h2 true g' taken hg' ht

/-- Neither can: the pocket is held, and CHUTE_BLOCKED acts on the line (R40, R142 step 3). -/
theorem State.commit_holds {q c : Nat} (hq : q < s.track.pockets.length) (h : s.blocked c (s.track.positionOf q)) :
    (s.commit q c).pocket q = { s.pocket q with state := .held, chute := none, overflow := false } ∧
      (s.commit q c).chutes = s.chutes ∧ (s.commit q c).report = (s.raise .chuteBlocked (.chute c)).report ∧
      (s.commit q c).slot0 = s.slot0 ∧ (s.commit q c).slot1 = s.slot1 ∧
      (s.line.state.worked = false → (s.commit q c).line = s.line) ∧
      (s.line.state.worked = true → (s.commit q c).line.ready = false ∧ (s.commit q c).line.loadOk = false ∧
        (s.commit q c).line.state = (if s.line.phase = .waiting then .stopped else .stopping)) := by
  rw [State.commit_blocked h]
  have honly := s.holdPocket_only q c
  refine ⟨State.holdPocket_pocket hq c, honly .chutes (by decide), s.holdPocket_report q c, honly .slot0 (by decide),
    honly .slot1 (by decide), fun hw => ?_, fun hw => ?_⟩
  · rw [State.holdPocket_line, State.lineBlocked_unworked hw]
  · rw [State.holdPocket_line]
    exact State.lineBlocked_worked hw

/-- Settles O45: the step that a commit comes to, and what it leaves. -/
theorem commitSteps : Obligations.CommitSteps := by
  unfold Obligations.CommitSteps
  rintro s q c hq - t rfl
  exact ⟨fun x pos => s.canTake_iff x pos, State.commit_takes hq,
    fun g a i hno hg ha htake hi => State.commit_overflows hq hno hg ha htake hi,
    fun hno halt => State.commit_holds hq ((s.blocked_iff c _).mpr ⟨hno, halt⟩), fun r hr => s.commit_pocket_ne hr c⟩

end

end Sys2Proof.Machine
end


-- ==== Sys2Proof/Proofs/Timers.lean ====
section
/-! PROOFS. Fault entry and later faults (R45, R46); an event sent by an IDLE transmitter (R179, R184); the expiries of the line's
timers and of the staleness timer (R36 to R38, R86, R175). -/

namespace Sys2Proof.Machine

section
variable {s t : State}

/-! ### Faults (R45, R46) -/

theorem State.faultEntry_only (s : State) (k : FaultKind) (d : Detail) :
    Only [.lineCnt, .chutes, .report] (s.modLine (faultedLine s.pins.motion k d)).cutDwell (s.faultEntry k d) :=
  ((State.cutJets_only _).mono (by decide)).trans ((State.raise_only _ _ _).mono (by decide))

theorem State.faultEntry_atRest (s : State) (k : FaultKind) (d : Detail) : (s.faultEntry k d).atRest :=
  (State.cutDwell_rests _).of_only (s.faultEntry_only k d) (by decide)

theorem State.faultEntry_jetsOff (s : State) (k : FaultKind) (d : Detail) : (s.faultEntry k d).jetsOff := by
  unfold State.jetsOff
  rw [show (s.faultEntry k d).chutes = (s.modLine (faultedLine s.pins.motion k d)).cutDwell.cutJets.chutes from
    State.raise_only _ _ _ .chutes (by decide)]
  exact State.cutJets_jetsOff _

theorem State.faultEntry_lineCnt (s : State) (k : FaultKind) (d : Detail) : (s.faultEntry k d).lineCnt = { s.lineCnt with
    jetCuts := min 4294967295 (s.lineCnt.jetCuts + s.pulsingCount) } := by
  have hcut := State.cutDwell_only (s.modLine (faultedLine s.pins.motion k d))
  have hcnt : (s.modLine (faultedLine s.pins.motion k d)).cutDwell.lineCnt = s.lineCnt := hcut .lineCnt (by decide)
  have hjets : (s.modLine (faultedLine s.pins.motion k d)).cutDwell.pulsingCount = s.pulsingCount :=
    congrArg (List.countP Chute.pulsing) (hcut .chutes (by decide))
  rw [State.faultEntry, State.raise, State.modReport_lineCnt, State.cutJets, State.modChutes_lineCnt,
    State.modLineCnt_lineCnt, hcnt, hjets]
  rfl

/-- Settles O42: fault entry discards the dwell work and the jets; a later fault, or one in IDLE, leaves them. -/
theorem faultsTaken : Obligations.FaultsTaken := by
  unfold Obligations.FaultsTaken
  rintro k d s t rfl
  obtain ⟨hentry, hfaulted, hidle⟩ := s.raiseFault_line k d
  refine ⟨fun h => ?_, fun h => ?_, fun h => ?_, s.raiseFault_report k d⟩
  · have hstate : s.line.state.underWay = true ∨ s.line.state = .stopped := by
      rcases h with h | h | h | h <;> rw [h] <;> decide
    have hline := hentry hstate
    rw [State.raiseFault_entry hstate] at hline ⊢
    obtain ⟨hA, hB, hr⟩ := s.faultEntry_atRest k d
    exact ⟨hline, hA, hB, hr, s.faultEntry_jetsOff k d, s.faultEntry_lineCnt k d⟩
  · obtain ⟨hstate, hfirst⟩ := addLater_line k s.line
    have hline := hfaulted h
    rw [State.raiseFault_faulted h] at hline ⊢
    rw [hline]
    exact ⟨hstate.trans h, hfirst, fun x => mem_addLater k x s.line, rfl, rfl, rfl, rfl, rfl⟩
  · rw [State.raiseFault_idle h]
    exact ⟨rfl, rfl, rfl, rfl, rfl, rfl⟩

/-! ### An event at an IDLE transmitter (R179, R184, R185) -/

/-- What waits: a reply, a report of a queue, or a kind that may be taken. -/
theorem Report.waiting_eq_nil {r : Report} (h : r.waiting = []) : r.reply.isSome = false ∧ r.refer.isEmpty = true ∧
    (∀ k, r.takeable k = false) ∧ r.lotEnd.isEmpty = true ∧ r.part.isEmpty = true := by
  unfold Report.waiting at h
  simp only [List.append_eq_nil_iff, List.map_eq_nil_iff, ite_eq_right_iff, ite_eq_left_iff,
    imp_false, List.cons_ne_nil, Bool.not_eq_true, Bool.not_eq_false, List.filter_eq_nil_iff] at h
  obtain ⟨⟨⟨⟨hreply, hrefer⟩, hevents⟩, hlot⟩, hpart⟩ := h
  exact ⟨hreply, hrefer, fun k => hevents k (List.mem_of_getElem? k.all_priority), hlot, hpart⟩

/-- The one message of a report whose queues are empty but for one kind. -/
theorem Report.waiting_event {r : Report} {k : EventKind} (hreply : r.reply.isSome = false) (hrefer : r.refer.isEmpty = true)
    (hlot : r.lotEnd.isEmpty = true) (hpart : r.part.isEmpty = true) (hk : ∀ j, r.takeable j = true ↔ j = k) :
    r.waiting = [.event k] := by
  have hfilter : EventKind.all.filter r.takeable = [k] := by
    have hsame : r.takeable = fun j => decide (j = k) := funext fun j => Bool.eq_iff_iff.mpr (by rw [hk, decide_eq_true_iff])
    rw [hsame]
    cases k <;> rfl
  simp only [Report.waiting, hreply, hrefer, hlot, hpart, hfilter]
  rfl

theorem eventPayload_eq (k : EventKind) (e : PendingEvent) : eventPayload k e = eventLayout k e := by
  have hk : k.priority = kindByte k := by cases k <;> rfl
  have hd : e.detail.code = detailByte e.detail := by
    cases e.detail with
    | channel ch => cases ch <;> rfl
    | _ => rfl
  simp only [eventPayload, eventLayout, layout_cons, layout_nil, List.append_nil, List.append_assoc, hk, hd]

/-- A kind raised alone where nothing waited is what an IDLE transmitter takes, unless it is masked. -/
theorem State.raise_waiting (hlen : s.report.events.length = 14) {k : EventKind} (d : Detail) (hw : s.report.waiting = [])
    (hm : s.report.masked k = false) : (s.raise k d).report.waiting = [.event k] ∧
      (s.raise k d).report.event k = some ⟨1, d, s.track.k⟩ := by
  obtain ⟨hreply, hrefer, hevents, hlot, hpart⟩ := Report.waiting_eq_nil hw
  have hnone : s.report.event k = none := by
    have hk := hevents k
    rw [Report.takeable, hm, Bool.not_false, Bool.and_true] at hk
    exact Option.isNone_iff_eq_none.mp (Option.isSome_eq_false_iff.mp hk)
  have hsame : (s.raise k d).report.event k = some ⟨1, d, s.track.k⟩ := by
    rw [State.raise_event_same hlen, hnone]; rfl
  refine ⟨Report.waiting_event hreply hrefer hlot hpart fun j => ⟨fun hj => ?_, fun hj => ?_⟩, hsame⟩
  · by_contra hne
    have hold : (s.raise k d).report.takeable j = s.report.takeable j := by
      rw [Report.takeable, State.raise_event_ne (Ne.symm hne)]
      rfl
    rw [hold, hevents j] at hj
    contradiction
  · subst hj
    rw [Report.takeable, hsame]
    exact congrArg (fun b => !b) hm

/-- A step that raises one kind and no more, and the transmitter's judgement (R184). -/
theorem State.sends_of_raise (hs : TransmitInv s) {k : EventKind} {d : Detail} (h : t.report = (s.raise k d).report) :
    s.sends t.transmit k d := by
  refine ⟨State.notes_of_raise (.refl k s) rfl (.of_report h k), fun hlen hx hm => ?_⟩
  obtain ⟨hwait, hevent⟩ := State.raise_waiting hlen d (hs hx) hm
  rw [← h] at hwait hevent
  have htx : t.report.tx = none := by rw [h]; exact hx
  have hk : k.priority - 1 < t.report.events.length := by
    rw [h, show (s.raise k d).report.events.length = s.report.events.length from List.length_modify .., hlen]
    exact k.priority_lt
  have htake : t.transmit.report = t.report.take (.event k) := by
    simp only [State.transmit, State.takeFrom, htx, hwait, State.modReport_report]
  rw [htake]
  simp only [Report.take, hevent]
  exact ⟨by rw [eventPayload_eq]; rfl, by simp [Report.event, hk]⟩

/-! ### The expiries -/

theorem State.transmit_of_report (hs : TransmitInv s) (h : t.report = s.report) : t.transmit = t :=
  State.transmit_quiet fun hx => by rw [h] at hx ⊢; exact hs hx

theorem State.judgeDwell_done (hp : s.line.phase = .working) (hw : s.line.state.worked = true) (hd : s.dwellDone = true) :
    s.judgeDwell = s.modLine fun l => raiseReady { l with phase := .waiting, budget := none } := by
  unfold State.judgeDwell
  rw [if_pos ⟨hp, hd⟩]
  cases hs : s.line.state <;> rw [hs] at hw <;> first | contradiction | rfl

theorem State.judgeDwell_stopping (hp : s.line.phase = .working) (hs : s.line.state = .stopping) (hd : s.dwellDone = true) :
    s.judgeDwell = s.enterStopped := by
  unfold State.judgeDwell
  rw [if_pos ⟨hp, hd⟩]
  simp only [hs]
  rfl

theorem State.judgeDwell_open (h : s.line.phase ≠ .working ∨ s.dwellDone = false) : s.judgeDwell = s := by
  unfold State.judgeDwell
  rw [if_neg]
  rintro ⟨hp, hd⟩
  rcases h with h | h
  · exact h hp
  · rw [hd] at h; contradiction

theorem State.judgeDwell_budget (h : s.line.budget = none) : s.judgeDwell.line.budget = none := by
  unfold State.judgeDwell
  split
  · dsimp only
    split <;> rfl
  · exact h

theorem exec_dwellBudgetExpiry (h : s.line.budget ≠ none) : exec .dwellBudgetExpiry s =
    .next ((s.modLine fun l => { l with budget := none }).cutDwell.judgeDwell).transmit :=
  congrArg _ (if_pos (Option.isSome_iff_ne_none.mpr h))

theorem exec_motionTimerExpiry (h : s.line.motionTimer ≠ none) : exec .motionTimerExpiry s =
    .next ((s.modLine fun l => { l with motionTimer := none }).raiseFault .motionFault .none).transmit :=
  congrArg _ (if_pos (Option.isSome_iff_ne_none.mpr h))

theorem exec_stallTimerExpiry (h : s.line.stallTimer ≠ none) : exec .stallTimerExpiry s =
    .next (((s.modLine fun l => { l with stallTimer := none }).raise .turretIdle .none).modLineCnt countTurretIdle).transmit :=
  congrArg _ (if_pos (Option.isSome_iff_ne_none.mpr h))

theorem exec_stalenessExpiry (hr : s.temp.running = true) (hu : s.line.state.underWay = true) : exec .stalenessExpiry s =
    .next ((s.modTemp fun t => ⟨t.record.aged, false, 0⟩).raise .tempStale .none).transmit :=
  congrArg _ (if_pos (by rw [State.stalenessLive, hr, hu]; rfl))

/-- The work that the budget's expiry discards, its line and its jets standing (R36, R86). -/
theorem State.budgetExpired (s : State) : ∃ u, u = (s.modLine fun l => { l with budget := none }).cutDwell ∧
    Only [.track, .line, .chanA, .chanB, .sched] s u.judgeDwell ∧ u.judgeDwell.atRest ∧
    u.line = { s.line with budget := none } ∧ (u.dwellDone = true ↔ s.jetsOff) := by
  have hcut := State.cutDwell_only (s.modLine fun l => { l with budget := none })
  have hrest := State.cutDwell_rests (s.modLine fun l => { l with budget := none })
  refine ⟨_, rfl, (((s.modLine_only _).mono (by decide)).trans (hcut.mono (by decide))).trans
    ((State.judgeDwell_only _).mono (by decide)), hrest.of_only (State.judgeDwell_only _) (by decide), hcut .line (by decide), ?_⟩
  rw [State.dwellDone_iff, State.jetsOff, State.jetsOff, show (State.cutDwell _).chutes = s.chutes from hcut .chutes (by decide)]
  exact ⟨And.left, fun h => ⟨h, hrest⟩⟩

/-- Settles O41: each timer stopped and running; an expiry's own work, then the event it raises. -/
theorem timersExpire : Obligations.TimersExpire := by
  unfold Obligations.TimersExpire
  refine ⟨fun s hs => ?_, fun s hs => ?_⟩
  · have quiet : s.transmit = s := State.transmit_quiet hs
    have stopped {b : Bool} {u : State} (hb : b = false) :
        Host.Outcome.next (ρ := Refusal) (φ := Fault) (if b then u else s.transmit) = .next s := by
      rw [hb, quiet]; rfl
    refine ⟨fun h => stopped (by rw [h]; rfl), fun h => ?_, fun h => stopped (by rw [h]; rfl), fun h hu => ?_,
      fun h => stopped (by rw [h]; rfl), fun h => ?_⟩
    · obtain ⟨u, hu, honly, ⟨hA, hB, hr⟩, hline, hdone⟩ := s.budgetExpired
      rw [exec_dwellBudgetExpiry h, ← hu, State.transmit_of_report hs (honly .report (by decide))]
      refine ⟨_, rfl, State.judgeDwell_budget (by rw [hline]), hr, hA, hB, honly .chutes (by decide), honly .lineCnt (by decide), honly .cal (by decide),
        honly .slot0 (by decide), honly .slot1 (by decide), fun hp hw hoff => ?_, fun hp ⟨e, he, hjet⟩ => ?_⟩
      · rw [State.judgeDwell_done (by rw [hline]; exact hp) (by rw [hline]; exact hw) (hdone.mpr hoff)]
        exact ⟨rfl, rfl⟩
      · rw [State.judgeDwell_open (.inr (eq_false_of_ne_true fun hd => hjet (hdone.mp hd e he)))]
        exact hline
    · have hentry := State.raiseFault_entry (s := s.modLine fun l => { l with motionTimer := none }) (.inl hu) .motionFault .none
      have hline := State.faultEntry_line (s.modLine fun l => { l with motionTimer := none }) .motionFault .none
      rw [exec_motionTimerExpiry h, hentry]
      rw [← State.transmit_line] at hline
      refine ⟨_, rfl, ?_, ?_, ?_, ?_, ?_, ?_, State.sends_of_raise hs ?_⟩
      · rw [hline]; rfl
      · rw [hline]; rfl
      · rw [hline]; rfl
      · rw [hline]; rfl
      · rw [hline]; rfl
      · rw [hline]; rfl
      · rw [← hentry]
        exact State.raiseFault_report (s.modLine _) .motionFault .none
    · rw [exec_stallTimerExpiry h]
      have honly := State.transmit_only
        (((s.modLine fun l => { l with stallTimer := none }).raise .turretIdle .none).modLineCnt countTurretIdle)
      exact ⟨_, rfl, honly .line (by decide), honly .lineCnt (by decide), State.sends_of_raise hs rfl,
        honly .track (by decide), honly .chanA (by decide), honly .chanB (by decide), honly .chutes (by decide)⟩
  · refine ⟨fun h => ?_, fun hr hu => ?_⟩
    · have hlive : s.stalenessLive = false := by rw [State.stalenessLive, h]; rfl
      refine congrArg _ ((if_neg (by rw [hlive]; decide)).trans (State.transmit_quiet hs))
    · rw [exec_stalenessExpiry hr hu]
      have honly := State.transmit_only ((s.modTemp fun t => ⟨t.record.aged, false, 0⟩).raise .tempStale .none)
      have htemp := honly .temp (by decide)
      refine ⟨_, rfl, congrArg Temp.running htemp, congrArg Temp.left htemp, fun v hv => ?_, fun hv => ?_,
        honly .line (by decide), honly .track (by decide), State.sends_of_raise hs rfl⟩
      · refine (congrArg Temp.record htemp).trans ?_
        show s.temp.record.aged = _
        rw [hv]; rfl
      · refine (congrArg Temp.record htemp).trans ?_
        show s.temp.record.aged = _
        rw [hv]; rfl

end

end Sys2Proof.Machine
end


-- ==== Sys2Proof/Proofs/Jets.lean ====
section
/-! PROOFS. The firing of one chute, and a jet's completion (R34, R41, R145, R146). -/

namespace Sys2Proof.Machine

section
variable {s : State}

/-! ### A firing (R145) -/

theorem Pocket.firesFor_iff {p : Pocket} {c : Nat} :
    p.firesFor c = true ↔ p.state = .decided ∧ p.chute = some c ∧ p.jetFired = false := by
  simp [Pocket.firesFor, and_assoc]

/-- A chute fires for the pocket at its eject position. -/
theorem State.fireChute_fired {c : Nat} {g : ChuteCfg} (hg : (s.chute c).cfg = some g)
    (h : (s.pocket (s.track.pocketAt g.ejectPos)).firesFor c = true) : s.fireChute c =
      (s.account c (fired g.pulseMs)).modPocket (s.track.pocketAt g.ejectPos) fun p =>
        { p with state := .ejected, jetFired := true } := by
  unfold State.fireChute
  rw [hg]
  exact if_pos h

/-- A chute without configuration, or with no such pocket at its eject position, stands. -/
theorem State.fireChute_passed {c : Nat} (h : ∀ g, (s.chute c).cfg = some g →
    (s.pocket (s.track.pocketAt g.ejectPos)).firesFor c = false) : s.fireChute c = s := by
  unfold State.fireChute
  split
  · rfl
  · next g hg => exact if_neg (by rw [h g hg]; decide)

theorem State.fireChute_pocket {c : Nat} {g : ChuteCfg} (hg : (s.chute c).cfg = some g)
    (h : (s.pocket (s.track.pocketAt g.ejectPos)).firesFor c = true) (hq : s.track.pocketAt g.ejectPos < s.track.pockets.length) :
    (s.fireChute c).pocket (s.track.pocketAt g.ejectPos) =
      { s.pocket (s.track.pocketAt g.ejectPos) with state := .ejected, jetFired := true } := by
  have ht : (s.account c (fired g.pulseMs)).track = s.track := s.account_only c _ .track (by decide)
  rw [State.fireChute_fired hg h, State.modPocket_same (by rw [ht]; exact hq), State.pocket_congr ht]

theorem State.fireChute_pocket_ne (c : Nat) {q : Nat}
    (h : ∀ g, (s.chute c).cfg = some g → q ≠ s.track.pocketAt g.ejectPos) : (s.fireChute c).pocket q = s.pocket q := by
  unfold State.fireChute
  split
  · rfl
  · next g hg =>
    dsimp only
    split
    · rw [State.modPocket_ne (h g hg)]
      exact State.pocket_congr (s.account_only c _ .track (by decide)) q
    · rfl

theorem State.fireChute_chute {c : Nat} {g : ChuteCfg} (hg : (s.chute c).cfg = some g)
    (h : (s.pocket (s.track.pocketAt g.ejectPos)).firesFor c = true) :
    (s.fireChute c).chute c = fired g.pulseMs (s.chute c) := by
  obtain ⟨h1, h2⟩ := State.chute_configured hg
  rw [State.fireChute_fired hg h]
  exact (State.account_chute h1 h2 c _).trans (if_pos rfl)

theorem State.fireChute_chute_ne {c x : Nat} (h : x ≠ c) : (s.fireChute c).chute x = s.chute x := by
  unfold State.fireChute
  split
  · rfl
  · dsimp only
    split
    · exact (State.chute_congr (s.account_chutes c _) x).trans (State.modChute_ne h _)
    · rfl

/-! ### The jets by chute -/

theorem State.jetsOff_iff_chute (s : State) : s.jetsOff ↔ ∀ c, (s.chute c).jet = none := by
  constructor
  · intro h c
    unfold State.chute
    split
    · rfl
    · rw [List.getD_eq_getElem?_getD]
      cases he : s.chutes[c - 1]? with
      | none => rfl
      | some e => exact h e (List.mem_of_getElem? he)
  · intro h e he
    obtain ⟨n, hn⟩ := List.mem_iff_getElem?.mp he
    have hc := h (n + 1)
    rw [State.chute, if_neg (Nat.succ_ne_zero n), Nat.add_sub_cancel, List.getD_eq_getElem?_getD, hn] at hc
    exact hc

/-- With jet c switched off the jets are off where every other one is. -/
theorem State.jetOff_jetsOff (s : State) (c : Nat) :
    (s.modChute c fun e => { e with jet := none }).jetsOff ↔ ∀ x, x ≠ c → (s.chute x).jet = none := by
  rw [State.jetsOff_iff_chute]
  constructor
  · intro h x hx
    rw [← State.modChute_ne hx fun e => { e with jet := none }]
    exact h x
  · intro h x
    by_cases hx : x = c
    · subst hx
      by_cases hin : 1 ≤ x ∧ x ≤ s.chutes.length
      · rw [State.modChute_same hin.1 hin.2]
      · rcases s.modChute_cases x x fun e => { e with jet := none } with hc | ⟨-, hc⟩ <;> rw [hc]
        rw [State.chute_outside hin]; rfl
    · rw [State.modChute_ne hx]
      exact h x hx

theorem exec_jetCompletion {c : Nat} (h : (s.chute c).jet ≠ none) : exec (.jetCompletion c) s =
    .next (s.modChute c fun e => { e with jet := none }).judgeDwell.transmit :=
  congrArg _ (if_pos (Option.isSome_iff_ne_none.mpr h))

theorem State.dwellDone_false_iff (s : State) : s.dwellDone = false ↔
    ¬s.jetsOff ∨ s.chanA.job ≠ none ∨ s.chanB.job ≠ none ∨ s.sched.requests ≠ [] := by
  rw [← Bool.not_eq_true, State.dwellDone_iff, State.atRest, not_and_or, not_and_or, not_and_or]

/-- The judgement of the dwell work writes the line alone. -/
theorem State.judgeDwell_eq (s : State) : s.judgeDwell = { s with line := s.judgeDwell.line } := by
  unfold State.judgeDwell
  split
  · dsimp only
    split <;> rfl
  · rfl

/-- Settles O46: the pocket that a jet fires for, or none; and a jet's end, after which the dwell work is judged. -/
theorem jetFiresAndCompletes : Obligations.JetFiresAndCompletes := by
  unfold Obligations.JetFiresAndCompletes
  constructor
  · rintro s c q g - - hg rfl t rfl
    refine ⟨fun hd hc hf hq => ?_, fun hno => State.fireChute_passed fun g' hg' => ?_⟩
    · have hfires := Pocket.firesFor_iff.mpr ⟨hd, hc, hf⟩
      refine ⟨State.fireChute_pocket hg hfires hq, State.fireChute_chute hg hfires,
        fun r hr => State.fireChute_pocket_ne c fun g' hg' => ?_, fun x hx => State.fireChute_chute_ne hx⟩
      obtain rfl := Option.some.inj (hg.symm.trans hg')
      exact hr
    · obtain rfl := Option.some.inj (hg.symm.trans hg')
      exact eq_false_of_ne_true (mt Pocket.firesFor_iff.mp hno)
  · intro c s hs
    refine ⟨fun h => congrArg _ ((if_neg ?_).trans (State.transmit_quiet hs)), fun h => ?_⟩
    · rw [Chute.pulsing, h]; decide
    have hin : 1 ≤ c ∧ c ≤ s.chutes.length := by
      by_contra hno
      exact h (by rw [State.chute_outside hno]; rfl)
    have hmod : (s.modChute c fun e => { e with jet := none }) =
        { s with chutes := s.chutes.modify (c - 1) fun e => { e with jet := none } } := by
      unfold State.modChute
      rw [if_neg (by omega)]; rfl
    have hoff := s.jetOff_jetsOff c
    rw [exec_jetCompletion h, State.transmit_of_report hs
      ((State.judgeDwell_only _ .report (by decide)).trans (s.modChute_report c _)), State.judgeDwell_eq]
    rw [hmod] at hoff ⊢
    refine ⟨_, rfl, fun hopen => ?_, fun hp hA hB hr hjets => ?_⟩
    · rw [State.judgeDwell_open]
      refine hopen.imp id fun hopen => (State.dwellDone_false_iff _).mpr ?_
      rcases hopen with hA | hB | hr | ⟨x, hx, hjet⟩
      · exact .inr (.inl hA)
      · exact .inr (.inr (.inl hB))
      · exact .inr (.inr (.inr hr))
      · exact .inl fun hall => hjet (hoff.mp hall x hx)
    · have hd := (State.dwellDone_iff _).mpr ⟨hoff.mpr hjets, hA, hB, hr⟩
      refine ⟨fun hw => ?_, fun hst => ?_⟩
      · rw [State.judgeDwell_done (by exact hp) (by exact hw) hd]
        rfl
      · rw [State.judgeDwell_stopping (by exact hp) (by exact hst) hd]
        rfl

end

end Sys2Proof.Machine
end


-- ==== Sys2Proof/Proofs/Drained.lean ====
section
/-! PROOFS. What an index start makes of the line state, and the end of DRAIN with the track empty (R31, R44). -/

namespace Sys2Proof.Machine

/-! ### The line through the Track Unit's work -/

/-- Between s and t the line stands, or a fault has been raised. -/
def FaultedOrSame (s t : State) : Prop := t.line = s.line ∨ t.line.state = .faulted

/-- Between s and t the line stands, or a held commit of pocket q has blocked it (R40). -/
def BlockedOrSame (q : Nat) (s t : State) : Prop :=
  t.line = s.line ∨ t.line = s.lineBlocked.line ∧ (t.pocket q).state = .held

section
variable {s t u : State}

theorem FaultedOrSame.refl (s : State) : FaultedOrSame s s := .inl rfl

theorem FaultedOrSame.of_only {l : List Block} (h : Only l s t) (hl : .line ∉ l) : FaultedOrSame s t := .inl (h .line hl)

theorem FaultedOrSame.trans (h : FaultedOrSame s t) (k : FaultedOrSame t u) : FaultedOrSame s u := by
  rcases k with k | k
  · unfold FaultedOrSame
    rw [k]; exact h
  · exact .inr k

theorem State.raiseFault_faultedOrSame (s : State) (k : FaultKind) (d : Detail) : FaultedOrSame s (s.raiseFault k d) := by
  obtain ⟨hentry, hfaulted, hidle⟩ := s.raiseFault_line k d
  cases hs : s.line.state
  case idle => exact .inl (hidle hs)
  case faulted =>
    refine .inr ?_
    rw [hfaulted hs]
    exact (addLater_line k s.line).1.trans hs
  all_goals
    refine .inr ?_
    rw [hentry (by rw [hs]; simp [LineState.underWay])]
    rfl

theorem State.handleLoad_faultedOrSame (s : State) (q : Nat) (sensed : Bool) : FaultedOrSame s (s.handleLoad q sensed) := by
  have hask : FaultedOrSame s (s.askSlot q) := .of_only (s.askSlot_only q) (by decide)
  unfold State.handleLoad
  split
  · exact .refl s
  · split
    · unfold State.load
      dsimp only
      split
      · exact hask.trans (.of_only (State.loadInto_only _ _ _) (by decide))
      · exact hask.trans (State.raiseFault_faultedOrSame _ _ _)
    · exact .of_only (s.modLineCnt_only _) (by decide)
    · exact s.raiseFault_faultedOrSame _ _
    · exact .refl s

theorem State.handleCheck_faultedOrSame (s : State) (q : Nat) (sensed : Bool) : FaultedOrSame s (s.handleCheck q sensed) := by
  have lost : FaultedOrSame s ((s.raise .partLost (.pocket q)).finish q .lost) :=
    .of_only (((s.raise_only _ _).mono (by decide)).trans (State.finish_only _ _ _)) (by decide)
  have lap : FaultedOrSame s (s.modPocket q Pocket.secondLap) := .of_only (s.modPocket_only _ _) (by decide)
  unfold State.handleCheck
  split
  · exact s.raiseFault_faultedOrSame _ _
  · exact .refl s
  · exact .of_only (s.finish_only _ _) (by decide)
  · have hmiss (c : Nat) : FaultedOrSame s (s.missAt q c) :=
      .of_only (((s.modPocket_only _ _).mono (m := [.track, .chutes, .report]) (by decide)).trans
        ((State.account_only _ _ _).mono (by decide))) (by decide)
    rw [State.ejectMiss_eq]
    split
    · exact hmiss _
    · exact (hmiss _).trans (State.raiseFault_faultedOrSame _ _ _)
  · exact lost
  · exact lap
  · exact lost
  · exact lap
  all_goals exact .refl s

theorem State.handleBoth_faultedOrSame (s : State) (ls cs : Bool) : FaultedOrSame s (s.handleBoth ls cs) := by
  have chosen (u : State) : FaultedOrSame u u.chosen := .of_only (u.modChoices_only _) (by decide)
  unfold State.handleBoth
  dsimp only
  split
  · split
    · exact ((s.handleLoad_faultedOrSame _ _).trans (State.handleCheck_faultedOrSame _ _ _)).trans (chosen _)
    · exact ((s.handleCheck_faultedOrSame _ _).trans (State.handleLoad_faultedOrSame _ _ _)).trans (chosen _)
  · exact (s.handleLoad_faultedOrSame _ _).trans (State.handleCheck_faultedOrSame _ _ _)

/-- A commit after updates of the pocket's record and its slot's counters. -/
theorem State.commit_blockedOrSame (hu : Only [.track, .slot0, .slot1, .report] s u) {q : Nat}
    (hq : q < u.track.pockets.length) (d : Nat) : BlockedOrSame q s (u.commit q d) := by
  have hline : u.line = s.line := hu .line (by decide)
  rcases State.commit_outcome hq d with ⟨-, h⟩ | ⟨hheld, h⟩
  · exact .inl (h.trans hline)
  · exact .inr ⟨h.trans (State.lineBlocked_line_congr hline (hu .pins (by decide))), hheld⟩

theorem State.bumpLotOf_length (s : State) (q : Nat) (f : LotCounters → LotCounters) :
    (s.bumpLotOf q f).track.pockets.length = s.track.pockets.length :=
  congrArg (fun t => t.pockets.length) (s.bumpLotOf_only q f .track (by decide) : (s.bumpLotOf q f).track = s.track)

theorem State.decide_blockedOrSame {q : Nat} (hq : q < s.track.pockets.length) (dec : Decision) (d : Nat)
    (f : LotCounters → LotCounters) : BlockedOrSame q s (s.decide q dec d f) :=
  State.commit_blockedOrSame (((s.modPocket_only _ _).mono (by decide)).trans ((State.bumpLotOf_only _ _ _).mono (by decide)))
    (by rw [State.bumpLotOf_length, State.modPocket_length]; exact hq) d

theorem State.answerReferral_blockedOrSame {q : Nat} (hq : q < s.track.pockets.length) (d : Nat) (src : Source)
    (f : LotCounters → LotCounters) : BlockedOrSame q s (s.answerReferral q d src f) :=
  State.commit_blockedOrSame
    ((((s.modPocket_only _ _).mono (by decide)).trans ((State.modReport_only _ _).mono (by decide))).trans
      ((State.bumpLotOf_only _ _ _).mono (by decide)))
    (by rw [State.bumpLotOf_length]
        exact (State.modPocket_length _ _ _).symm ▸ hq) d

theorem State.leaveDecide_blockedOrSame (s : State) (q : Nat) : BlockedOrSame q s (s.leaveDecide q) := by
  by_cases hempty : (s.pocket q).state = .empty
  · rw [State.leaveDecide_empty hempty]; exact .inl rfl
  have hq : q < s.track.pockets.length := State.lt_of_occupied ((Pocket.occupied_iff _).mpr hempty)
  unfold State.leaveDecide
  split
  · exact .inl rfl
  · split
    · exact State.answerReferral_blockedOrSame hq _ _ _
    · exact State.decide_blockedOrSame hq _ _ _
    · unfold State.defaultMeasuring
      split
      · unfold State.classifyLast
        split
        · exact .inl rfl
        · split <;> exact State.decide_blockedOrSame hq _ _ _
      · exact State.decide_blockedOrSame hq _ _ _
    all_goals exact .inl rfl

theorem State.lineBlocked_ne_idle (h : s.line.state ≠ .idle) : s.lineBlocked.line.state ≠ .idle := by
  cases hw : s.line.state.worked
  · rw [State.lineBlocked_unworked hw]; exact h
  · rw [(State.lineBlocked_worked hw).2.2]
    split <;> decide

/-! ### The occupied pockets -/

theorem State.occupiedCount_zero_iff (s : State) : s.track.occupiedCount = 0 ↔ ∀ q, (s.pocket q).state = .empty := by
  rw [Track.occupiedCount_eq_zero]
  constructor
  · intro h q
    by_cases hq : q < s.track.pockets.length
    · exact h _ (State.pocket_mem hq)
    · rw [State.pocket_outside (by omega)]; rfl
  · intro h p hp
    obtain ⟨q, hq⟩ := List.mem_iff_getElem?.mp hp
    have := h q
    rw [State.pocket, List.getD_eq_getElem?_getD, hq] at this
    exact this

/-- The records that an index start's work leaves are those it ends with. -/
theorem State.indexStart_pocket (s : State) (ls cs : Bool) (q : Nat) :
    (s.indexStart ls cs).transmit.pocket q = ((s.cutShort ls cs).trackIndex ls cs).pocket q := by
  have h := State.judgeDrained_only (((s.cutShort ls cs).trackIndex ls cs).modCal (Cal.judgeFlags
    ((s.cutShort ls cs).trackIndex ls cs).shared.interval ((s.cutShort ls cs).trackIndex ls cs).track.k))
  exact State.pocket_congr ((State.transmit_only _ .track (by decide)).trans (h .track (by decide))) q

theorem State.indexStart_occupied (s : State) (ls cs : Bool) : (s.indexStart ls cs).transmit.track.occupiedCount = 0 ↔
    ((s.cutShort ls cs).trackIndex ls cs).track.occupiedCount = 0 := by
  rw [State.occupiedCount_zero_iff, State.occupiedCount_zero_iff]
  exact forall_congr' fun q => by rw [State.indexStart_pocket]

/-- The line after an index start: IDLE if DRAIN is left with no pocket occupied (R44). -/
theorem State.indexStart_line (s : State) (ls cs : Bool) : (s.indexStart ls cs).transmit.line =
    if ((s.cutShort ls cs).trackIndex ls cs).line.state = .drain ∧
      ((s.cutShort ls cs).trackIndex ls cs).track.occupiedCount = 0 then
      { ((s.cutShort ls cs).trackIndex ls cs).line with state := .idle, motionTimer := none }
    else ((s.cutShort ls cs).trackIndex ls cs).line := by
  rw [State.transmit_line, State.indexStart_eq]
  unfold State.judgeDrained
  split
  · next h => exact (if_pos h).symm
  · next h => exact (if_neg h).symm

/-- The Track Unit's work leaves a DRAIN line DRAIN, FAULTED, or stopped by a pocket that is HELD. -/
theorem State.trackIndex_drain (hs : s.line.state = .drain) (ls cs : Bool) :
    (s.trackIndex ls cs).line.state = .drain ∨ (s.trackIndex ls cs).line.state = .faulted ∨
      (s.trackIndex ls cs).line.state ≠ .idle ∧ ∃ q, ((s.trackIndex ls cs).pocket q).state = .held := by
  unfold State.trackIndex
  split
  · exact .inl hs
  · have hboth := s.handleBoth_faultedOrSame ls cs
    generalize s.handleBoth ls cs = u at hboth
    have hne : u.line.state ≠ .idle := by
      rcases hboth with h | h <;> rw [h]
      · rw [hs]; decide
      · decide
    rcases State.leaveDecide_blockedOrSame u (u.track.pocketAt u.track.decidePos) with h | ⟨h, hheld⟩
    · show (State.leaveDecide _ u).line.state = _ ∨ (State.leaveDecide _ u).line.state = _ ∨ _
      rw [h]
      rcases hboth with hu | hu
      · exact .inl (by rw [hu]; exact hs)
      · exact .inr (.inl hu)
    · refine .inr (.inr ⟨?_, _, hheld⟩)
      show (State.leaveDecide _ u).line.state ≠ _
      rw [h]
      exact State.lineBlocked_ne_idle hne

/-! ### The two ways that DRAIN ends (R44) -/

theorem State.cutShort_state (s : State) (ls cs : Bool) (q : Nat) : ((s.cutShort ls cs).pocket q).state = (s.pocket q).state := by
  rw [State.cutShort_pocket]
  obtain ⟨as, h⟩ := (s.indexLineWork ls cs).cutDwell_pocket q
  rw [h, State.pocket_congr (s.indexLineWork_only ls cs .track (by decide))]

/-- An index start whose work leaves every record EMPTY and the line in DRAIN. -/
theorem State.indexStart_drained {ls cs : Bool} (hm : s.pins.motion = false) (hs : s.line.state = .drain)
    (hl : ((s.cutShort ls cs).trackIndex ls cs).line = indexLine s.line)
    (he : ∀ q, (((s.cutShort ls cs).trackIndex ls cs).pocket q).state = .empty) :
    ∃ t, exec (.indexStart ls cs) s = .next t ∧ t.line.state = .idle ∧ t.line.motionTimer = none ∧ t.line.phase = .moving ∧
      t.track.occupiedCount = 0 := by
  have hzero := (State.occupiedCount_zero_iff _).mpr he
  have hline := s.indexStart_line ls cs
  rw [if_pos ⟨by rw [hl]; exact hs, hzero⟩, hl] at hline
  exact ⟨_, exec_indexStart hm ls cs, by rw [hline], by rw [hline], by rw [hline]; rfl, (s.indexStart_occupied ls cs).mpr hzero⟩

/-- With no part sensed at LOAD at most a load miss is counted. -/
theorem State.handleLoad_absent_only (s : State) (q : Nat) : Only [.lineCnt] s (s.handleLoad q false) := by
  cases h : (s.pocket q).occupied
  · rw [State.handleLoad_absent ((Pocket.unoccupied_iff _).mp h)]
    split
    · exact s.modLineCnt_only _
    · exact .refl _ s
  · rw [State.handleLoad_occupied h]
    exact .refl _ s

/-- The Track Unit's work where load and check handling leave the line and no record occupied. -/
theorem State.trackIndex_cleared {w : State} (h0 : s.track.p = 0 → ∀ q, (s.pocket q).state = .empty)
    (hw : (s.handleLoad (s.track.pocketAt 0) false).handleCheck (s.track.pocketAt s.track.checkPos) false = w)
    (hl : w.line = s.line) (he : ∀ q, (w.pocket q).state = .empty) :
    (s.trackIndex false false).line = s.line ∧ ∀ q, ((s.trackIndex false false).pocket q).state = .empty := by
  unfold State.trackIndex
  split
  · next hp => exact ⟨rfl, h0 hp⟩
  · rw [State.handleBoth_apart (by simp [State.loadAndCheck]), hw]
    dsimp only
    rw [State.leaveDecide_empty (he _)]
    exact ⟨hl, he⟩

/-- A targeted pocket's part that CHECK does not sense is finished, the line standing (R19). -/
theorem State.handleCheck_gone {q : Nat} (h : (s.pocket q).state.targeted) :
    (s.handleCheck q false).line = s.line ∧ ((s.handleCheck q false).pocket q).state = .empty ∧
      ∀ r, r ≠ q → (s.handleCheck q false).pocket r = s.pocket r := by
  have finished (u : State) (o : Finish) (hu : Only [.report] s u) : (u.finish q o).line = s.line ∧
      ((u.finish q o).pocket q).state = .empty ∧ ∀ r, r ≠ q → (u.finish q o).pocket r = s.pocket r := by
    refine ⟨(u.finish_only q o .line (by decide)).trans (hu .line (by decide)), ?_, fun r hr => ?_⟩
    · rw [State.finish_pocket_same]; rfl
    · rw [State.finish_pocket_ne _ hr, State.pocket_congr (hu .track (by decide))]
  unfold State.handleCheck
  rcases h with h | h | h <;> rw [h]
  · exact finished _ _ (s.raise_only _ _)
  · exact finished _ _ (s.raise_only _ _)
  · exact finished _ _ (.refl _ s)

/-- Settles O17: nothing but the end of DRAIN leaves IDLE, and with no record occupied nothing else but a fault bars it. -/
theorem drainEndsAtEmptyTrack : Obligations.DrainEndsAtEmptyTrack := by
  unfold Obligations.DrainEndsAtEmptyTrack
  intro ls cs s hm hs
  refine ⟨?_, ?_, fun t ht => ?_⟩
  · rintro hzero rfl rfl
    have hempty := (s.occupiedCount_zero_iff).mp hzero
    have hcut := s.cutShort_line false false
    have hstate := s.cutShort_state false false
    generalize hu : s.cutShort false false = u at hcut hstate
    have hload := u.handleLoad_absent_only (u.track.pocketAt 0)
    have hpockets : ∀ q, ((u.handleLoad (u.track.pocketAt 0) false).pocket q).state = .empty := fun q => by
      rw [State.pocket_congr (hload .track (by decide)), hstate, hempty]
    obtain ⟨hl, he⟩ := State.trackIndex_cleared (fun _ q => (hstate q).trans (hempty q))
      (State.handleCheck_empty (hpockets _)) (hload .line (by decide)) hpockets
    exact State.indexStart_drained hm hs (by rw [hu, hl, hcut]) (by rw [hu]; exact he)
  · rintro q hp rfl htarget hothers rfl rfl
    have hcut := s.cutShort_line false false
    have hstate := s.cutShort_state false false
    have hgeo := (s.cutShort_evolves false false).sameGeometry
    generalize hu : s.cutShort false false = u at hcut hstate hgeo
    have hcheck : u.track.pocketAt u.track.checkPos = s.track.pocketAt s.track.checkPos := by rw [hgeo]; rfl
    have hload := u.handleLoad_absent_only (u.track.pocketAt 0)
    have hpockets (q : Nat) : ((u.handleLoad (u.track.pocketAt 0) false).pocket q).state = (s.pocket q).state := by
      rw [State.pocket_congr (hload .track (by decide)), hstate]
    obtain ⟨hline, hsame, hne⟩ := State.handleCheck_gone
      (s := u.handleLoad (u.track.pocketAt 0) false) (q := s.track.pocketAt s.track.checkPos) (by rw [hpockets]; exact htarget)
    obtain ⟨hl, he⟩ := State.trackIndex_cleared (s := u) (fun h0 => absurd (hgeo.p ▸ h0) hp) (by rw [hcheck])
      (hline.trans (hload .line (by decide))) fun r => by
        by_cases hr : r = s.track.pocketAt s.track.checkPos
        · rw [hr]; exact hsame
        · rw [hne r hr, hpockets]; exact hothers r hr
    exact State.indexStart_drained hm hs (by rw [hu, hl, hcut]) (by rw [hu]; exact he)
  · obtain rfl := Host.Outcome.next.inj ((exec_indexStart hm ls cs).symm.trans ht)
    have hwork := State.trackIndex_drain (s := s.cutShort ls cs) (by rw [State.cutShort_line]; exact hs) ls cs
    rw [ne_eq, State.indexStart_occupied, State.indexStart_line]
    refine ⟨fun hocc => ?_, fun hzero => ?_⟩
    · rw [if_neg fun h => hocc h.2]
      rcases hwork with h | h | ⟨h, -⟩
      · rw [h]; decide
      · rw [h]; decide
      · exact h
    · rcases hwork with h | h | ⟨-, q, hq⟩
      · rw [if_pos ⟨h, hzero⟩]
        exact .inl rfl
      · rw [if_neg fun hd => by rw [h] at hd; exact (nomatch hd.1)]
        exact .inr h
      · rw [(State.occupiedCount_zero_iff _).mp hzero q] at hq
        contradiction

end

end Sys2Proof.Machine
end


-- ==== Sys2Proof/Proofs/Settles.lean ====
section
/-! PROOFS. SETTLE by line state: the retries of HELD commits, a dwell without work, and a dwell's retries before its firing
(R33 to R35, R38, R40, R41, R144, R145). -/

namespace Sys2Proof.Machine

section
variable {s : State}

/-! ### The parts of a settle that find nothing to do -/

/-- With no pocket to be measured and no check due the request set is empty (R75, R76). -/
theorem State.formRequests_nothing (hp : ∀ p ∈ s.track.pockets, p.state ≠ .loaded ∧ p.state ≠ .measuring)
    (hA : s.dueCheck .A = none) (hB : s.dueCheck .B = none) : s.formRequests = s.modSched fun r => { r with requests := [] } := by
  have hpocket (q : Nat) : (s.pocket q).state ≠ .loaded ∧ (s.pocket q).state ≠ .measuring := by
    by_cases hq : q < s.track.pockets.length
    · exact hp _ (State.pocket_mem hq)
    · rw [State.pocket_outside (by omega)]; decide
  have hstation (i : Nat) : s.stationRequest i = none := by
    have hwants (p : Pocket) (h : p.state ≠ .loaded ∧ p.state ≠ .measuring) : p.wants i = false := by simp [Pocket.wants, h]
    unfold State.stationRequest
    dsimp only
    split
    · rw [hwants _ (hpocket _)]; rfl
    · rfl
  have hcheck (ch : Chan) : s.checkRequest ch = none := by
    unfold State.checkRequest
    split
    · rfl
    · cases ch
      · rw [hA]; rfl
      · rw [hB]; rfl
  have hstations : s.track.stationNumbers.filterMap s.stationRequest = [] :=
    List.filterMap_eq_nil_iff.mpr fun i _ => hstation i
  have hchecks : [Chan.A, .B].filterMap s.checkRequest = [] := List.filterMap_eq_nil_iff.mpr fun ch _ => hcheck ch
  unfold State.formRequests
  rw [hstations, hchecks]
  rfl

theorem State.offer_nothing (h : s.sched.requests = []) : s.offer = s.judgeDwell := by
  rw [State.offer, State.review, h]
  rfl

/-! ### The firing (R145) -/

/-- Between s and t jets have fired for pockets DECIDED in s, and for no other. -/
structure Firing (s t : State) : Prop where
  only : Only [.track, .chutes, .report] s t
  pocket : ∀ q, t.pocket q = s.pocket q ∨
    (s.pocket q).state = .decided ∧ t.pocket q = { s.pocket q with state := .ejected, jetFired := true }
  blocked : KeepsEvent .chuteBlocked s t

theorem Firing.refl (s : State) : Firing s s := ⟨.refl _ s, fun _ => .inl rfl, .refl _ s⟩

theorem Firing.trans {t u : State} (h : Firing s t) (k : Firing t u) : Firing s u := by
  refine ⟨h.only.trans k.only, fun q => ?_, h.blocked.trans k.blocked⟩
  rcases k.pocket q with e | ⟨hd, e⟩ <;> rcases h.pocket q with e' | ⟨hd', e'⟩ <;> rw [e, e']
  · exact .inl rfl
  · exact .inr ⟨hd', rfl⟩
  · exact .inr ⟨e' ▸ hd, rfl⟩
  · exact .inr ⟨hd', rfl⟩

theorem State.fireChute_firing (s : State) (c : Nat) : Firing s (s.fireChute c) := by
  cases hg : (s.chute c).cfg with
  | none =>
    rw [State.fireChute_passed fun g h => (nomatch hg.symm.trans h)]
    exact .refl s
  | some g =>
    cases hf : (s.pocket (s.track.pocketAt g.ejectPos)).firesFor c
    · rw [State.fireChute_passed fun g' h => Option.some.inj (hg.symm.trans h) ▸ hf]
      exact .refl s
    · obtain ⟨hd, -, -⟩ := Pocket.firesFor_iff.mp hf
      have hq := State.lt_of_occupied ((Pocket.occupied_iff _).mpr (by rw [hd]; decide))
      refine ⟨?_, fun q => ?_, ?_⟩
      · rw [State.fireChute_fired hg hf]
        exact ((s.account_only _ _).mono (by decide)).trans ((State.modPocket_only _ _ _).mono (by decide))
      · by_cases h : q = s.track.pocketAt g.ejectPos
        · rw [h]
          exact .inr ⟨hd, State.fireChute_pocket hg hf hq⟩
        · exact .inl (State.fireChute_pocket_ne c fun g' hg' => Option.some.inj (hg.symm.trans hg') ▸ h)
      · rw [State.fireChute_fired hg hf]
        exact (State.account_keeps (by decide) (by decide) s c _).trans (.of_report (State.modPocket_report _ _ _) _)

theorem State.fireJets_firing (s : State) : Firing s s.fireJets := by
  have all (l : List Nat) : ∀ u : State, Firing u (l.foldl State.fireChute u) := by
    induction l with
    | nil => exact .refl
    | cons c l ih => exact fun u => (u.fireChute_firing c).trans (ih _)
  exact all chuteNumbers s

/-- With no pocket DECIDED no jet fires. -/
theorem State.fireJets_nothing (h : ∀ q, (s.pocket q).state ≠ .decided) : s.fireJets = s := by
  have passed (c : Nat) : s.fireChute c = s := State.fireChute_passed fun g _ =>
    eq_false_of_ne_true fun hf => h _ (Pocket.firesFor_iff.mp hf).1
  have all (l : List Nat) : l.foldl State.fireChute s = s := by
    induction l with
    | nil => rfl
    | cons c l ih => rw [List.foldl_cons, passed, ih]
  exact all chuteNumbers

/-! ### SETTLE by line state (R33) -/

theorem exec_settle (h : s.pins.motion = true) : exec .settle s = .next s.settle.transmit := congrArg _ (if_pos h)

theorem State.settle_stopping (h : s.line.state = .stopping) : s.settle = State.retried
    { s with
      pins := { s.pins with motion := false }
      line := { s.line with
        state := .stopped, phase := .waiting, ready := false, loadOk := false, budget := none, motionTimer := none,
        stallTimer := none } } := by
  rw [← State.retryHeld_eq]
  unfold State.settle
  simp only [h]
  rfl

theorem State.settle_rest (h : s.line.state = .idle ∨ s.line.state = .stopped ∨ s.line.state = .faulted) :
    s.settle = State.retried
      { s with
        pins := { s.pins with motion := false }
        line := { s.line with phase := .waiting, ready := false, loadOk := false, motionTimer := none } } := by
  have hsettle : s.settle = (s.motionFalls.modLine restLine).retryHeld := by
    unfold State.settle
    rcases h with h | h | h <;> simp only [h] <;> rfl
  rw [hsettle, State.retryHeld_eq]
  rfl

/-- A dwell opened: MOTION low, WORKING, the budget started (R33, R36). -/
def State.dwellOpened (s : State) : State :=
  { s with
    pins := { s.pins with motion := false }
    line := { s.line with phase := .working, motionTimer := none, budget := some (1000 * s.line.budgetMs) } }

theorem State.settle_worked (h : s.line.state.worked = true) :
    s.settle = (s.dwellOpened.retried.judgeLoadOk.formRequests.fireJets).offer := by
  rw [← State.retryHeld_eq]
  unfold State.settle
  cases hs : s.line.state <;> rw [hs] at h <;> first | contradiction | rfl

/-- A report that events alone have changed, behind a frame being sent. -/
theorem Retains.transmit {t : State} (h : Retains s t) (hx : s.report.tx ≠ none) : t.transmit = t :=
  State.transmit_quiet fun hn => absurd (h.tx.symm.trans hn) hx

/-- A dwell without work is done at once (R33, R34, R35, R38). -/
theorem State.settle_quiet (hw : s.line.state.worked = true)
    (hp : ∀ p ∈ s.track.pockets, p.state = .empty ∨ p.state = .referred ∨ p.state = .ejected)
    (hd : s.dwellDone = true) (hA : s.dueCheck .A = none) (hB : s.dueCheck .B = none) : s.settle =
      { s with
        pins := { s.pins with motion := false }
        line := { s.line with
          phase := .waiting, motionTimer := none, budget := none, ready := true, loadOk := s.line.loadOk || s.loadFit
          stallTimer := if s.line.stallLimitMs = 0 then none else some (1000 * s.line.stallLimitMs) }
        track := { s.track with loadPermit := s.track.loadPermit || s.loadFit }
        sched := { s.sched with requests := [] } } := by
  have hstate {p : Pocket} (h : p.state = .empty ∨ p.state = .referred ∨ p.state = .ejected) :
      p.state ≠ .held ∧ p.state ≠ .decided ∧ p.state ≠ .loaded ∧ p.state ≠ .measuring := by
    rcases h with h | h | h <;> rw [h] <;> decide
  have hpocket (q : Nat) : (s.pocket q).state ≠ .decided := by
    by_cases hq : q < s.track.pockets.length
    · exact (hstate (hp _ (State.pocket_mem hq))).2.1
    · rw [State.pocket_outside (by omega)]; decide
  rw [State.settle_worked hw, State.retried_of_none (by exact fun p h => (hstate (hp p h)).1), State.judgeLoadOk_eq]
  rw [State.formRequests_nothing (by exact fun p h => (hstate (hp p h)).2.2) (by exact hA) (by exact hB)]
  rw [State.fireJets_nothing (by exact hpocket), State.offer_nothing rfl]
  obtain ⟨hjets, hjobA, hjobB, -⟩ := (s.dwellDone_iff).mp hd
  refine Eq.trans (State.judgeDwell_done ?_ ?_ ?_) rfl
  · rfl
  · exact hw
  · exact (State.dwellDone_iff _).mpr ⟨hjets, hjobA, hjobB, rfl⟩

/-- What follows the retries of a dwell: the firing, and what may happen to the line (R34, R40, R41, R145). -/
theorem State.settle_fires (hw : s.line.state.worked = true) : ∃ v, Firing s.dwellOpened.retried.judgeLoadOk.formRequests v ∧
    s.settle = v.offer ∧ v.line = s.dwellOpened.retried.judgeLoadOk.line :=
  ⟨_, State.fireJets_firing _, State.settle_worked hw, (State.fireJets_firing _).only .line (by decide)⟩

/-- The judgement of the dwell work keeps RUN and DRAIN (R34). -/
theorem State.judgeDwell_state (h : s.line.state.worked = true) : s.judgeDwell.line.state = s.line.state := by
  unfold State.judgeDwell
  split
  · cases hs : s.line.state <;> rw [hs] at h <;> first | contradiction | exact hs
  · rfl

/-- A STOPPING line stays STOPPING or becomes STOPPED, its signals low (R34, R41). -/
theorem State.judgeDwell_stops (h : s.line.state = .stopping) (hr : s.line.ready = false) (hl : s.line.loadOk = false) :
    (s.judgeDwell.line.state = .stopping ∨ s.judgeDwell.line.state = .stopped) ∧ s.judgeDwell.line.ready = false ∧
      s.judgeDwell.line.loadOk = false := by
  by_cases hd : s.line.phase = .working ∧ s.dwellDone = true
  · rw [State.judgeDwell_stopping hd.1 h hd.2]
    exact ⟨.inr rfl, rfl, rfl⟩
  · rw [State.judgeDwell, if_neg hd]
    exact ⟨.inl h, hr, hl⟩

theorem State.review_line (s : State) : s.review.line = s.line := s.review_only .line (by decide)

/-- The line after the retries of a dwell that leave no pocket HELD. -/
theorem State.settle_committed (hw : s.line.state.worked = true)
    (h : ∀ q, (s.pocket q).state = .held → (s.dwellOpened.retried.pocket q).state ≠ .held) :
    s.settle.line.state = s.line.state := by
  obtain ⟨v, -, hsettle, hv⟩ := State.settle_fires hw
  have hline : s.dwellOpened.retried.line = s.dwellOpened.line :=
    State.retried_line fun q c hm => h q (State.mem_heldTargets.mp hm).2.1
  have hstate : v.line.state = s.line.state := by
    rw [hv, State.judgeLoadOk_eq]
    show s.dwellOpened.retried.line.state = _
    rw [hline]
    rfl
  rw [hsettle, State.offer, State.judgeDwell_state (by rw [State.review_line, hstate]; exact hw), State.review_line, hstate]

/-- A pocket still HELD after the retries of a dwell has made the line STOPPING, or STOPPED where no work is open (R40, R41). -/
theorem State.settle_blocked (hw : s.line.state.worked = true) {q c : Nat} (hs : (s.pocket q).state = .held)
    (ht : (s.pocket q).target = some c) (h : (s.dwellOpened.retried.pocket q).state = .held) :
    (s.settle.line.state = .stopping ∨ s.settle.line.state = .stopped) ∧ s.settle.line.ready = false ∧
      s.settle.line.loadOk = false := by
  obtain ⟨v, -, hsettle, hv⟩ := State.settle_fires hw
  have hq := State.lt_of_occupied ((Pocket.occupied_iff _).mpr (by rw [hs]; decide))
  have hline : s.dwellOpened.retried.line = { s.dwellOpened.line with
      state := .stopping, ready := false, loadOk := false, stallTimer := none } := by
    rw [State.retried_line_blocked (s := s.dwellOpened) (State.mem_heldTargets.mpr ⟨hq, hs, ht⟩) h,
      State.lineBlocked_open (s := s.dwellOpened) hw (by
        show Phase.working ≠ .waiting; decide)]
    rfl
  have hfit : s.dwellOpened.retried.loadFit = false := eq_false_of_ne_true fun hf => by
    have hrun := ((State.loadFit_iff _).mp hf).1
    rw [hline] at hrun
    contradiction
  have hvline : v.review.line = s.dwellOpened.retried.line := by
    rw [State.review_line, hv, State.judgeLoadOk, hfit]
    rfl
  rw [hsettle]
  refine State.judgeDwell_stops ?_ ?_ ?_ <;> rw [hvline, hline]

/-- Settles O18: the retries at rest, a dwell without work, and a dwell's retries before its firing. -/
theorem settleTaken : Obligations.SettleTaken := by
  unfold Obligations.SettleTaken
  refine ⟨fun s hs => ⟨fun hm => ?_, fun hm hno => ⟨fun h => ?_, fun h => ?_⟩⟩, fun s hs hdwell hm hp hw hpockets hA hB => ?_,
    fun s f htx hm => ?_⟩
  · exact congrArg _ ((if_neg (by rw [hm]; decide)).trans (State.transmit_quiet hs))
  · rw [exec_settle hm, State.settle_stopping h, State.retried_of_none (by exact hno)]
    exact congrArg _ (State.transmit_of_report hs rfl)
  · rw [exec_settle hm, State.settle_rest h, State.retried_of_none (by exact hno)]
    exact congrArg _ (State.transmit_of_report hs rfl)
  · have hd := hdwell.1 (by rw [hp]; decide)
    rw [exec_settle hm, State.settle_quiet hw hpockets hd hA hB]
    exact ⟨_, congrArg _ (State.transmit_of_report hs rfl), rfl, rfl, rfl, rfl, rfl, rfl, rfl, rfl, rfl, rfl, rfl, rfl, rfl, rfl,
      rfl⟩
  · have hsend : s.report.tx ≠ none := by rw [htx]; exact Option.some_ne_none f
    refine ⟨fun h => ?_, fun h => ?_, fun hw r hr => ?_⟩
    · rw [exec_settle hm, State.settle_stopping h]
      exact congrArg _ (Retains.transmit (State.retried_retains _) hsend)
    · rw [exec_settle hm, State.settle_rest h]
      exact congrArg _ (Retains.transmit (State.retried_retains _) hsend)
    · obtain rfl : r = s.dwellOpened.retried := hr
      obtain ⟨v, hfire, hsettle, -⟩ := State.settle_fires hw
      have hload : Only [.line, .track, .sched] s.dwellOpened.retried s.dwellOpened.retried.judgeLoadOk.formRequests :=
        ((State.judgeLoadOk_only _).mono (by decide)).trans ((State.modSched_only _ _).mono (by decide))
      have hpocket (q : Nat) : s.dwellOpened.retried.judgeLoadOk.formRequests.pocket q = s.dwellOpened.retried.pocket q := by
        rw [State.judgeLoadOk_eq]
        rfl
      have hoffer := v.offer_only
      have hreport : s.settle.report = v.report := by rw [hsettle]; exact hoffer .report (by decide)
      have hquiet : s.settle.transmit = s.settle := by
        refine State.transmit_sending (f := f) ?_
        rw [hreport, hfire.blocked.tx, show (State.formRequests _).report = _ from hload .report (by decide),
          s.dwellOpened.retried_retains.tx]
        exact htx
      rw [exec_settle hm, hquiet]
      have hfired (q : Nat) : s.settle.pocket q = s.dwellOpened.retried.pocket q ∨
          (s.dwellOpened.retried.pocket q).state = .decided ∧
            s.settle.pocket q = { s.dwellOpened.retried.pocket q with state := .ejected, jetFired := true } := by
        have h := hfire.pocket q
        rw [hpocket] at h
        rw [hsettle, State.pocket_congr (hoffer .track (by decide))]
        exact h
      refine ⟨_, rfl, fun q hq => (hfired q).resolve_right fun h => hq h.1, fun q _ => (hfired q).imp_right And.right, ?_, ?_, ?_,
        State.settle_committed hw, fun q c => State.settle_blocked hw⟩
      · rw [hsettle]
        exact (hoffer .slot0 (by decide)).trans ((hfire.only .slot0 (by decide)).trans (hload .slot0 (by decide)))
      · rw [hsettle]
        exact (hoffer .slot1 (by decide)).trans ((hfire.only .slot1 (by decide)).trans (hload .slot1 (by decide)))
      · rw [hreport, hfire.blocked.event, show (State.formRequests _).report = _ from hload .report (by decide)]

end

end Sys2Proof.Machine
end


-- ==== Sys2Proof/Proofs/ChannelRequests.lean ====
section
/-! PROOFS. CHAN.RESET and CHAN.RESTORE (R57, R60), the job that a reset ends (R70, R82, R164) and the review that follows (R79). -/

namespace Sys2Proof.Machine

section
variable {s : State}

/-! ### A review at a channel that is not IN_SERVICE (R78, R79) -/

theorem State.modChan_chan (x ch : Chan) (f : Channel → Channel) :
    (s.modChan x f).chan ch = if ch = x then f (s.chan ch) else s.chan ch := by
  cases x <;> cases ch <;> rfl

/-- The NO TIME drops of a review are counted at the channels, and change nothing else of them. -/
theorem State.dropLate_chan (s : State) (ch : Chan) : ∃ n, s.dropLate.chan ch = { s.chan ch with cnt := n } := by
  have all (l : List SchedReq) : ∀ u : State, ∃ n, (l.foldl State.noTime u).chan ch = { u.chan ch with cnt := n } := by
    induction l with
    | nil => exact fun u => ⟨_, rfl⟩
    | cons r l ih =>
      intro u
      obtain ⟨n, hn⟩ := ih (u.noTime r)
      rw [List.foldl_cons, hn, State.noTime, State.modChan_chan]
      split <;> exact ⟨n, rfl⟩
  exact all _ s

/-- A channel that is not IN_SERVICE is granted nothing (R79). -/
theorem State.grantPass_chan {ch : Chan} (h : (s.chan ch).service ≠ .inService) (x : Chan) :
    (s.grantPass x).chan ch = s.chan ch := by
  by_cases hx : ch = x
  · subst hx
    rw [State.grantPass, if_neg (by simp [Channel.free, h])]
  · unfold State.grantPass
    split
    · split
      · rw [State.grant, State.modChan_chan, if_neg hx]
        cases ch <;> rfl
      · rfl
    · rfl

theorem State.review_chan {ch : Chan} (h : (s.chan ch).service ≠ .inService) :
    ∃ n, s.review.chan ch = { s.chan ch with cnt := n } := by
  unfold State.review
  split
  · exact ⟨_, rfl⟩
  · obtain ⟨n, hn⟩ := s.dropLate_chan ch
    have hout : (s.dropLate.chan ch).service ≠ .inService := by rw [hn]; exact h
    have hA := State.grantPass_chan hout .A
    exact ⟨n, (State.grantPass_chan (by rw [hA]; exact hout) .B).trans (hA.trans hn)⟩

theorem State.offer_chan (s : State) (ch : Chan) : s.offer.chan ch = s.review.chan ch :=
  State.chan_congr (State.judgeDwell_only _ .chanA (by decide)) (State.judgeDwell_only _ .chanB (by decide)) ch

/-! ### The job that ends STALL (R70, R82, R164) -/

/-- An outcome that uses no retry leaves its attempt at the pocket and nothing more (R82, R83). -/
theorem State.abortJob_pocket_uncharged {ch : Chan} {j : Job} {i q g : Nat} {o : JobOutcome} (hj : (s.chan ch).job = some j)
    (hk : j.kind = .station i q g) (hq : q < s.track.pockets.length) (ho : o.charged = false) : (s.abortJob ch o).pocket q =
      { s.pocket q with attempts := (s.pocket q).attempts ++ [⟨i, ch, g, o, none, none⟩] } := by
  have hend : (s.endJob ch).pocket q = s.pocket q := State.pocket_congr (s.endJob_track ch) q
  unfold State.abortJob
  rw [hj]
  dsimp only
  rw [hk]
  dsimp only
  rw [State.recordAttempt, State.pocket_congr (State.modChan_track _ _ _),
    State.modPocket_same (by rw [State.endJob_track]; exact hq), hend, Pocket.addAttempt, ho]
  rfl

theorem State.abortJob_track_check {ch : Chan} {j : Job} (hj : (s.chan ch).job = some j) (hk : j.kind = .check)
    (o : JobOutcome) : (s.abortJob ch o).track = s.track := by
  unfold State.abortJob
  rw [hj]
  dsimp only
  rw [hk]
  dsimp only
  rw [State.modChan_track, State.endJob_track]

theorem State.abortJob_chan_station {ch : Chan} {j : Job} {i q g : Nat} (hj : (s.chan ch).job = some j)
    (hk : j.kind = .station i q g) (o : JobOutcome) : (s.abortJob ch o).chan ch = { (s.chan ch).endJob with
      cnt := countJob o (s.chan ch).cnt } := by
  unfold State.abortJob
  rw [hj]
  dsimp only
  rw [hk]
  cases ch <;> rfl

theorem State.abortJob_chan_check {ch : Chan} {j : Job} (hj : (s.chan ch).job = some j) (hk : j.kind = .check)
    (o : JobOutcome) : (s.abortJob ch o).chan ch = { (s.chan ch).endJob with cnt := countCheck (s.chan ch).cnt } := by
  unfold State.abortJob
  rw [hj]
  dsimp only
  rw [hk]
  cases ch <;> rfl

/-! ### The requests -/

theorem exec_chanReset (tag : Byte) (n : Nat) (s : State) :
    exec (.chanReset tag n) s = .next (s.ask tag (.chanReset n) (State.chanReset n)).transmit := rfl

theorem exec_chanRestore (tag : Byte) (n : Nat) (s : State) :
    exec (.chanRestore tag n) s = .next (s.ask tag (.chanRestore n) (State.chanRestore n)).transmit := rfl

theorem chanOf_chanCode (ch : Chan) : chanOf (chanCode ch) = some ch := by cases ch <;> rfl

theorem State.chanReset_bad {n : Nat} (h : 1 < n) : s.chanReset n = (.bad 1, s) := by
  unfold State.chanReset
  rw [chanOf_eq_none h]

theorem State.chanRestore_bad {n : Nat} (h : 1 < n) : s.chanRestore n = (.bad 1, s) := by
  unfold State.chanRestore
  rw [chanOf_eq_none h]

theorem State.chanReset_suspect {ch : Chan} (h : (s.chan ch).service = .suspect) : s.chanReset (chanCode ch) = (.busy, s) := by
  simp only [State.chanReset, chanOf_chanCode, h]

theorem State.chanRestore_busy {ch : Chan} (h : (s.chan ch).service ≠ .suspect) : s.chanRestore (chanCode ch) = (.busy, s) := by
  unfold State.chanRestore
  rw [chanOf_chanCode]
  dsimp only
  split
  · rfl
  · rfl
  · next hs => exact absurd hs h

/-- A channel that is reset without a job. -/
theorem State.chanReset_idle {ch : Chan} (h : (s.chan ch).service ≠ .suspect) (hj : (s.chan ch).job = none) :
    s.chanReset (chanCode ch) = (.ok (le 1 Service.stalled.code), s.modChan ch Channel.enterStalled) := by
  have hno : (s.modChan ch Channel.enterStalled).stallJob ch = s.modChan ch Channel.enterStalled := by
    rw [State.stallJob, State.modChan_same, if_neg (by rw [Channel.enterStalled, hj]; decide)]
  unfold State.chanReset
  rw [chanOf_chanCode]
  dsimp only
  split
  · next hs => exact absurd hs h
  · rw [hno]
  · rfl

/-- A channel that is reset while its job runs: the job ends STALL, and its end is a review. -/
theorem State.chanReset_running {ch : Chan} (h : (s.chan ch).service = .inService) (hj : (s.chan ch).job ≠ none) :
    s.chanReset (chanCode ch) =
      (.ok (le 1 Service.stalled.code), ((s.modChan ch Channel.enterStalled).abortJob ch .stall).offer) := by
  have hstall : (s.modChan ch Channel.enterStalled).stallJob ch = ((s.modChan ch Channel.enterStalled).abortJob ch .stall).offer := by
    rw [State.stallJob, State.modChan_same]
    exact if_pos (Option.isSome_iff_ne_none.mpr hj)
  simp only [State.chanReset, chanOf_chanCode, h, hstall]

/-- A channel that is restored, before the review. -/
def State.restored (s : State) (ch : Chan) : State :=
  (s.modChan ch fun c => { c.enterService with srcRun := 0 }).modCal (Cal.setTrims ch noTrims)

theorem State.chanRestore_suspect {ch : Chan} (h : (s.chan ch).service = .suspect) : s.chanRestore (chanCode ch) =
    (.ok (le 1 Service.inService.code), (s.restored ch).offer) := by
  simp only [State.chanRestore, chanOf_chanCode, h]
  rfl

theorem State.restored_only (s : State) (ch : Chan) : Only [.chanA, .chanB, .cal] s (s.restored ch) :=
  ((s.modChan_only _ _).mono (by decide)).trans ((State.modCal_only _ _).mono (by decide))

theorem State.offer_report (s : State) : s.offer.report = s.report := s.offer_only .report (by decide)

/-! ### A reset that ends a job -/

/-- The part as CHAN.RESET leaves channel ch with its job ended, before the review. -/
def State.stalledJob (s : State) (ch : Chan) : State := (s.modChan ch Channel.enterStalled).abortJob ch .stall

theorem State.stalledJob_only (s : State) (ch : Chan) : Only [.track, .chanA, .chanB, .sched] s (s.stalledJob ch) :=
  ((s.modChan_only _ _).mono (by decide)).trans (State.abortJob_only _ _ _)

theorem State.stalledJob_requests (s : State) (ch : Chan) : (s.stalledJob ch).sched.requests = s.sched.requests := by
  rw [State.stalledJob, State.abortJob_requests]
  cases ch <;> rfl

theorem State.stalledJob_other (s : State) (ch : Chan) : (s.stalledJob ch).chan (chanOther ch) = s.chan (chanOther ch) :=
  (State.abortJob_chan_other _ ch .stall).trans (State.modChan_other ..)

section
variable {ch : Chan} {j : Job} {i q g : Nat}

theorem State.stalledJob_chan_station (hj : (s.chan ch).job = some j) (hk : j.kind = .station i q g) :
    (s.stalledJob ch).chan ch = { (s.chan ch).enterStalled.endJob with cnt := countJob .stall (s.chan ch).cnt } := by
  rw [State.stalledJob, State.abortJob_chan_station (by rw [State.modChan_same]; exact hj) hk, State.modChan_same]
  rfl

theorem State.stalledJob_chan_check (hj : (s.chan ch).job = some j) (hk : j.kind = .check) :
    (s.stalledJob ch).chan ch = { (s.chan ch).enterStalled.endJob with cnt := countCheck (s.chan ch).cnt } := by
  rw [State.stalledJob, State.abortJob_chan_check (by rw [State.modChan_same]; exact hj) hk, State.modChan_same]
  rfl

/-- The channel that a reset with a job leaves: STALLED, its job gone, its counters as the job's end makes them. -/
theorem State.stalledJob_chan (hj : (s.chan ch).job = some j) :
    ∃ n, (s.stalledJob ch).chan ch = { (s.chan ch).enterStalled.endJob with cnt := n } := by
  cases hk : j.kind with
  | station i q g => exact ⟨_, State.stalledJob_chan_station hj hk⟩
  | check => exact ⟨_, State.stalledJob_chan_check hj hk⟩

/-- The job ended STALL is recorded at its pocket, whose retries stay (R82). -/
theorem State.stalledJob_pocket (hj : (s.chan ch).job = some j) (hk : j.kind = .station i q g)
    (hq : q < s.track.pockets.length) : (s.stalledJob ch).pocket q =
      { s.pocket q with attempts := (s.pocket q).attempts ++ [⟨i, ch, g, .stall, none, none⟩] } := by
  have htrack : (s.modChan ch Channel.enterStalled).track = s.track := s.modChan_track _ _
  rw [State.stalledJob, State.abortJob_pocket_uncharged (by rw [State.modChan_same]; exact hj) hk
    (by rw [htrack]; exact hq) rfl, State.pocket_congr htrack]

theorem State.stalledJob_pocket_ne {r : Nat} (hj : (s.chan ch).job = some j) (hk : j.kind = .station i q g) (hr : r ≠ q) :
    (s.stalledJob ch).pocket r = s.pocket r := by
  have hunnamed : ¬((s.modChan ch Channel.enterStalled).chan ch).names r := by
    rw [State.modChan_same]
    rintro ⟨j', hj', i', g', hk'⟩
    obtain rfl := Option.some.inj (hj.symm.trans hj')
    exact hr (JobKind.station.inj (hk'.symm.trans hk)).2.1
  rw [State.stalledJob, State.abortJob_pocket_unnamed hunnamed, State.pocket_congr (s.modChan_track _ _)]

theorem State.stalledJob_track_check (hj : (s.chan ch).job = some j) (hk : j.kind = .check) :
    (s.stalledJob ch).track = s.track :=
  (State.abortJob_track_check (by rw [State.modChan_same]; exact hj) hk _).trans (s.modChan_track _ _)

end

/-- Without a request left the dwell work is done once no job runs and no jet pulses. -/
theorem State.stalledJob_done {ch : Chan} {j : Job} (hj : (s.chan ch).job = some j) (hr : s.sched.requests = [])
    (ho : (s.chan (chanOther ch)).job = none) (hjets : s.jetsOff) : (s.stalledJob ch).dwellDone = true := by
  obtain ⟨n, hn⟩ := State.stalledJob_chan hj
  have hself : ((s.stalledJob ch).chan ch).job = none := by rw [hn]; rfl
  have hother : ((s.stalledJob ch).chan (chanOther ch)).job = none := by rw [State.stalledJob_other]; exact ho
  have hoff : (s.stalledJob ch).jetsOff := by
    rw [State.jetsOff, show (s.stalledJob ch).chutes = s.chutes from s.stalledJob_only ch .chutes (by decide)]
    exact hjets
  have hreq := (s.stalledJob_requests ch).trans hr
  refine (State.dwellDone_iff _).mpr ⟨hoff, ?_⟩
  cases ch
  · exact ⟨hself, hother, hreq⟩
  · exact ⟨hother, hself, hreq⟩

/-! ### The reply of a reset that ends a job -/

/-- The part after CHAN.RESET with a job running: the job ended, the review done, the dwell judged, the reply placed. -/
def State.resetRunning (s : State) (ch : Chan) (tag : Byte) : State :=
  (s.stalledJob ch).offer.replied ⟨0x87#8, tag, [0x00#8, 0x01#8]⟩

section
variable {ch : Chan} {j : Job}

theorem State.stalledJob_offer_same (s : State) (ch : Chan) {b : Block} (h1 : b ∉ [.track, .chanA, .chanB, .sched])
    (h2 : b ∉ [.line, .chanA, .chanB, .sched]) : b.same s (s.stalledJob ch).offer :=
  b.same_trans (s.stalledJob_only ch b h1) ((s.stalledJob ch).offer_only b h2)

theorem State.exec_resetRunning (hs : s.taking) (h : (s.chan ch).service = .inService) (hj : (s.chan ch).job = some j)
    (tag : Byte) : exec (.chanReset tag (chanCode ch)) s = .next (s.resetRunning ch tag) :=
  congrArg _ (State.ask_answer hs tag (.chanReset (chanCode ch))
    (State.chanReset_running h (by rw [hj]; exact Option.some_ne_none j))
    (s.stalledJob_offer_same ch (b := .report) (by decide) (by decide)))

theorem State.resetRunning_chan (s : State) (ch : Chan) (tag : Byte) (x : Chan) :
    (s.resetRunning ch tag).chan x = (s.stalledJob ch).review.chan x := by
  rw [← State.offer_chan]
  cases x <;> rfl

/-- With no request waiting the review grants nothing. -/
theorem State.resetRunning_chan_quiet (hr : s.sched.requests = []) (tag : Byte) (x : Chan) :
    (s.resetRunning ch tag).chan x = (s.stalledJob ch).chan x := by
  rw [State.resetRunning_chan, State.review, (s.stalledJob_requests ch).trans hr]
  rfl

/-- The channel reset, but for its counters. -/
theorem State.resetRunning_same (hj : (s.chan ch).job = some j) (tag : Byte) :
    ∃ n, (s.resetRunning ch tag).chan ch = { (s.chan ch).enterStalled.endJob with cnt := n } := by
  obtain ⟨n, hn⟩ := State.stalledJob_chan hj
  obtain ⟨m, hm⟩ := State.review_chan (s := s.stalledJob ch) (ch := ch) (by rw [hn]; exact fun hx => (nomatch hx))
  exact ⟨m, by rw [State.resetRunning_chan, hm, hn]⟩

theorem State.resetRunning_track (s : State) (ch : Chan) (tag : Byte) :
    (s.resetRunning ch tag).track = (s.stalledJob ch).track := (s.stalledJob ch).offer_only .track (by decide)

theorem State.resetRunning_events (s : State) (ch : Chan) (tag : Byte) :
    (s.resetRunning ch tag).report.events = s.report.events := by
  have hsame : (s.stalledJob ch).offer.report.events = s.report.events :=
    congrArg Report.events (s.stalledJob_offer_same ch (b := .report) (by decide) (by decide))
  rw [← hsame, State.resetRunning, State.replied, Report.afterReply]
  dsimp only
  split <;> rfl

/-- In a WORKING dwell with no other work left the line leaves WORKING (R34). -/
theorem State.resetRunning_ready (hj : (s.chan ch).job = some j) (hp : s.line.phase = .working)
    (hw : s.line.state.worked = true) (hr : s.sched.requests = []) (ho : (s.chan (chanOther ch)).job = none)
    (hjets : s.jetsOff) (tag : Byte) :
    (s.resetRunning ch tag).line.phase = .waiting ∧ (s.resetRunning ch tag).line.ready = true := by
  have hline : (s.stalledJob ch).line = s.line := s.stalledJob_only ch .line (by decide)
  have hdone := (State.offer_nothing ((s.stalledJob_requests ch).trans hr)).trans
    (State.judgeDwell_done (by rw [hline]; exact hp) (by rw [hline]; exact hw) (State.stalledJob_done hj hr ho hjets))
  rw [State.resetRunning, hdone]
  exact ⟨rfl, rfl⟩

end

/-! ### A restored channel and the dwell -/

/-- The answer to CHAN.RESTORE: what the judgement of the dwell makes of the reviewed part. -/
theorem State.exec_restored {ch : Chan} (hs : s.taking) (h : (s.chan ch).service = .suspect) (tag : Byte) {v : State}
    (hv : (s.restored ch).review.judgeDwell = v) : exec (.chanRestore tag (chanCode ch)) s =
      .next (State.replied ⟨0x88#8, tag, [0x00#8, 0x00#8]⟩ v) := by
  subst hv
  exact congrArg _ (State.ask_answer hs tag (.chanRestore (chanCode ch)) (State.chanRestore_suspect h)
    ((State.offer_report _).trans (s.restored_only ch .report (by decide))))

theorem State.restored_review_only (s : State) (ch : Chan) : Only [.chanA, .chanB, .cal, .sched] s (s.restored ch).review :=
  ((s.restored_only ch).mono (by decide)).trans ((State.review_only _).mono (by decide))

/-- Settles O26: the refusals, a reset with and without a job, and a restored channel with the judgement that follows. -/
theorem chanResetAndRestore : Obligations.ChanResetAndRestore := by
  unfold Obligations.ChanResetAndRestore
  refine ⟨fun tag s ch hs hj => ⟨fun n hn => ⟨State.ask_read hs tag _ (State.chanReset_bad hn),
      State.ask_read hs tag _ (State.chanRestore_bad hn)⟩, fun h => ⟨State.ask_read hs tag _ (State.chanReset_suspect h),
      fun hp hr => ?_⟩, fun h => ⟨State.ask_read hs tag _ (State.chanRestore_busy h), ?_⟩⟩,
    fun tag s ch j c hs hsvc hj hc => ?_, fun tag s u ch hs h hu => ?_⟩
  · have honly := s.restored_only ch
    have hreview : (s.restored ch).review.judgeDwell = s.restored ch :=
      (State.offer_nothing ((congrArg Sched.requests (honly .sched (by decide))).trans hr)).trans
        (State.judgeDwell_open (.inl (by rw [show (s.restored ch).line = s.line from honly .line (by decide)]; exact hp)))
    refine (State.exec_restored hs h tag hreview).trans ?_
    cases ch <;> rfl
  · exact congrArg _ (State.ask_answer hs tag (.chanReset (chanCode ch)) (State.chanReset_idle h hj)
      (s.modChan_only _ _ .report (by decide)))
  · have same {b : Block} := s.stalledJob_offer_same ch (b := b)
    have htrack := s.resetRunning_track ch tag
    obtain ⟨m, hm⟩ := State.resetRunning_same hj tag
    have hquiet (hr : s.sched.requests = []) (x : Chan) := State.resetRunning_chan_quiet (ch := ch) hr tag x
    have hother (hr : s.sched.requests = []) := (hquiet hr (chanOther ch)).trans (s.stalledJob_other ch)
    refine ⟨_, State.exec_resetRunning hs hsvc hj tag, State.replied_answered _ _, by rw [hm]; rfl, by rw [hm]; rfl,
      by rw [hm]; rfl, s.resetRunning_events ch tag, same (b := .cal) (by decide) (by decide),
      same (b := .slot0) (by decide) (by decide), same (b := .slot1) (by decide) (by decide),
      same (b := .chutes) (by decide) (by decide), fun i q g hk hq => ⟨?_, fun r hr => ?_, fun hr => ⟨hother hr, ?_⟩⟩,
      fun hk => ⟨htrack.trans (State.stalledJob_track_check hj hk), fun hr => ⟨hother hr, ?_⟩⟩,
      fun hp hw hr ho hjets => State.resetRunning_ready hj hp hw hr ho hjets tag⟩
    · exact (State.pocket_congr htrack q).trans (State.stalledJob_pocket hj hk hq)
    · exact (State.pocket_congr htrack r).trans (State.stalledJob_pocket_ne hj hk hr)
    · rw [hquiet hr, State.stalledJob_chan_station hj hk, hc]
      rfl
    · rw [hquiet hr, State.stalledJob_chan_check hj hk, hc]
      rfl
  · have hu' : u = (s.restored ch).review := by
      rw [hu]
      cases ch <;> rfl
    have honly := s.restored_review_only ch
    have answer {v : State} := State.exec_restored hs h tag (v := v)
    rw [← hu'] at honly answer
    have hline : u.line = s.line := honly .line (by decide)
    refine ⟨fun hopen => answer (State.judgeDwell_open (by rw [hline]; exact hopen)), fun hp hd => ⟨fun hw => ?_, fun hst => ?_⟩⟩
    · refine (answer (State.judgeDwell_done (by rw [hline]; exact hp) (by rw [hline]; exact hw) hd)).trans ?_
      rw [← hline]
      rfl
    · refine (answer (State.judgeDwell_stopping (by rw [hline]; exact hp) (by rw [hline]; exact hst) hd)).trans ?_
      rw [← hline, ← show u.pins = s.pins from honly .pins (by decide)]
      rfl

end

end Sys2Proof.Machine
end


-- ==== Sys2Proof/Proofs/Verdicts.lean ====
section
/-! PROOFS. VERDICT: the pocket that a serial finds, the referral answered and its commit, and TOO_LATE (R128, R129, R130). -/

namespace Sys2Proof.Machine

section
variable {s : State}

/-! ### The reply of a request whose step raises events -/

/-- A message other than the reply leaves the reply slot. -/
theorem Report.take_reply {r : Report} {m : Msg} (h : m ≠ .reply) : (r.take m).reply = r.reply := by
  cases m with
  | reply => exact absurd rfl h
  | refer => unfold Report.take; dsimp only; split <;> rfl
  | event k => unfold Report.take; dsimp only; split <;> rfl
  | lotEnd => unfold Report.take; dsimp only; split <;> rfl
  | part => unfold Report.take; dsimp only; split <;> rfl

/-- A reply placed stands in its slot, or is what the transmitter takes (R171, R179). -/
theorem State.place_answered (s : State) (f : Frame) : (s.place f).transmit.answered f := by
  unfold State.answered
  rcases (s.place f).transmit_cases with h | ⟨-, m, -, h⟩ <;> rw [h]
  · exact .inl rfl
  · by_cases hm : m = .reply
    · rw [hm]; exact .inr rfl
    · exact .inl (Report.take_reply hm)

/-- The transmitter and a reply leave every block but the Report Queue and the free choices. -/
theorem State.place_transmit_only (s : State) (f : Frame) : Only [.report, .choices] s (s.place f).transmit :=
  ((s.modReport_only _).mono (by decide)).trans (State.transmit_only _)

/-! ### The pocket that a serial finds (R128, R130) -/

/-- Where one pocket alone passes a test it is the one found. -/
theorem State.findPocket_eq_some {P : Pocket → Bool} {q : Nat} (hq : q < s.track.pockets.length) (h : P (s.pocket q) = true)
    (hu : ∀ r, r < s.track.pockets.length → P (s.pocket r) = true → r = q) : s.findPocket P = some q := by
  have hget (r : Nat) (hr : r < s.track.pockets.length) : s.pocket r = s.track.pockets[r] := by
    rw [State.pocket, List.getD_eq_getElem?_getD, List.getElem?_eq_getElem hr]; rfl
  refine List.findIdx?_eq_some_iff_getElem.mpr ⟨hq, by rw [← hget q hq]; exact h, fun r hr hP => ?_⟩
  have hlt : r < s.track.pockets.length := hr.trans hq
  rw [← hget r hlt] at hP
  exact absurd (hu r hlt hP) (Nat.ne_of_lt hr)

theorem State.findPocket_eq_none {P : Pocket → Bool} (h : ∀ p ∈ s.track.pockets, P p = false) : s.findPocket P = none :=
  List.findIdx?_eq_none_iff.mpr h

/-- No two occupied pockets hold a serial, so that one that does is the one found (R16). -/
theorem State.occupiedWith_eq_some {q n : Nat} (hu : SerialInv s) (hq : q < s.track.pockets.length)
    (ho : (s.pocket q).state ≠ .empty) (hn : (s.pocket q).serial = some n) : s.occupiedWith n = some q := by
  have hocc := (Pocket.occupied_iff _).mpr ho
  refine State.findPocket_eq_some hq (by simp [hocc, hn]) fun r hr hP => ?_
  obtain ⟨hro, hrn⟩ : (s.pocket r).occupied = true ∧ (s.pocket r).serial = some n := by simpa using hP
  exact hu r hr q hq hro hocc (hrn.trans hn.symm)

theorem State.referredWith_eq_some {q n : Nat} (hu : SerialInv s) (hq : q < s.track.pockets.length)
    (ho : (s.pocket q).state = .referred) (hn : (s.pocket q).serial = some n) : s.referredWith n = some q := by
  have hocc : (s.pocket q).occupied = true := (Pocket.occupied_iff _).mpr (by rw [ho]; decide)
  refine State.findPocket_eq_some hq (by simp [ho, hn]) fun r hr hP => ?_
  obtain ⟨hro, hrn⟩ : (s.pocket r).state = .referred ∧ (s.pocket r).serial = some n := by simpa using hP
  exact hu r hr q hq ((Pocket.occupied_iff _).mpr (by rw [hro]; decide)) hocc (hrn.trans hn.symm)

/-- A serial held in another state is held by no REFERRED pocket. -/
theorem State.referredWith_eq_none {q n : Nat} (hu : SerialInv s) (hq : q < s.track.pockets.length)
    (ho : (s.pocket q).state ≠ .empty) (hr : (s.pocket q).state ≠ .referred) (hn : (s.pocket q).serial = some n) :
    s.referredWith n = none := by
  refine State.findPocket_eq_none fun p hp => ?_
  by_contra hP
  obtain ⟨hps, hpn⟩ : p.state = .referred ∧ p.serial = some n := by simpa using hP
  obtain ⟨r, hlt, rfl⟩ := State.exists_pocket hp
  have hsame := hu r hlt q hq ((Pocket.occupied_iff _).mpr (by rw [hps]; decide)) ((Pocket.occupied_iff _).mpr ho)
    (hpn.trans hn.symm)
  exact hr (hsame ▸ hps)

/-- A serial that no occupied pocket holds is found nowhere. -/
theorem State.finds_none {n : Nat} (h : ∀ p ∈ s.track.pockets, p.state ≠ .empty → p.serial ≠ some n) :
    s.occupiedWith n = none ∧ s.referredWith n = none := by
  refine ⟨State.findPocket_eq_none fun p hp => ?_, State.findPocket_eq_none fun p hp => ?_⟩
  · by_contra hP
    obtain ⟨hpo, hpn⟩ : p.occupied = true ∧ p.serial = some n := by simpa using hP
    exact h p hp ((Pocket.occupied_iff p).mp hpo) hpn
  · by_contra hP
    obtain ⟨hps, hpn⟩ : p.state = .referred ∧ p.serial = some n := by simpa using hP
    exact h p hp (by rw [hps]; decide) hpn

/-! ### The refusals (R128) -/

theorem exec_verdict (tag : Byte) (n choice : Nat) (s : State) :
    exec (.verdict tag n choice) s = .next (s.ask tag (.verdict n choice) (State.verdict n choice)).transmit := rfl

theorem State.chuteOk_iff (s : State) (c : Nat) : s.chuteOk c = true ↔ 1 ≤ c ∧ c ≤ 20 ∧ (s.chute c).cfg ≠ none := by
  simp [State.chuteOk, within, State.configured, Option.isSome_iff_ne_none, and_assoc]

theorem State.verdictBad_serial (choice : Nat) : s.verdictBad 0 choice = some 1 := rfl

theorem State.verdictBad_choice {n choice : Nat} (hn : n ≠ 0) (h1 : choice ≠ 128) (h2 : choice ≠ 129)
    (h : choice = 0 ∨ 20 < choice ∨ (s.chute choice).cfg = none) : s.verdictBad n choice = some 2 := by
  have hno : s.chuteOk choice = false := eq_false_of_ne_true fun hok => by
    obtain ⟨hc1, hc2, hc⟩ := (s.chuteOk_iff choice).mp hok
    rcases h with h | h | h
    · omega
    · omega
    · exact hc h
  simp [State.verdictBad, firstBad, hn, hno, h1, h2]

theorem State.verdictBad_none {n choice : Nat} (hn : n ≠ 0)
    (h : choice = 128 ∨ choice = 129 ∨ (1 ≤ choice ∧ choice ≤ 20 ∧ (s.chute choice).cfg ≠ none)) :
    s.verdictBad n choice = none := by
  rw [← State.chuteOk_iff] at h
  refine firstBad_eq_none.mpr ?_
  simp only [List.forall_mem_cons, List.not_mem_nil, false_implies, implies_true, and_true, bne_iff_ne, Bool.or_eq_true,
    beq_iff_eq]
  exact ⟨hn, by tauto⟩

theorem State.verdict_notReady (n choice : Nat) (hp : s.track.p = 0) : s.verdict n choice = (.notReady, s) := if_pos hp

theorem State.verdict_bad {n choice k : Nat} (hp : s.track.p ≠ 0) (h : s.verdictBad n choice = some k) :
    s.verdict n choice = (.bad k, s) := by
  simp only [State.verdict, if_neg hp, h]

theorem State.verdict_late {n choice : Nat} (hp : s.track.p ≠ 0) (hb : s.verdictBad n choice = none)
    (hr : s.referredWith n = none) : s.verdict n choice = s.lateVerdict n := by
  simp only [State.verdict, if_neg hp, hb, hr]

theorem State.verdict_applied {n choice q : Nat} (hp : s.track.p ≠ 0) (hb : s.verdictBad n choice = none)
    (hr : s.referredWith n = some q) : s.verdict n choice = s.applyVerdict q choice := by
  simp only [State.verdict, if_neg hp, hb, hr]

/-! ### A referral answered, before its commit (R129, R181) -/

/-- The pocket with its verdict and target, its report no longer live, its answer counted. -/
def State.verdictGiven (s : State) (q c : Nat) : State :=
  ((s.modPocket q fun p => { p with decision := resource .verdict p.decision, target := some c }).clearLive q
    (s.pocket q).serial).bumpLotOf q countAnswered

theorem State.answerReferral_verdict (s : State) (q c : Nat) :
    s.answerReferral q c .verdict countAnswered = (s.verdictGiven q c).commit q c := rfl

theorem State.verdictGiven_only (s : State) (q c : Nat) : Only [.track, .report, .slot0, .slot1] s (s.verdictGiven q c) :=
  (((s.modPocket_only _ _).mono (by decide)).trans ((State.modReport_only _ _).mono (by decide))).trans
    ((State.bumpLotOf_only _ _ _).mono (by decide))

theorem State.verdictGiven_track (s : State) (q c : Nat) : (s.verdictGiven q c).track =
    (s.modPocket q fun p => { p with decision := resource .verdict p.decision, target := some c }).track :=
  State.bumpLotOf_only _ _ _ .track (by decide)

theorem State.verdictGiven_pocket {q : Nat} (hq : q < s.track.pockets.length) {x : Decision}
    (hx : (s.pocket q).decision = some x) (c : Nat) : (s.verdictGiven q c).pocket q =
      { s.pocket q with decision := some { x with source := .verdict }, target := some c } := by
  rw [State.pocket_congr (s.verdictGiven_track q c), State.modPocket_same hq, hx]
  rfl

theorem State.verdictGiven_pocket_ne {q r : Nat} (h : r ≠ q) (c : Nat) : (s.verdictGiven q c).pocket r = s.pocket r := by
  rw [State.pocket_congr (s.verdictGiven_track q c), State.modPocket_ne h]

theorem State.verdictGiven_length (s : State) (q c : Nat) :
    (s.verdictGiven q c).track.pockets.length = s.track.pockets.length := by
  rw [State.verdictGiven_track, State.modPocket_length]

theorem State.verdictGiven_slot {q : Nat} {i : SlotId} (hq : q < s.track.pockets.length) (hi : (s.pocket q).slot = some i)
    (c : Nat) : ((s.verdictGiven q c).slot i).cnt = { (s.slot i).cnt with
      refAnswered := satInc 4294967295 (s.slot i).cnt.refAnswered } := by
  unfold State.verdictGiven State.bumpLotOf
  have hslot : (((s.modPocket q fun p => { p with decision := resource .verdict p.decision, target := some c }).clearLive q
      (s.pocket q).serial).pocket q).slot = some i := by
    show ((s.modPocket q _).pocket q).slot = some i
    rw [State.modPocket_same hq]; exact hi
  rw [hslot]
  dsimp only
  rw [State.modSlot_same]
  cases i <;> rfl

theorem State.verdictGiven_canTake (s : State) (q c a pos : Nat) :
    (s.verdictGiven q c).canTake a pos = s.canTake a pos := by
  have hchute := State.chute_congr (s.verdictGiven_only q c .chutes (by decide)) a
  have hcheck : (s.verdictGiven q c).track.checkPos = s.track.checkPos := by rw [State.verdictGiven_track]; rfl
  unfold State.canTake
  rw [hchute, hcheck]

theorem State.verdictGiven_position (s : State) (q c : Nat) :
    (s.verdictGiven q c).track.positionOf q = s.track.positionOf q := by
  rw [State.verdictGiven_track]; rfl

theorem State.verdictGiven_keeps (s : State) (q c : Nat) (k : EventKind) : KeepsEvent k s (s.verdictGiven q c) := by
  have hpocket : KeepsEvent k s (s.modPocket q fun p => { p with decision := resource .verdict p.decision, target := some c }) :=
    .of_report (s.modPocket_report _ _) k
  exact (hpocket.trans (State.clearLive_keeps k _ q _)).trans (.of_report (State.bumpLotOf_only _ _ _ .report (by decide)) k)

/-- The owner's answer to a verdict on a REFERRED pocket (R129). -/
theorem State.verdict_referred {n choice q c : Nat} {i : SlotId} {d : LotDef} (hp : s.track.p ≠ 0)
    (hb : s.verdictBad n choice = none) (hr : s.referredWith n = some q) (hi : (s.pocket q).slot = some i)
    (hd : (s.slot i).definition = some d)
    (hc : c = if choice = 128 then d.rejectChute else if choice = 129 then d.retestChute else choice) :
    s.verdict n choice = (.ok (((s.verdictGiven q c).commit q c).verdictFields q), (s.verdictGiven q c).commit q c) := by
  have hdef : s.definitionOf (s.pocket q) = some d := by
    unfold State.definitionOf
    rw [hi]
    exact hd
  have htarget : ((s.definitionOf (s.pocket q)).map fun d => verdictTarget d choice).getD choice = c := by
    rw [hdef, hc]; rfl
  rw [State.verdict_applied hp hb hr, State.applyVerdict, htarget]
  rfl

theorem State.verdictFields_decided {t : State} {q a : Nat} (hs : (t.pocket q).state = .decided)
    (ha : (t.pocket q).chute = some a) : t.verdictFields q = le 1 q ++ [0x04#8, 0x01#8] ++ le 1 a := by
  rw [State.verdictFields, hs, ha, List.append_assoc, List.append_assoc]
  rfl

theorem State.verdictFields_held {t : State} {q : Nat} (hs : (t.pocket q).state = .held) :
    t.verdictFields q = le 1 q ++ [0x05#8, 0x00#8, 0x00#8] := by
  rw [State.verdictFields, hs, List.append_assoc]
  rfl

/-- A request taken at once: its answer placed in what the owner leaves. -/
theorem State.ask_places {t : State} {a : Answer} {o : State → Answer × State} (h : s.taking) (tag : Byte) (r : Request)
    (ho : o s = (a, t)) : (s.ask tag r o).transmit = (t.place (replyFrame r.typeCode tag a.status a.fields)).transmit := by
  rw [State.ask_taken h.1, ho]

/-! ### TOO_LATE (R130) -/

theorem State.tooLateFields_held (q : Nat) : s.tooLateFields (some q) =
    0x01#8 :: le 1 q ++ (0x01#8 :: le 1 (pocketStateByte (s.pocket q).state)) ++
      optBytes 1 (fun c => le 1 c.code) (s.pocket q).source := by
  rw [State.tooLateFields, ← PocketState.code_eq]
  rfl

/-- A serial held in another state is late; where its pocket was defaulted at DECIDE it is counted (R130). -/
theorem State.lateVerdict_held {n q : Nat} (h : s.occupiedWith n = some q) : s.lateVerdict n =
    (⟨.tooLate, s.tooLateFields (some q)⟩,
      if (s.pocket q).source = some .referDefault then s.bumpLotOf q countLate else s) := by
  rw [State.lateVerdict, h]

theorem State.lateVerdict_none {n : Nat} (h : s.occupiedWith n = none) :
    s.lateVerdict n = (⟨.tooLate, s.tooLateFields none⟩, s) := by
  rw [State.lateVerdict, h]

/-! ### VERDICT taken -/

/-- The hypotheses of a verdict on a REFERRED pocket. -/
structure Referral (s : State) (n choice q : Nat) (i : SlotId) (x : Decision) (c : Nat) : Prop where
  inside : q < s.track.pockets.length
  slot : (s.pocket q).slot = some i
  decision : (s.pocket q).decision = some x
  owner : s.verdict n choice = (.ok (((s.verdictGiven q c).commit q c).verdictFields q), (s.verdictGiven q c).commit q c)

section
variable {n choice q c : Nat} {i : SlotId} {x : Decision}

/-- The part after the verdict and its reply. -/
def State.verdictTaken (s : State) (tag : Byte) (q c : Nat) : State :=
  (((s.verdictGiven q c).commit q c).place
    (replyFrame 0x1A#8 tag .ok (((s.verdictGiven q c).commit q c).verdictFields q))).transmit

theorem Referral.exec (h : Referral s n choice q i x c) (hs : s.taking) (tag : Byte) :
    exec (.verdict tag n choice) s = .next (s.verdictTaken tag q c) :=
  congrArg _ (State.ask_places hs tag (.verdict n choice) h.owner)

theorem State.verdictTaken_only (s : State) (tag : Byte) (q c : Nat) :
    Only [.report, .choices] ((s.verdictGiven q c).commit q c) (s.verdictTaken tag q c) :=
  State.place_transmit_only _ _

theorem State.verdictTaken_pocket (s : State) (tag : Byte) (q c r : Nat) :
    (s.verdictTaken tag q c).pocket r = ((s.verdictGiven q c).commit q c).pocket r :=
  State.pocket_congr (s.verdictTaken_only tag q c .track (by decide)) r

theorem State.verdictTaken_slot (s : State) (tag : Byte) (q c : Nat) (j : SlotId) :
    (s.verdictTaken tag q c).slot j = ((s.verdictGiven q c).commit q c).slot j :=
  State.slot_congr (s.verdictTaken_only tag q c .slot0 (by decide)) (s.verdictTaken_only tag q c .slot1 (by decide)) j

theorem State.verdictTaken_pocket_ne (s : State) (tag : Byte) {q r : Nat} (c : Nat) (h : r ≠ q) :
    (s.verdictTaken tag q c).pocket r = s.pocket r := by
  rw [State.verdictTaken_pocket, State.commit_pocket_ne _ h, State.verdictGiven_pocket_ne h]

theorem State.verdictTaken_line (s : State) (tag : Byte) (q c : Nat) :
    (s.verdictTaken tag q c).line = ((s.verdictGiven q c).commit q c).line :=
  s.verdictTaken_only tag q c .line (by decide)

theorem State.verdictGiven_line (s : State) (q c : Nat) : (s.verdictGiven q c).line = s.line :=
  s.verdictGiven_only q c .line (by decide)

theorem Referral.inside_given (h : Referral s n choice q i x c) : q < (s.verdictGiven q c).track.pockets.length := by
  rw [State.verdictGiven_length]; exact h.inside

/-- What the commit finds the chutes able to take is what the verdict found. -/
theorem State.verdictGiven_takes (s : State) (q c a : Nat) :
    (s.verdictGiven q c).canTake a ((s.verdictGiven q c).track.positionOf q) = s.canTake a (s.track.positionOf q) := by
  rw [State.verdictGiven_position, State.verdictGiven_canTake]

/-- The target takes the pocket. -/
theorem Referral.takes (h : Referral s n choice q i x c) (tag : Byte) (hc : s.canTake c (s.track.positionOf q) = true) :
    (s.verdictTaken tag q c).answered ⟨0x9A#8, tag, 0x00#8 :: le 1 q ++ [0x04#8, 0x01#8] ++ le 1 c⟩ ∧
      (s.verdictTaken tag q c).pocket q = { s.pocket q with
        state := .decided, decision := some { x with source := .verdict }, target := some c, chute := some c,
        overflow := false } ∧
      ((s.verdictTaken tag q c).slot i).cnt = { (s.slot i).cnt with
        refAnswered := satInc 4294967295 (s.slot i).cnt.refAnswered } ∧
      (s.verdictTaken tag q c).line = s.line := by
  obtain ⟨hpocket, -, -, hline, h0, h1, -⟩ := State.commit_takes h.inside_given
    ((s.verdictGiven_takes q c c).trans hc)
  rw [State.verdictGiven_pocket h.inside h.decision] at hpocket
  have hans := State.place_answered ((s.verdictGiven q c).commit q c)
    (replyFrame 0x1A#8 tag .ok (((s.verdictGiven q c).commit q c).verdictFields q))
  rw [State.verdictFields_decided (by rw [hpocket]) (by rw [hpocket])] at hans
  refine ⟨?_, ?_, ?_, ?_⟩
  · rw [State.verdictTaken, State.verdictFields_decided (by rw [hpocket]) (by rw [hpocket])]
    exact hans
  · rw [State.verdictTaken_pocket, hpocket]
  · rw [State.verdictTaken_slot, State.slot_congr h0 h1, State.verdictGiven_slot h.inside h.slot]
  · rw [State.verdictTaken_line, hline, State.verdictGiven_line]

/-- The target's alternate takes it. -/
theorem Referral.overflows (h : Referral s n choice q i x c) (tag : Byte) {g : ChuteCfg} {a : Nat}
    (hno : s.canTake c (s.track.positionOf q) = false) (hg : (s.chute c).cfg = some g) (ha : g.alternate = some a)
    (hc : s.canTake a (s.track.positionOf q) = true) :
    (s.verdictTaken tag q c).answered ⟨0x9A#8, tag, 0x00#8 :: le 1 q ++ [0x04#8, 0x01#8] ++ le 1 a⟩ ∧
      (s.verdictTaken tag q c).pocket q = { s.pocket q with
        state := .decided, decision := some { x with source := .verdict }, target := some c, chute := some a,
        overflow := true } ∧
      ((s.verdictTaken tag q c).slot i).cnt = { (s.slot i).cnt with
        refAnswered := satInc 4294967295 (s.slot i).cnt.refAnswered
        overflow := satInc 4294967295 (s.slot i).cnt.overflow } ∧
      (s.verdictTaken tag q c).line = s.line := by
  have hgiven := State.verdictGiven_pocket h.inside h.decision c
  have hchute := State.chute_congr (s.verdictGiven_only q c .chutes (by decide)) c
  obtain ⟨hpocket, -, -, hline, hcnt, -, -⟩ := State.commit_overflows h.inside_given
    ((s.verdictGiven_takes q c c).trans hno) (by rw [hchute]; exact hg) ha ((s.verdictGiven_takes q c a).trans hc)
    (by rw [hgiven]; exact h.slot)
  rw [hgiven] at hpocket
  refine ⟨?_, ?_, ?_, ?_⟩
  · rw [State.verdictTaken, State.verdictFields_decided (by rw [hpocket]) (by rw [hpocket])]
    exact State.place_answered _ _
  · rw [State.verdictTaken_pocket, hpocket]
  · rw [State.verdictTaken_slot, hcnt, State.verdictGiven_slot h.inside h.slot]
  · rw [State.verdictTaken_line, hline, State.verdictGiven_line]

/-- Neither can: the pocket is HELD, with CHUTE_BLOCKED and its effect on the line. -/
theorem Referral.holds (h : Referral s n choice q i x c) (tag : Byte) (hb : s.blocked c (s.track.positionOf q)) :
    (s.verdictTaken tag q c).answered ⟨0x9A#8, tag, 0x00#8 :: le 1 q ++ [0x05#8, 0x00#8, 0x00#8]⟩ ∧
      (s.verdictTaken tag q c).pocket q = { s.pocket q with
        state := .held, decision := some { x with source := .verdict }, target := some c, chute := none,
        overflow := false } ∧
      ((s.verdictTaken tag q c).slot i).cnt = { (s.slot i).cnt with
        refAnswered := satInc 4294967295 (s.slot i).cnt.refAnswered } ∧
      (s.verdictTaken tag q c).chutes = s.chutes ∧ s.notes (s.verdictTaken tag q c) .chuteBlocked (.chute c) ∧
      (s.line.state.worked = false → (s.verdictTaken tag q c).line = s.line) ∧
      (s.line.state.worked = true → (s.verdictTaken tag q c).line.ready = false ∧ (s.verdictTaken tag q c).line.loadOk = false ∧
        (s.verdictTaken tag q c).line.state = (if s.line.phase = .waiting then .stopped else .stopping)) := by
  have hchute := State.chute_congr (s.verdictGiven_only q c .chutes (by decide)) c
  have hblocked : (s.verdictGiven q c).blocked c ((s.verdictGiven q c).track.positionOf q) := by
    obtain ⟨hno, halt⟩ := hb
    refine ⟨(s.verdictGiven_takes q c c).trans hno, fun a ha => (s.verdictGiven_takes q c a).trans (halt a ?_)⟩
    rw [State.alternateOf, hchute] at ha
    exact ha
  obtain ⟨hpocket, hchutes, hreport, h0, h1, hrest, hworked⟩ := State.commit_holds h.inside_given hblocked
  rw [State.verdictGiven_pocket h.inside h.decision] at hpocket
  rw [State.verdictGiven_line] at hrest hworked
  have honly := s.verdictTaken_only tag q c
  refine ⟨?_, ?_, ?_, ?_, ?_, fun hw => ?_, fun hw => ?_⟩
  · rw [State.verdictTaken, State.verdictFields_held (by rw [hpocket])]
    exact State.place_answered _ _
  · rw [State.verdictTaken_pocket, hpocket]
  · rw [State.verdictTaken_slot, State.slot_congr h0 h1, State.verdictGiven_slot h.inside h.slot]
  · exact (honly .chutes (by decide)).trans (hchutes.trans (s.verdictGiven_only q c .chutes (by decide)))
  · have hk : (s.verdictGiven q c).track.k = s.track.k := by rw [State.verdictGiven_track]; rfl
    refine State.notes_of_raise (s.verdictGiven_keeps q c .chuteBlocked) hk ?_
    exact (KeepsEvent.of_report hreport _).trans ⟨rfl, rfl, rfl, rfl⟩
  · rw [State.verdictTaken_line]; exact hrest hw
  · rw [State.verdictTaken_line]; exact hworked hw

end

/-- Settles O49: the refusals, the referral with each step of its commit, and the two forms of TOO_LATE. -/
theorem verdictTaken : Obligations.VerdictTaken := by
  unfold Obligations.VerdictTaken
  intro tag n choice s hs
  refine ⟨fun hp => ?_, fun hp => ⟨fun hn => ?_, fun hn h1 h2 hc => ?_, fun hn hc => ?_⟩⟩
  · exact (exec_verdict tag n choice s).trans (State.ask_read hs tag _ (State.verdict_notReady n choice hp))
  · subst hn
    exact (exec_verdict tag 0 choice s).trans
      (State.ask_read hs tag _ (State.verdict_bad hp (State.verdictBad_serial choice)))
  · exact (exec_verdict tag n choice s).trans
      (State.ask_read hs tag _ (State.verdict_bad hp (State.verdictBad_choice hn h1 h2 hc)))
  have hb := State.verdictBad_none hn hc
  have referral {q : Nat} {i : SlotId} {d : LotDef} {x : Decision} {c : Nat} (hu : SerialInv s)
      (hq : q < s.track.pockets.length) (hst : (s.pocket q).state = .referred) (hser : (s.pocket q).serial = some n)
      (hi : (s.pocket q).slot = some i) (hd : (s.slot i).definition = some d) (hx : (s.pocket q).decision = some x)
      (hc : c = if choice = 128 then d.rejectChute else if choice = 129 then d.retestChute else choice) :
      Referral s n choice q i x c :=
    ⟨hq, hi, hx, State.verdict_referred hp hb (State.referredWith_eq_some hu hq hst hser) hi hd hc⟩
  refine ⟨fun hnone => ?_, fun q i d x c hu hq hst hser hi hd hx hc htake => ?_,
    fun q i d x c hu _ hq hst hser hi hd hx hc hno => ?_, fun q f hu hq hne hnr hser hf => ?_⟩
  · obtain ⟨hocc, href⟩ := State.finds_none hnone
    exact (exec_verdict tag n choice s).trans
      (State.ask_read hs tag _ ((State.verdict_late hp hb href).trans (State.lateVerdict_none hocc)))
  · have h := referral hu hq hst hser hi hd hx hc
    obtain ⟨hans, hpocket, hcnt, hline⟩ := h.takes tag htake
    exact ⟨_, h.exec hs tag, hans, hpocket, fun r hr => s.verdictTaken_pocket_ne tag c hr, hcnt, hline⟩
  · have h := referral hu hq hst hser hi hd hx hc
    exact ⟨_, h.exec hs tag, fun r hr => s.verdictTaken_pocket_ne tag c hr,
      fun g a hg ha htake => h.overflows tag hno hg ha htake,
      fun halt => h.holds tag ((s.blocked_iff c _).mpr ⟨hno, halt⟩)⟩
  · have hlate := (State.verdict_late hp hb (State.referredWith_eq_none hu hq hne hnr hser)).trans
      (State.lateVerdict_held (State.occupiedWith_eq_some hu hq hne hser))
    have hframe : replyFrame 0x1A#8 tag .tooLate (s.tooLateFields (some q)) = f := by
      rw [hf, State.tooLateFields_held]
      unfold Pocket.source
      cases (s.pocket q).decision with
      | none => rfl
      | some x =>
        simp only [Option.map_some, optBytes, Source.code_eq]
        rfl
    rw [← hframe]
    refine ⟨fun x i hx hsrc hi => ?_, fun hsrc => ?_⟩
    · have hcount : s.bumpLotOf q countLate = s.modSlot i fun sl => { sl with cnt := countLate sl.cnt } := by
        simp only [State.bumpLotOf, hi]
      rw [if_pos (by rw [Pocket.source, hx, Option.map_some, hsrc]), hcount] at hlate
      exact congrArg _ (State.ask_answer hs tag (.verdict n choice) hlate (s.modSlot_report i _))
    · rw [if_neg fun hdef => ?_] at hlate
      · exact (exec_verdict tag n choice s).trans (State.ask_read hs tag _ hlate)
      · obtain ⟨x, hx, hxs⟩ := Option.map_eq_some_iff.mp hdef
        exact hsrc x hx hxs

end

end Sys2Proof.Machine
end


-- ==== Sys2Proof/Proofs/RequestTaken.lean ====
section
/-! PROOFS. REQUEST_TAKEN: what the Link Port makes of a frame's type and length, and the frame taken (R170, R171, R172). -/

namespace Sys2Proof.Machine

/-! ### Type and length (R171, R177) -/

section
variable {f : Frame}

/-- But for TRACK.SET the length that a type calls for is the one R177's table gives. -/
theorem requestLength_eq_lookup {t : Nat} (h : t ≠ 0x02) (payload : List Byte) :
    requestLength t payload = lengthTable.lookup t := by
  unfold requestLength
  split
  case h_2 => exact absurd rfl h
  case h_28 => exact (List.lookup_eq_none_iff.mpr (by simp_all [lengthTable])).symm
  all_goals rfl

theorem requestLength_of_mem {e : Nat × Nat} (h : e ∈ lengthTable) (payload : List Byte) :
    requestLength e.1 payload = some e.2 := by
  have hkeys : ∀ x ∈ lengthTable, x.1 ≠ 0x02 ∧ lengthTable.lookup x.1 = some x.2 := by decide
  obtain ⟨hne, hlookup⟩ := hkeys e h
  rw [requestLength_eq_lookup hne, hlookup]

theorem requestLength_of_notMem {t : Nat} (h2 : t ≠ 0x02) (h : ∀ e ∈ lengthTable, t ≠ e.1) (payload : List Byte) :
    requestLength t payload = none := by
  rw [requestLength_eq_lookup h2]
  exact List.lookup_eq_none_iff.mpr fun e he => by simpa using h e he

/-- A request's type is below those of reports and replies. -/
theorem lengthTable_lt {e : Nat × Nat} (h : e ∈ lengthTable) : e.1 < 0x71 := by
  have hall : ∀ x ∈ lengthTable, x.1 < 0x71 := by decide
  exact hall e h

theorem Frame.parse_discarded (h : (0x71 ≤ f.typ.toNat ∧ f.typ.toNat ≤ 0x74) ∨ 0x80 ≤ f.typ.toNat) :
    f.parse = .discarded := if_pos (by simpa using h)

theorem Frame.parse_unknownType (hlow : f.typ.toNat < 0x80) (hreport : ¬(0x71 ≤ f.typ.toNat ∧ f.typ.toNat ≤ 0x74))
    (h : requestLength f.typ.toNat f.payload = none) : f.parse = .unknownType := by
  have hno : ¬(((0x71 ≤ f.typ.toNat && f.typ.toNat ≤ 0x74) || 0x80 ≤ f.typ.toNat) = true) := by
    simp only [Bool.or_eq_true, Bool.and_eq_true, decide_eq_true_eq]; omega
  simp only [Frame.parse, if_neg hno, h]

theorem Frame.parse_badLength {n : Nat} (hlow : f.typ.toNat < 0x71) (h : requestLength f.typ.toNat f.payload = some n)
    (hne : f.payload.length ≠ n) : f.parse = .badLength := by
  have hno : ¬(((0x71 ≤ f.typ.toNat && f.typ.toNat ≤ 0x74) || 0x80 ≤ f.typ.toNat) = true) := by
    simp only [Bool.or_eq_true, Bool.and_eq_true, decide_eq_true_eq]; omega
  simp only [Frame.parse, if_neg hno, h, beq_iff_eq, if_neg hne]

theorem Frame.parse_ident (ht : f.typ = 0x01#8) (hp : f.payload = []) : f.parse = .request .ident := by
  simp only [Frame.parse, ht, hp]
  rfl

theorem Frame.parse_lineStop (ht : f.typ = 0x11#8) (hp : f.payload = []) : f.parse = .request .lineStop := by
  simp only [Frame.parse, ht, hp]
  rfl

end

/-! ### The two requests taken as samples (R39, R173) -/

section
variable {s : State}

theorem State.ident_eq (s : State) : s.ident =
    (.ok ([0x4E#8, 0x4B#8, 0x2D#8, 0x36#8, 0x31#8, 0x32#8, 0x01#8] ++ le 4 s.link.speed ++
      [if s.cal.valid then 0x01#8 else 0x00#8] ++ le 2 s.cal.working.number ++ le 1 s.track.p), s) := by
  unfold State.ident State.identFields
  cases s.cal.valid <;> rfl

theorem State.lineStop_faulted (h : s.line.state = .faulted) : s.lineStop = (⟨.busy, s.line.fields⟩, s) := by
  unfold State.lineStop
  rw [h]
  exact congrArg (fun fields => ((⟨.busy, fields⟩ : Answer), s)) (List.append_nil s.line.fields)

end

/-! ### The frame taken (R170, R171) -/

section
variable {s : State} {f : Frame} {rest : List Frame}

theorem State.linkFree_iff (s : State) : s.linkFree = true ↔ s.link.inProgress = none ∧ s.report.reply = none := by
  simp [State.linkFree]

/-- Nothing is taken while a request is in progress, the reply slot is full or no frame waits. -/
theorem exec_requestTaken_nothing (hinv : TransmitInv s) (calen : Bool)
    (h : s.link.inProgress ≠ none ∨ s.report.reply ≠ none ∨ s.link.buffer = []) :
    exec (.requestTaken calen) s = .next s := by
  show Host.Outcome.next _ = _
  by_cases hfree : s.linkFree = true
  · have hempty : s.link.buffer = [] := by
      obtain ⟨hprogress, hreply⟩ := s.linkFree_iff.mp hfree
      tauto
    have htake : s.takeFrameOf calen = s := by simp only [State.takeFrameOf, hempty]
    rw [if_pos hfree, htake, State.transmit_quiet hinv, State.transmitTop_quiet hinv, ite_self]
  · rw [if_neg hfree, State.transmit_quiet hinv]

/-- A frame that carries no EVENT.MASK is taken and judged. -/
theorem exec_requestTaken_judged (hprogress : s.link.inProgress = none) (hreply : s.report.reply = none)
    (hbuf : s.link.buffer = f :: rest) (hmask : ∀ m, f.parse ≠ .request (.eventMask m)) (calen : Bool) :
    exec (.requestTaken calen) s = .next ((s.offering calen rest).judgeFrame f).transmit := by
  have hno : ¬ s.maskWaits = true := by
    unfold State.maskWaits
    rw [hbuf]
    dsimp only
    split
    · next m hm => exact absurd hm (hmask m)
    · exact Bool.false_ne_true
  have htake : s.takeFrameOf calen = (s.offering calen rest).judgeFrame f := by
    simp only [State.takeFrameOf, hbuf]
    rfl
  show Host.Outcome.next _ = _
  rw [if_pos (s.linkFree_iff.mpr ⟨hprogress, hreply⟩), if_neg hno, htake]

end

/-- A Link Port that may take the oldest frame f, the part as it is then judged in. -/
structure Offers (s : State) (calen : Bool) (f : Frame) (u : State) : Prop where
  quiet : TransmitInv u
  noReply : u.report.reply = none
  judges : (∀ m, f.parse ≠ .request (.eventMask m)) →
    exec (.requestTaken calen) s = .next (u.judgeFrame f).transmit

section
variable {s u : State} {calen : Bool} {f : Frame}

theorem Offers.discards (h : Offers s calen f u) (hp : f.parse = .discarded) :
    exec (.requestTaken calen) s = .next u.countUnknown := by
  have hq : TransmitInv u.countUnknown := h.quiet
  rw [h.judges fun m hm => (nomatch hp.symm.trans hm), State.judgeFrame, hp]
  exact congrArg _ (State.transmit_quiet hq)

theorem Offers.unknown (h : Offers s calen f u) (hp : f.parse = .unknownType) : exec (.requestTaken calen) s =
    .next (State.replied ⟨f.typ + 0x80#8, f.tag, [0x06#8]⟩ u.countUnknown) := by
  have hq : TransmitInv u.countUnknown := h.quiet
  rw [h.judges fun m hm => (nomatch hp.symm.trans hm), State.judgeFrame, hp]
  exact congrArg _ (State.place_transmit hq h.noReply _)

theorem Offers.badLength (h : Offers s calen f u) (hp : f.parse = .badLength) : exec (.requestTaken calen) s =
    .next (u.replied ⟨f.typ + 0x80#8, f.tag, [0x07#8]⟩) := by
  rw [h.judges fun m hm => (nomatch hp.symm.trans hm), State.judgeFrame, hp]
  exact congrArg _ (State.place_transmit h.quiet h.noReply _)

/-- A request of a frame whose owner leaves the part as it is: its answer, as the reply. -/
theorem Offers.answers (h : Offers s calen f u) {r : Request} {a : Answer} (hp : f.parse = .request r)
    (hmask : ∀ m, r ≠ .eventMask m) (hhandle : u.handle f.tag r = u.answer r.typeCode f.tag a) :
    exec (.requestTaken calen) s = .next (u.replied (replyFrame r.typeCode f.tag a.status a.fields)) := by
  rw [h.judges fun m hm => hmask m (Parsed.request.inj (hp.symm.trans hm)), State.judgeFrame, hp]
  exact congrArg _ ((congrArg State.transmit hhandle).trans (State.place_transmit h.quiet h.noReply _))

end

/-- Settles O55: a frame taken is judged by type, then length, then by its owner. -/
theorem requestTakenJudged : Obligations.RequestTakenJudged := by
  unfold Obligations.RequestTakenJudged
  intro calen s hinv
  refine ⟨exec_requestTaken_nothing hinv calen, fun f rest u hprogress hreply hbuf hu => ?_⟩
  have offers : Offers s calen f u := by
    subst hu
    exact ⟨hinv, hreply, fun hmask => exec_requestTaken_judged hprogress hreply hbuf hmask calen⟩
  refine ⟨fun h => offers.discards (Frame.parse_discarded h),
    fun hlow hreport h2 h => offers.unknown (Frame.parse_unknownType hlow hreport (requestLength_of_notMem h2 h _)),
    fun e he ht hlen => ?_, fun ht hlen => ?_, fun ht hempty => ?_, fun ht hempty hfault => ?_⟩
  · exact offers.badLength (Frame.parse_badLength (ht ▸ lengthTable_lt he) (ht ▸ requestLength_of_mem he _) hlen)
  · have hlen' : f.payload.length ≠ 4 + (f.payload.getD 1 0#8).toNat := by omega
    have hbad := offers.badLength (Frame.parse_badLength (by rw [ht]; decide) (by rw [ht]; rfl) hlen')
    rw [ht] at hbad
    exact hbad
  · have hans := offers.answers (Frame.parse_ident ht hempty) (fun m => (nomatch ·))
      (congrArg (State.reply f.tag .ident) u.ident_eq)
    subst hu
    exact hans
  · have hown := State.lineStop_faulted (s := u) (by rw [hu]; exact hfault)
    have hans := offers.answers (Frame.parse_lineStop ht hempty) (fun m => (nomatch ·))
      (congrArg (State.reply f.tag .lineStop) hown)
    subst hu
    exact hans

end Sys2Proof.Machine
end


-- ==== Sys2Proof/Proofs/ChannelInvariant.lean ====
section
/-! PROOFS. The invariant of the two channels through the end of a job, a fault, a grant, a frame and a change of service state
(R50, R55 to R60, R62 to R70, R74, R81). -/

namespace Sys2Proof.Machine

/-! ### One channel's invariant, in its parts -/

/-- The part of a channel's invariant that its service state rules: the watchdog and the runs (R55, R56, R58, R59). -/
def Channel.ServiceInv (c : Channel) : Prop :=
  c.watchdog.isSome = (c.service == .inService) ∧ (c.service ≠ .stalled → c.goodRun = 0) ∧ c.goodRun < 4 ∧ c.srcRun < 3

/-- A channel that no job holds, with its grant record (R50, R74). -/
def Channel.Jobless (c : Channel) (g : Option Grant) : Prop :=
  c.job = none ∧ c.jobState = .idle ∧ c.relay = .open ∧ c.relayTimer = none ∧ g = none

section
variable {c c' : Channel} {g : Option Grant}

theorem ChannelInv.service (h : ChannelInv c g) : c.ServiceInv := by
  obtain ⟨hdog, -, -, -, -, -, -, hruns⟩ := h
  exact ⟨hdog, hruns⟩

theorem ChannelInv.jobless (h : ChannelInv c g) (hj : c.job = none) : c.Jobless g := by
  obtain ⟨-, hst, -, hrelay, -, hgrant, htimer, -⟩ := h
  rw [hj] at hst hrelay hgrant
  have hidle : c.jobState = .idle := by simpa using hst.symm
  rw [hidle] at htimer
  exact ⟨hj, hidle, hrelay, Option.isNone_iff_eq_none.mp (Option.isSome_eq_false_iff.mp htimer), hgrant⟩

theorem ChannelInv.job_of_state (h : ChannelInv c g) (hst : c.jobState ≠ .idle) : ∃ j, c.job = some j := by
  obtain ⟨-, hjob, -⟩ := h
  rw [bne_iff_ne.mpr hst] at hjob
  exact Option.isSome_iff_exists.mp hjob

theorem Channel.Jobless.inv (h : c.Jobless g) (hs : c.ServiceInv) : ChannelInv c g := by
  obtain ⟨hj, hst, hrelay, htimer, rfl⟩ := h
  obtain ⟨hdog, hruns⟩ := hs
  refine ⟨hdog, ?_, ?_, ?_, ?_, ?_, ?_, hruns⟩
  · rw [hj, hst]; rfl
  · rw [hj]; exact fun hx => nomatch hx
  · rw [hj]; exact hrelay
  · rw [hj]; exact fun _ hx => nomatch hx
  · rw [hj]; rfl
  · rw [htimer, hst]; rfl

/-- A change that leaves the job and what belongs to it. -/
theorem ChannelInv.sameJob (h : ChannelInv c g)
    (hsame : c'.job = c.job ∧ c'.jobState = c.jobState ∧ c'.relay = c.relay ∧ c'.range = c.range ∧ c'.relayTimer = c.relayTimer)
    (hin : c'.job.isSome = true → c'.service = .inService) (hs : c'.ServiceInv) : ChannelInv c' g := by
  obtain ⟨hj, hst, hrelay, hrange, htimer⟩ := hsame
  obtain ⟨-, k1, -, k2, k3, k4, k5, -⟩ := h
  obtain ⟨hdog, hruns⟩ := hs
  refine ⟨hdog, ?_, hin, ?_, ?_, ?_, ?_, hruns⟩
  · rw [hj, hst]; exact k1
  · rw [hj, hrelay]; exact k2
  · rw [hj, hrange]; exact k3
  · rw [hj]; exact k4
  · rw [htimer, hst]; exact k5

/-- A change of the settings, the receiver, the counters and the watchdog's time alone. -/
theorem ChannelInv.settings (h : ChannelInv c g)
    (hsame : c'.job = c.job ∧ c'.jobState = c.jobState ∧ c'.relay = c.relay ∧ c'.range = c.range ∧ c'.relayTimer = c.relayTimer)
    (hdog : c'.watchdog.isSome = c.watchdog.isSome)
    (hserv : c'.service = c.service ∧ c'.goodRun = c.goodRun ∧ c'.srcRun = c.srcRun) : ChannelInv c' g := by
  obtain ⟨hservice, hgood, hsrc⟩ := hserv
  refine h.sameJob hsame (fun hj => ?_) ?_
  · obtain ⟨-, -, hin, -⟩ := h
    rw [hsame.1] at hj
    rw [hservice]
    exact hin hj
  · have hs := h.service
    unfold Channel.ServiceInv at hs ⊢
    rw [hdog, hservice, hgood, hsrc]
    exact hs

/-- A job that runs on: its record and its state move, its kind and its range stand (R64 to R66). -/
theorem ChannelInv.runsOn (h : ChannelInv c g) {j j' : Job} (hj : c.job = some j) (hj' : c'.job = some j')
    (hkind : j'.kind = j.kind ∧ j'.range = j.range) (hst : c'.jobState ≠ .idle)
    (htimer : c'.relayTimer.isSome = (c'.jobState == .connecting))
    (hsame : c'.service = c.service ∧ c'.watchdog = c.watchdog ∧ c'.relay = c.relay ∧ c'.range = c.range ∧
      c'.goodRun = c.goodRun ∧ c'.srcRun = c.srcRun) : ChannelInv c' g := by
  obtain ⟨hservice, hdog, hrelay, hrange, hgood, hsrc⟩ := hsame
  obtain ⟨hk, hr⟩ := hkind
  obtain ⟨k1, -, k2, k3, k4, k5, -, k6⟩ := h
  rw [hj] at k2 k3 k4 k5
  refine ⟨?_, ?_, fun _ => ?_, ?_, ?_, ?_, htimer, ?_⟩
  · rw [hdog, hservice]; exact k1
  · rw [hj', bne_iff_ne.mpr hst]; rfl
  · rw [hservice]; exact k2 rfl
  · rw [hj', hrelay, k3]; simp only [Option.map_some, Option.getD_some, Job.relay, hk]
  · rw [hj', hrange]
    rintro _ ⟨⟩
    rw [hr]; exact k4 j rfl
  · rw [hj', k5]; simp only [Option.map_some, Job.grant, hk, hr]
  · rw [hservice, hgood, hsrc]; exact k6

/-- A job in a phase has its relays settled (R64). -/
theorem ChannelInv.relayTimer_off (h : ChannelInv c g) (hst : c.jobState ≠ .connecting) : c.relayTimer = none := by
  obtain ⟨-, -, -, -, -, -, htimer, -⟩ := h
  rw [beq_eq_false_iff_ne.mpr hst] at htimer
  exact Option.isNone_iff_eq_none.mp (Option.isSome_eq_false_iff.mp htimer)

/-! ### What the operations of a channel make of it -/

theorem Channel.endJob_jobless (c : Channel) : c.endJob.Jobless none := ⟨rfl, rfl, rfl, rfl, rfl⟩

theorem ChannelInv.connect (h : ChannelInv c g) (hfree : c.free = true) (r : SchedReq) :
    ChannelInv (c.connect r.job.1 r.job.2.1) (some r.job.2.2) := by
  obtain ⟨k1, -, -, -, -, -, -, k2⟩ := h
  have hin : c.service = .inService := by simp only [Channel.free, Bool.and_eq_true, beq_iff_eq] at hfree; exact hfree.1
  cases r <;> exact ⟨k1, rfl, fun _ => hin, rfl, fun j hj => by cases hj; rfl, rfl, rfl, k2⟩

theorem ChannelInv.settleFrame (h : ChannelInv c g) {j : Job} (hj : c.job = some j)
    (hst : c.jobState ≠ .idle ∧ c.jobState ≠ .connecting) {sample : JobState} (hs : sample = .samplePos ∨ sample = .sampleNeg) :
    ChannelInv (c.settleFrame sample j) g := by
  have htimer := h.relayTimer_off hst.2
  unfold Channel.settleFrame
  dsimp only
  split
  · refine h.runsOn hj (j' := { j with phaseCount := 0, errRun := 0 }) rfl ⟨rfl, rfl⟩ ?_ ?_ ⟨rfl, rfl, rfl, rfl, rfl, rfl⟩
    · rcases hs with rfl | rfl <;> exact fun hx => nomatch hx
    · rcases hs with rfl | rfl <;> exact Option.isSome_eq_false_iff.mpr (Option.isNone_iff_eq_none.mpr htimer)
  · exact h.runsOn hj (j' := { j with phaseCount := j.phaseCount + 1 }) rfl ⟨rfl, rfl⟩ hst.1
      (by simp [htimer, hst.2]) ⟨rfl, rfl, rfl, rfl, rfl, rfl⟩

/-- A running job enters a settle phase, or with S = 0 its sample phase, with the relay settle timer stopped (R64, R65). -/
theorem ChannelInv.enterSettle (h : ChannelInv c g) {j j' : Job} (hj : c.job = some j) (hk : j'.kind = j.kind ∧ j'.range = j.range)
    (pol : Polarity) {settle sample : JobState} (hs : settle = .settlePos ∨ settle = .settleNeg)
    (hp : sample = .samplePos ∨ sample = .sampleNeg) :
    ChannelInv (({ c with job := some j', relayTimer := none } : Channel).enterSettle pol settle sample) g := by
  unfold Channel.enterSettle
  dsimp only
  split
  · refine h.runsOn hj (j' := { j' with phaseCount := 0, errRun := 0 }) rfl hk ?_ ?_ ⟨rfl, rfl, rfl, rfl, rfl, rfl⟩
    · rcases hp with rfl | rfl <;> exact fun hx => nomatch hx
    · rcases hp with rfl | rfl <;> rfl
  · refine h.runsOn hj (j' := { j' with phaseCount := 0 }) rfl hk ?_ ?_ ⟨rfl, rfl, rfl, rfl, rfl, rfl⟩
    · rcases hs with rfl | rfl <;> exact fun hx => nomatch hx
    · rcases hs with rfl | rfl <;> rfl

/-- The record of a running job changed in its counts alone, its state standing. -/
theorem ChannelInv.withJob (h : ChannelInv c g) {j j' : Job} (hj : c.job = some j)
    (hk : j'.kind = j.kind ∧ j'.range = j.range) : ChannelInv { c with job := some j' } g := by
  have hst : c.jobState ≠ .idle := by
    obtain ⟨-, hjob, -⟩ := h
    rw [hj] at hjob
    exact bne_iff_ne.mp hjob.symm
  obtain ⟨-, -, -, -, -, -, htimer, -⟩ := id h
  exact h.runsOn hj rfl hk hst htimer ⟨rfl, rfl, rfl, rfl, rfl, rfl⟩

theorem ChannelInv.frameTaken (h : ChannelInv c g) (n : ChanCounters) :
    ChannelInv { c.restartWatchdog with cnt := n } g :=
  h.settings ⟨rfl, rfl, rfl, rfl, rfl⟩ Option.isSome_map ⟨rfl, rfl, rfl⟩

theorem ChannelInv.counted (h : ChannelInv c g) (n : ChanCounters) : ChannelInv { c with cnt := n } g :=
  h.settings ⟨rfl, rfl, rfl, rfl, rfl⟩ rfl ⟨rfl, rfl, rfl⟩

theorem ChannelInv.install (h : ChannelInv c g) (r : ChanSetReq) : ChannelInv (c.install r) g :=
  h.settings ⟨rfl, rfl, rfl, rfl, rfl⟩ Option.isSome_map ⟨rfl, rfl, rfl⟩

theorem ChannelInv.tick (h : ChannelInv c g) : ChannelInv c.tick g := by
  obtain ⟨k1, k2, k3, k4, k5, k6, k7, k8⟩ := h
  exact ⟨(tickTimer_isSome _).trans k1, k2, k3, k4, k5, k6, (tickTimer_isSome _).trans k7, k8⟩

theorem Channel.ServiceInv.enterStalled (h : c.ServiceInv) : c.enterStalled.ServiceInv := by
  obtain ⟨-, -, -, hsrc⟩ := h
  exact ⟨rfl, fun hx => absurd rfl hx, Nat.zero_lt_succ _, hsrc⟩

/-- No job runs on a channel that is not IN_SERVICE (R55, R58). -/
theorem ChannelInv.job_none (h : ChannelInv c g) (hs : c.service ≠ .inService) : c.job = none := by
  obtain ⟨-, -, hin, -⟩ := h
  by_contra hj
  exact hs (hin (Option.isSome_iff_ne_none.mpr hj))

/-- A channel that was STALLED or SUSPECT enters IN_SERVICE (R56, R60). -/
theorem ChannelInv.enterService (h : ChannelInv c g) (hs : c.service ≠ .inService) : ChannelInv c.enterService g := by
  obtain ⟨-, -, -, hsrc⟩ := h.service
  exact Channel.Jobless.inv (c := c.enterService) (h.jobless (h.job_none hs)) ⟨rfl, fun _ => rfl, Nat.zero_lt_succ _, hsrc⟩

end

/-! ### Both channels -/

section
variable {s t : State} {ch : Chan}

theorem channelsInv_iff (s : State) : ChannelsInv s ↔ ∀ ch, ChannelInv (s.chan ch) (s.sched.grantOf ch) :=
  ⟨fun h ch => by cases ch; exacts [h.1, h.2], fun h => ⟨h .A, h .B⟩⟩

/-- The blocks that hold no part of the channels' invariant. -/
def awayBlocks : List Block :=
  [.pins, .track, .line, .lineCnt, .shared, .slot0, .slot1, .chutes, .cal, .temp, .link, .linkCnt, .report, .choices, .pending]

theorem ChannelsInv.away (h : ChannelsInv s) (ho : Only awayBlocks s t) : ChannelsInv t := by
  unfold ChannelsInv
  rw [show t.chanA = s.chanA from ho .chanA (by decide), show t.chanB = s.chanB from ho .chanB (by decide),
    show t.sched = s.sched from ho .sched (by decide)]
  exact h

theorem ChannelsInv.of_only {l : List Block} (h : ChannelsInv s) (ho : Only l s t) (hl : ∀ b ∈ l, b ∈ awayBlocks) :
    ChannelsInv t := h.away (ho.mono hl)

/-- A change of one channel. -/
theorem ChannelsInv.modChan (h : ChannelsInv s) (ch : Chan) {f : Channel → Channel}
    (hf : ∀ g, ChannelInv (s.chan ch) g → ChannelInv (f (s.chan ch)) g) : ChannelsInv (s.modChan ch f) := by
  rw [channelsInv_iff] at h ⊢
  intro x
  rw [State.modChan_sched, State.modChan_chan]
  split
  · next hx => subst hx; exact hf _ (h x)
  · exact h x

/-- A change of the request set alone. -/
theorem ChannelsInv.modRequests (h : ChannelsInv s) (f : List SchedReq → List SchedReq) :
    ChannelsInv (s.modSched fun q => { q with requests := f q.requests }) := h

/-- The invariant, but for the job of channel ch. -/
def State.OkBut (s : State) (ch : Chan) : Prop :=
  ChannelInv (s.chan (chanOther ch)) (s.sched.grantOf (chanOther ch)) ∧ (s.chan ch).ServiceInv

theorem ChannelsInv.okBut (h : ChannelsInv s) (ch : Chan) : s.OkBut ch := by
  rw [channelsInv_iff] at h
  exact ⟨h _, (h ch).service⟩

/-- A channel without a job, the other agreeing. -/
theorem State.OkBut.jobless (h : s.OkBut ch) (hj : (s.chan ch).Jobless (s.sched.grantOf ch)) : ChannelsInv s := by
  rw [channelsInv_iff]
  intro x
  rcases Chan.eq_or_other ch x with rfl | rfl
  · exact hj.inv h.2
  · exact h.1

theorem State.OkBut.endJob (h : s.OkBut ch) : ChannelsInv (s.endJob ch) ∧ ((s.endJob ch).chan ch).job = none := by
  have hself : (s.endJob ch).chan ch = (s.chan ch).endJob := by cases ch <;> rfl
  have hother : (s.endJob ch).chan (chanOther ch) = s.chan (chanOther ch) := by cases ch <;> rfl
  have hgrant : (s.endJob ch).sched.grantOf (chanOther ch) = s.sched.grantOf (chanOther ch) := by cases ch <;> rfl
  have hnone : (s.endJob ch).sched.grantOf ch = none := by cases ch <;> rfl
  refine ⟨State.OkBut.jobless (ch := ch) ⟨?_, ?_⟩ ?_, by rw [hself]; rfl⟩
  · rw [hother, hgrant]; exact h.1
  · rw [hself]; exact h.2
  · rw [hself, hnone]; exact Channel.endJob_jobless _

theorem ChannelsInv.recordAttempt (h : ChannelsInv s) (q : Nat) (a : Attempt) : ChannelsInv (s.recordAttempt q a) :=
  (h.of_only (s.modPocket_only q _) (by decide)).modChan _ fun _ k => k.counted _

theorem State.OkBut.abortJob (h : s.OkBut ch) (hj : (s.chan ch).job ≠ none) (o : JobOutcome) : ChannelsInv (s.abortJob ch o) := by
  unfold State.abortJob
  split
  · next hn => exact absurd hn hj
  · dsimp only
    split
    · exact h.endJob.1.recordAttempt _ _
    · exact h.endJob.1.modChan ch fun _ k => k.counted _

theorem ChannelsInv.abortJob (h : ChannelsInv s) (ch : Chan) (o : JobOutcome) : ChannelsInv (s.abortJob ch o) := by
  by_cases hj : (s.chan ch).job = none
  · rw [State.abortJob, hj]; exact h
  · exact (h.okBut ch).abortJob hj o

theorem ChannelsInv.cutDwell (h : ChannelsInv s) : ChannelsInv s.cutDwell :=
  ((h.modRequests fun _ => []).abortJob .A .cut).abortJob .B .cut

theorem ChannelsInv.raiseFault (h : ChannelsInv s) (k : FaultKind) (d : Detail) : ChannelsInv (s.raiseFault k d) := by
  have hentry : ChannelsInv (s.faultEntry k d) :=
    (h.of_only (t := s.modLine (faultedLine s.pins.motion k d)) (s.modLine_only _) (by decide)).cutDwell.of_only
      (s.faultEntry_only k d) (by decide)
  unfold State.raiseFault
  split
  · exact hentry
  · exact hentry
  · exact hentry
  · exact hentry
  · exact (h.of_only (s.raise_only _ _) (by decide)).of_only (State.modLine_only _ _) (by decide)
  · exact h.of_only (s.raise_only _ _) (by decide)

/-! ### SUSPECT (R58, R59, R61, R85) -/

/-- Entry to SUSPECT of a channel without a job, whatever its source-fault run. -/
theorem ChannelsInv.enterSuspect (hother : ChannelInv (s.chan (chanOther ch)) (s.sched.grantOf (chanOther ch)))
    (hj : (s.chan ch).Jobless (s.sched.grantOf ch)) : ChannelsInv (s.enterSuspect ch) := by
  have hsuspect : ChannelsInv (s.modChan ch fun c => { c with service := .suspect, srcRun := 0, goodRun := 0, watchdog := none }) := by
    refine State.OkBut.jobless (ch := ch) ⟨?_, ?_⟩ ?_
    · rw [State.modChan_other, State.modChan_sched]; exact hother
    · rw [State.modChan_same]; exact ⟨rfl, fun _ => rfl, Nat.zero_lt_succ _, Nat.zero_lt_succ _⟩
    · rw [State.modChan_same, State.modChan_sched]; exact hj
  have hset := (hsuspect.of_only (State.raise_only _ .channelSuspect (.channel ch)) (by decide)).modRequests
    (List.filter fun r => match r with | .station _ _ _ _ _ _ => true | .check c _ => c != ch)
  unfold State.enterSuspect State.judgeNoChannel
  split
  · exact ChannelsInv.raiseFault hset _ _
  · exact hset

theorem State.judgeSource_sound (s : State) (ch : Chan) : s.judgeSource ch false = s.modChan ch fun c => { c with srcRun := 0 } := rfl

theorem State.judgeSource_faulted (s : State) (ch : Chan) : s.judgeSource ch true =
    if 3 ≤ (s.chan ch).srcRun + 1 then (s.modChan ch fun c => { c with srcRun := (s.chan ch).srcRun + 1 }).enterSuspect ch
    else s.modChan ch fun c => { c with srcRun := (s.chan ch).srcRun + 1 } := rfl

/-- The source-fault run of a channel whose job has ended (R59). -/
theorem ChannelsInv.judgeSource (h : ChannelsInv s) (hj : (s.chan ch).job = none) (faulted : Bool) :
    ChannelsInv (s.judgeSource ch faulted) := by
  rw [channelsInv_iff] at h
  have hjobless := (h ch).jobless hj
  obtain ⟨hdog, hgood, hfour, -⟩ := (h ch).service
  have hrun (n : Nat) (hn : n < 3) : ChannelsInv (s.modChan ch fun c => { c with srcRun := n }) :=
    ((channelsInv_iff s).mpr h).modChan ch fun g k => Channel.Jobless.inv (c := { s.chan ch with srcRun := n })
      (k.jobless hj) ⟨hdog, hgood, hfour, hn⟩
  cases faulted with
  | false => exact hrun 0 (by decide)
  | true =>
    rw [State.judgeSource_faulted]
    split
    · refine ChannelsInv.enterSuspect ?_ ?_
      · rw [State.modChan_other, State.modChan_sched]; exact h _
      · rw [State.modChan_same, State.modChan_sched]; exact hjobless
    · exact hrun _ (by omega)

/-! ### The scheduler (R78 to R81) -/

theorem ChannelsInv.dropLate (h : ChannelsInv s) : ChannelsInv s.dropLate := by
  have all (l : List SchedReq) : ∀ u, ChannelsInv u → ChannelsInv (l.foldl State.noTime u) := by
    induction l with
    | nil => exact fun _ hu => hu
    | cons r l ih => exact fun u hu => ih _ (hu.modChan _ fun _ k => k.counted _)
  exact (all _ s h).modRequests fun _ => s.sched.requests.filter s.keeps

theorem ChannelsInv.grant (h : ChannelsInv s) (hfree : (s.chan ch).free = true) (r : SchedReq) : ChannelsInv (s.grant ch r) := by
  obtain ⟨hA, hB⟩ := h
  cases ch with
  | A => exact ⟨hA.connect hfree r, hB⟩
  | B => exact ⟨hA, hB.connect hfree r⟩

theorem ChannelsInv.grantPass (h : ChannelsInv s) (ch : Chan) : ChannelsInv (s.grantPass ch) := by
  unfold State.grantPass
  split
  · next hfree =>
    split
    · exact h.grant hfree _
    · exact h
  · exact h

theorem ChannelsInv.review (h : ChannelsInv s) : ChannelsInv s.review := by
  unfold State.review
  split
  · exact h
  · exact (h.dropLate.grantPass .A).grantPass .B

theorem ChannelsInv.offer (h : ChannelsInv s) : ChannelsInv s.offer := h.review.of_only (State.judgeDwell_only _) (by decide)

/-! ### The end of a job (R67, R70, R102) -/

theorem ChannelsInv.completeStation (h : ChannelsInv s) (hj : (s.chan ch).job = none) (i q g : Nat) (r : StationResult) :
    ChannelsInv (s.completeStation ch i q g r) := by
  have hrec := (h.judgeSource hj (r == .sourceFault)).recordAttempt q (resultAttempt i ch g r)
  unfold State.completeStation State.handResult
  split
  · exact hrec.of_only (State.judgeAccepted_only _ _ _ _ _) (by decide)
  · exact hrec

theorem ChannelsInv.completeCheck (h : ChannelsInv s) (hj : (s.chan ch).job = none) (r : Nat) (result : Option Int) :
    ChannelsInv (s.completeCheck ch r result) := by
  have hcount : ChannelsInv (s.modChan ch fun c => { c with cnt := countCheck c.cnt }) := h.modChan ch fun _ k => k.counted _
  have hnone : ((s.modChan ch fun c => { c with cnt := countCheck c.cnt }).chan ch).job = none := by
    rw [State.modChan_same]; exact hj
  have hsound := hcount.judgeSource hnone false
  unfold State.completeCheck
  dsimp only
  split
  · exact hcount.judgeSource hnone true
  · split
    · exact (hsound.of_only (State.modCal_only _ _) (by decide)).modChan ch fun _ k => k.counted _
    · rw [channelsInv_iff] at hsound
      refine ChannelsInv.enterSuspect (hsound _) ((hsound ch).jobless ?_)
      rw [State.judgeSource_sound, State.modChan_same]
      exact hnone

theorem ChannelsInv.completeJob (h : ChannelsInv s) (ch : Chan) (j : Job) : ChannelsInv (s.completeJob ch j) := by
  obtain ⟨hend, hnone⟩ := (h.okBut ch).endJob
  unfold State.completeJob
  dsimp only
  split
  · exact (hend.completeStation hnone _ _ _ _).offer
  · exact (hend.completeCheck hnone _ _).offer

/-! ### Frames of the converter link (R53 to R69) -/

theorem ChannelsInv.sampleError (h : ChannelsInv s) {j : Job} (hj : (s.chan ch).job = some j) :
    ChannelsInv (s.sampleError ch j) := by
  unfold State.sampleError
  split
  · exact (h.abortJob ch .linkError).offer
  · exact h.modChan ch fun _ k => k.withJob hj ⟨rfl, rfl⟩

theorem Job.addSample_range (positive : Bool) (f : Sample) (j : Job) : (j.addSample positive f).range = j.range := by
  cases positive <;> rfl

theorem ChannelsInv.goodSample (h : ChannelsInv s) {positive : Bool} {j : Job} (hj : (s.chan ch).job = some j)
    (hst : (s.chan ch).jobState ≠ .connecting) (f : Sample) : ChannelsInv (s.goodSample ch positive f j) := by
  have hk := And.intro (j.addSample_kind positive f) (j.addSample_range positive f)
  unfold State.goodSample
  dsimp only
  split
  · split
    · split
      · refine h.modChan ch fun g k => ?_
        have hturn := k.enterSettle hj hk .negative (.inr rfl : JobState.settleNeg = .settlePos ∨ _) (.inr rfl : JobState.sampleNeg = .samplePos ∨ _)
        rwa [show ({ s.chan ch with job := some (j.addSample positive f), relayTimer := none } : Channel) =
          { s.chan ch with job := some (j.addSample positive f) } by rw [← k.relayTimer_off hst]] at hturn
      · exact h.completeJob ch _
    · exact h.modChan ch fun _ k => k.withJob hj hk
  · exact (h.abortJob ch .contactLost).offer

theorem ChannelsInv.useFrame (h : ChannelsInv s) (ch : Chan) (err : Option FrameError) (f : Taken) :
    ChannelsInv (s.useFrame ch err f) := by
  unfold State.useFrame
  split
  · exact h
  · next j hj =>
    split
    · exact h
    · exact h
    · next hst => exact h.modChan ch fun _ k => k.settleFrame hj (by rw [hst]; decide) (.inl rfl)
    · next hst => exact h.modChan ch fun _ k => k.settleFrame hj (by rw [hst]; decide) (.inr rfl)
    · next hst =>
      split
      · exact h.goodSample hj (by rw [hst]; decide) _
      · exact h.sampleError hj
    · next hst =>
      split
      · exact h.goodSample hj (by rw [hst]; decide) _
      · exact h.sampleError hj

/-- A frame at a STALLED channel: the run stays below 4, at which the channel returns (R56). -/
theorem ChannelsInv.countGood (h : ChannelsInv s) (hs : (s.chan ch).service = .stalled) (err : Option FrameError) :
    ChannelsInv (s.countGood ch err) := by
  have hrun (n : Nat) (hn : n < 4) : ChannelsInv (s.modChan ch fun c => { c with goodRun := n }) := by
    refine h.modChan ch fun g k => ?_
    obtain ⟨hdog, -, -, hsrc⟩ := k.service
    exact Channel.Jobless.inv (c := { s.chan ch with goodRun := n }) (k.jobless (k.job_none (by rw [hs]; decide)))
      ⟨hdog, fun hx => absurd hs hx, hn, hsrc⟩
  unfold State.countGood
  split
  · exact hrun 0 (by decide)
  · split
    · exact (h.modChan ch fun _ k => k.enterService (by rw [hs]; decide)).offer
    · have := hrun ((s.chan ch).goodRun + 1) (by omega)
      cases ch <;> exact this

theorem ChannelsInv.takeFrame (h : ChannelsInv s) (ch : Chan) (f : Taken) : ChannelsInv (s.takeFrame ch f) := by
  have htaken (n : ChanCounters → ChanCounters) : ChannelsInv (s.modChan ch fun c => { c.restartWatchdog with cnt := n c.cnt }) :=
    h.modChan ch fun _ k => k.frameTaken _
  unfold State.takeFrame
  dsimp only
  split
  · exact (htaken _).useFrame ch _ f
  · next hs => exact (htaken _).countGood (by rw [State.modChan_same]; exact hs) _
  · exact htaken _

theorem ChannelsInv.linkSymbol (h : ChannelsInv s) (ch : Chan) (y : LinkSymbol) : ChannelsInv (s.linkSymbol ch y) := by
  have hreceived (r : Receiver) : ChannelsInv (s.modChan ch fun c => { c with receiver := r }) :=
    h.modChan ch fun _ k => k.settings ⟨rfl, rfl, rfl, rfl, rfl⟩ rfl ⟨rfl, rfl, rfl⟩
  unfold State.linkSymbol
  dsimp only
  split
  · exact (hreceived _).takeFrame ch _
  · exact hreceived _

/-! ### The watchdog and the relay settle timer (R55, R57, R64) -/

/-- A channel that becomes STALLED ends its job STALL (R55, R57). -/
theorem ChannelsInv.stall (h : ChannelsInv s) (ht : Only awayBlocks (s.modChan ch Channel.enterStalled) t) :
    ChannelsInv (t.stallJob ch) := by
  have hchan (x : Chan) : t.chan x = (s.modChan ch Channel.enterStalled).chan x :=
    State.chan_congr (ht .chanA (by decide)) (ht .chanB (by decide)) x
  have hsched : t.sched = s.sched := (ht .sched (by decide)).trans (s.modChan_sched ch _)
  have hbut : t.OkBut ch := by
    obtain ⟨hother, hserv⟩ := h.okBut ch
    refine ⟨?_, ?_⟩
    · rw [hchan, hsched, State.modChan_other]; exact hother
    · rw [hchan, State.modChan_same]; exact hserv.enterStalled
  unfold State.stallJob
  split
  · next hj => exact (hbut.abortJob (Option.isSome_iff_ne_none.mp hj) .stall).offer
  · next hj =>
    have hnone : (t.chan ch).job = none := by simpa using hj
    refine hbut.jobless ?_
    rw [hchan, State.modChan_same] at hnone ⊢
    rw [hsched]
    exact ((channelsInv_iff s).mp h ch).jobless hnone

theorem ChannelsInv.relaySettled (h : ChannelsInv s) (hst : (s.chan ch).jobState = .connecting) :
    ChannelsInv (s.modChan ch fun c => ({ c with relayTimer := none }).enterSettle .positive .settlePos .samplePos) := by
  refine h.modChan ch fun g k => ?_
  obtain ⟨j, hj⟩ := k.job_of_state (by rw [hst]; decide)
  have hsettle := k.enterSettle hj ⟨rfl, rfl⟩ .positive (.inl rfl : JobState.settlePos = .settlePos ∨ _)
    (.inl rfl : JobState.samplePos = .samplePos ∨ _)
  rwa [← hj] at hsettle

end

end Sys2Proof.Machine
end


-- ==== Sys2Proof/Proofs/ChannelInvariantKept.lean ====
section
/-! PROOFS. Which operations leave the channels and the scheduler alone, and the channels' invariant through every request, every
command and every step. -/

namespace Sys2Proof.Machine

section
variable {s t : State} {ch : Chan}

/-! ### Operations away from the channels and the scheduler -/

theorem State.readyAtRest_away (s : State) : Only awayBlocks s s.readyAtRest := by
  unfold State.readyAtRest
  split
  · exact ((s.modLine_only _).mono (by decide)).trans ((State.judgeLoadOk_only _).mono (by decide))
  · exact .refl _ s

theorem State.enterRun_away (s : State) (target : LineState) : Only awayBlocks s (s.enterRun target) := by
  have hentered : Only awayBlocks s (s.entered target) := by
    unfold State.entered
    split
    · exact ((s.modLine_only _).mono (by decide)).trans ((State.retried_only _).mono (by decide))
    · exact (s.modLine_only _).mono (by decide)
  rw [State.enterRun_eq]
  split
  · exact hentered
  · exact hentered.trans (State.readyAtRest_away _)

theorem State.fireChute_away (s : State) (c : Nat) : Only awayBlocks s (s.fireChute c) := by
  unfold State.fireChute
  split
  · exact .refl _ s
  · dsimp only
    split
    · exact ((s.account_only _ _).mono (by decide)).trans ((State.modPocket_only _ _ _).mono (by decide))
    · exact .refl _ s

theorem State.purgePocket_away (s : State) (q : Nat) : Only awayBlocks s (s.purgePocket q) := by
  unfold State.purgePocket
  split
  · exact (s.finish_only _ _).mono (by decide)
  · exact .refl _ s

/-- The requests whose owners write a channel or the scheduler. -/
def touchesChannels : Request → Bool
  | .chanSet _ => true
  | .chanReset _ => true
  | .chanRestore _ => true
  | .lineReset => true
  | .countRead _ _ _ => true
  | _ => false

theorem State.lineRequests_away (s : State) : (∀ b m t, Only awayBlocks s (s.lineStart b m t).2) ∧
    Only awayBlocks s s.lineStop.2 ∧ Only awayBlocks s s.lineDrain.2 ∧ Only awayBlocks s s.lineResume.2 ∧
    Only awayBlocks s s.lineClear.2 := by
  have hline (f : LineCtl → LineCtl) : Only awayBlocks s (s.modLine f) := (s.modLine_only f).mono (by decide)
  have hstop : Only awayBlocks s s.enterStopping := s.enterStopping_only.mono (by decide)
  refine ⟨fun b m t => ?_, ?_, ?_, ?_, ?_⟩
  · unfold State.lineStart
    split
    · split
      · split
        · exact .refl _ s
        · exact (hline _).trans (State.enterRun_away _ _)
      · exact .refl _ s
    · exact .refl _ s
  · unfold State.lineStop
    split
    · exact hstop
    · exact hstop
    all_goals exact .refl _ s
  · unfold State.lineDrain
    split
    · exact hline fun l => { l with state := .drain, loadOk := false }
    · split
      · exact .refl _ s
      · exact s.enterRun_away _
    all_goals exact .refl _ s
  · unfold State.lineResume
    split
    · split
      · exact .refl _ s
      · exact s.enterRun_away _
    · exact .refl _ s
  · unfold State.lineClear
    split
    · exact hline _
    · split
      · exact (hline _).trans ((State.modTrack_only _ _).mono (by decide))
      · exact .refl _ s
    all_goals exact .refl _ s

theorem State.chuteSet_away (s : State) (c a : Nat) (f : ChuteFields) : Only awayBlocks s (s.chuteSet c a f).2 := by
  have haccount (g : Chute → Chute) : Only awayBlocks s (s.account c g) := (s.account_only c g).mono (by decide)
  unfold State.chuteSet
  split
  · exact .refl _ s
  · split
    · split
      · exact .refl _ s
      · split
        · unfold State.removeChute
          split
          · split
            · exact .refl _ s
            · exact haccount _
          · exact .refl _ s
        · unfold State.configureChute
          split
          · exact .refl _ s
          · exact haccount _
    · exact .refl _ s

theorem State.verdict_away (s : State) (n c : Nat) : Only awayBlocks s (s.verdict n c).2 := by
  unfold State.verdict
  split
  · exact .refl _ s
  · split
    · exact .refl _ s
    · split
      · exact (s.answerReferral_only _ _ _ _).mono (by decide)
      · unfold State.lateVerdict
        dsimp only
        split
        · split
          · exact (s.bumpLotOf_only _ _).mono (by decide)
          · exact .refl _ s
        · exact .refl _ s

/-- An owner's rule, but for those of CHAN.SET, CHAN.RESET, CHAN.RESTORE, LINE.RESET and COUNT.READ. -/
theorem State.owner_away (s : State) {r : Request} (hr : touchesChannels r = false) : Only awayBlocks s (s.owner r).2 := by
  obtain ⟨hident, htrack, hchan, hlot, hpocket, hcal⟩ := s.reads_state
  obtain ⟨hload, harm, hfree⟩ := s.lot_only
  obtain ⟨hstart, hstop, hdrain, hresume, hclear⟩ := s.lineRequests_away
  have same {u : State} (h : u = s) : Only awayBlocks s u := by rw [h]; exact .refl _ s
  cases r with
  | chanSet _ => contradiction
  | chanReset _ => contradiction
  | chanRestore _ => contradiction
  | lineReset => contradiction
  | countRead _ _ _ => contradiction
  | ident => exact same hident
  | trackRead => exact same htrack
  | chanRead c => exact same (hchan c)
  | lotRead i => exact same (hlot i)
  | pocketRead q => exact same (hpocket q)
  | calRead => exact same hcal
  | calWrite _ => exact .refl _ s
  | trackSet r =>
    rcases s.trackSet_cases r with h | ⟨-, -, h⟩ <;> rw [State.owner, h]
    · exact .refl _ s
    · exact ((s.modTrack_only _).mono (by decide)).trans ((State.modChutes_only _ _).mono (by decide))
  | pocketPurge n =>
    rcases s.pocketPurge_cases n with h | ⟨-, h⟩ <;> rw [State.owner, h]
    · exact .refl _ s
    · exact .foldl State.purgePocket_away _ s
  | chuteSet c a f => exact s.chuteSet_away c a f
  | lotLoad r => exact (hload r).mono (by decide)
  | lotArm i => exact (harm i).mono (by decide)
  | lotFree i => exact (hfree i).mono (by decide)
  | lineStart b m t => exact hstart b m t
  | lineStop => exact hstop
  | lineDrain => exact hdrain
  | lineResume => exact hresume
  | lineClear => exact hclear
  | verdict n c => exact s.verdict_away n c
  | boxExchanged c =>
    rw [State.owner, State.boxExchanged]
    split
    · exact (s.account_only _ _).mono (by decide)
    · exact .refl _ s
  | tempSet v => exact (s.modTemp_only _).mono (by decide)
  | eventMask m =>
    rw [State.owner, State.eventMask]
    split
    · exact (s.modReport_only _).mono (by decide)
    · exact .refl _ s

/-! ### The requests at the channels (R51, R57, R60, R72, R188) -/

theorem ChannelsInv.chanSet (h : ChannelsInv s) (r : ChanSetReq) : ChannelsInv (s.chanSet r).2 := by
  unfold State.chanSet
  split
  · split
    · exact ((h.modChan _ fun _ k => k.install r).of_only (State.modShared_only _ _) (by decide)).of_only
        (State.modCal_only _ _) (by decide)
    · exact h
    · exact h
  · exact h

theorem ChannelsInv.chanReset (h : ChannelsInv s) (n : Nat) : ChannelsInv (s.chanReset n).2 := by
  unfold State.chanReset
  split
  · exact h
  · next ch _ =>
    split
    · exact h
    · exact h.stall (.refl _ _)
    · next hs =>
      refine h.modChan ch fun g k => ?_
      exact Channel.Jobless.inv (c := (s.chan ch).enterStalled) (k.jobless (k.job_none (by rw [hs]; decide))) k.service.enterStalled

theorem ChannelsInv.chanRestore (h : ChannelsInv s) (n : Nat) : ChannelsInv (s.chanRestore n).2 := by
  unfold State.chanRestore
  split
  · exact h
  · next ch _ =>
    split
    · exact h
    · exact h
    · next hs =>
      have hrestored : ChannelsInv (s.modChan ch fun c => { c.enterService with srcRun := 0 }) := by
        refine h.modChan ch fun g k => ?_
        exact Channel.Jobless.inv (c := { (s.chan ch).enterService with srcRun := 0 })
          (k.jobless (k.job_none (by rw [hs]; decide))) ⟨rfl, fun _ => rfl, Nat.zero_lt_succ _, Nat.zero_lt_succ _⟩
      exact (hrestored.of_only (State.modCal_only _ _) (by decide)).offer

theorem ChannelInv.lineReset {c : Channel} {g : Option Grant} (h : ChannelInv c g) : ChannelInv c.lineReset none := by
  obtain ⟨hdog, hgood, hfour, -⟩ := h.service
  exact Channel.Jobless.inv (c := c.lineReset) c.endJob_jobless ⟨hdog, hgood, hfour, Nat.zero_lt_succ _⟩

theorem ChannelsInv.countRead (h : ChannelsInv s) (g i c : Nat) : ChannelsInv (s.countRead g i c).2 := by
  have clear (x : Group) : ChannelsInv (s.clearGroup x) := by
    cases x with
    | line => exact h.of_only (s.modLineCnt_only _) (by decide)
    | lot i => exact h.of_only (s.modSlot_only i _) (by decide)
    | chute c => exact h.of_only (s.modChute_only c _) (by decide)
    | chan ch => exact h.modChan ch fun _ k => k.counted _
    | link => exact h.of_only (s.modLinkCnt_only _) (by decide)
  unfold State.countRead
  split
  · exact h
  · split
    · exact clear _
    · exact h
  · exact h

theorem ChannelsInv.owner (h : ChannelsInv s) (r : Request) : ChannelsInv (s.owner r).2 := by
  by_cases hr : touchesChannels r = false
  · exact h.away (s.owner_away hr)
  · cases r <;> simp only [touchesChannels, not_true_eq_false] at hr
    case chanSet r => exact h.chanSet r
    case chanReset n => exact h.chanReset n
    case chanRestore n => exact h.chanRestore n
    case lineReset =>
      obtain ⟨hA, hB⟩ := h
      exact ⟨hA.lineReset, hB.lineReset⟩
    case countRead g i c => exact h.countRead g i c

theorem HandsOver.channelsInv (h : HandsOver s t) (hs : ChannelsInv s) : ChannelsInv t := by
  obtain ⟨calen, buffer, v, hv, honly⟩ := h
  have hoffer : ChannelsInv (s.offering calen buffer) := hs
  have hv' : ChannelsInv v := by
    rcases hv with rfl | ⟨r, rfl⟩
    · exact hoffer
    · exact hoffer.owner r
  exact hv'.of_only honly (by decide)

/-! ### The index start and the settle (R31, R33) -/

theorem ChannelsInv.cutShort (h : ChannelsInv s) (ls cs : Bool) : ChannelsInv (s.cutShort ls cs) :=
  (h.of_only (s.indexLineWork_only ls cs) (by decide)).cutDwell.of_only (State.cutJets_only _) (by decide)

theorem ChannelsInv.indexStart (h : ChannelsInv s) (ls cs : Bool) : ChannelsInv (s.indexStart ls cs) := by
  obtain ⟨w, hw, -, heq⟩ := State.trackIndex_passes (s.cutShort_rests ls cs) ls cs
  have htrack : ChannelsInv ((s.cutShort ls cs).trackIndex ls cs) := by
    rw [heq]
    exact ((h.cutShort ls cs).of_only hw.only (by decide)).of_only (State.modTrack_only _ _) (by decide)
  rw [State.indexStart_eq]
  exact (htrack.of_only (State.modCal_only _ _) (by decide)).of_only (State.judgeDrained_only _) (by decide)

theorem ChannelsInv.workedSettle (h : ChannelsInv s) : ChannelsInv s.workedSettle := by
  have hready : ChannelsInv (s.modLine openDwell).retryHeld.judgeLoadOk :=
    ((h.of_only (s.modLine_only openDwell) (by decide)).of_only (State.retryHeld_only _) (by decide)).of_only
      (State.judgeLoadOk_only _) (by decide)
  have hfired : ChannelsInv (s.modLine openDwell).retryHeld.judgeLoadOk.formRequests.fireJets :=
    ChannelsInv.away (s := (s.modLine openDwell).retryHeld.judgeLoadOk.formRequests) hready (.foldl State.fireChute_away _ _)
  exact hfired.offer

theorem ChannelsInv.settle (h : ChannelsInv s) : ChannelsInv s.settle := by
  have hfall : ChannelsInv ((s.modPins fun p => { p with motion := false }).modLine fun l => { l with motionTimer := none }) :=
    (h.of_only (s.modPins_only _) (by decide)).of_only (State.modLine_only _ _) (by decide)
  have hrest (f : LineCtl → LineCtl) : ChannelsInv
      (((s.modPins fun p => { p with motion := false }).modLine fun l => { l with motionTimer := none }).modLine f).retryHeld :=
    (hfall.of_only (State.modLine_only _ _) (by decide)).of_only (State.retryHeld_only _) (by decide)
  unfold State.settle
  dsimp only
  split
  · exact hfall.workedSettle
  · exact hfall.workedSettle
  all_goals exact hrest _

/-! ### Time, power-on and every step -/

theorem ChannelsInv.tick (h : ChannelsInv s) : ChannelsInv s.tick := ⟨h.1.tick, h.2.tick⟩

theorem ChannelsInv.idle (h : ChannelsInv s) : ChannelsInv s.idle := by
  unfold State.idle
  split
  · exact h.tick
  · exact h
  · exact h

theorem channelInv_powerOn : ChannelInv .powerOn none :=
  Channel.Jobless.inv ⟨rfl, rfl, rfl, rfl, rfl⟩ ⟨rfl, fun _ => rfl, by decide, by decide⟩

theorem ChannelsInv.transmit (h : ChannelsInv s) : ChannelsInv s.transmit := h.of_only s.transmit_only (by decide)

/-- The commands of the part itself and of its lines. -/
theorem ChannelsInv.exec_own (h : ChannelsInv s) {c : Instr} (hc : c.request = none) (hr : ∀ b, c ≠ .requestTaken b)
    (he : exec c s = .next t) : ChannelsInv t := by
  have ite {p : Prop} [Decidable p] {u v : State} (hu : p → ChannelsInv u) (hv : ChannelsInv v) :
      ChannelsInv (if p then u.transmit else v.transmit) := by
    split
    · next hp => exact (hu hp).transmit
    · exact hv.transmit
  have hline (f : LineCtl → LineCtl) : ChannelsInv (s.modLine f) := h.of_only (s.modLine_only f) (by decide)
  have hgiven : ChannelsInv s.giveUp :=
    (h.of_only (s.setReceiver_only (.hunting none)) (by decide)).of_only (State.modLinkCnt_only _ _) (by decide)
  cases c <;> simp only [Instr.request, reduceCtorEq] at hc
  case requestTaken b => exact absurd rfl (hr b)
  all_goals obtain rfl := Host.Outcome.next.inj he
  case powerOnReset m a b => exact ⟨channelInv_powerOn, channelInv_powerOn⟩
  case indexStart ls cs =>
    split
    · exact h.transmit
    · exact (h.indexStart ls cs).transmit
  case settle => exact ite (fun _ => h.settle) h
  case frameTaken ch symbols =>
    have all (l : List LinkSymbol) : ∀ u, ChannelsInv u → ChannelsInv (l.foldl (State.linkSymbol ch) u) := by
      induction l with
      | nil => exact fun _ hu => hu
      | cons y l ih => exact fun u hu => ih _ (hu.linkSymbol ch y)
    exact (all symbols s h).transmit
  case watchdogExpiry ch => exact ite (fun _ => h.stall ((State.raise_only _ _ _).mono (by decide))) h
  case relaySettleExpiry ch => exact ite h.relaySettled h
  case dwellBudgetExpiry => exact ite (fun _ => (hline _).cutDwell.of_only (State.judgeDwell_only _) (by decide)) h
  case motionTimerExpiry => exact ite (fun _ => (hline _).raiseFault _ _) h
  case stallTimerExpiry =>
    exact ite (fun _ => ((hline _).of_only (State.raise_only _ _ _) (by decide)).of_only
      (State.modLineCnt_only _ _) (by decide)) h
  case jetCompletion c =>
    exact ite (fun _ => (h.of_only (s.modChute_only c _) (by decide)).of_only (State.judgeDwell_only _) (by decide)) h
  case stalenessExpiry =>
    exact ite (fun _ => (h.of_only (s.modTemp_only _) (by decide)).of_only (State.raise_only _ _ _) (by decide)) h
  case linkFrameReceived bytes => exact (h.of_only (Only.foldl State.linkByte_only bytes s) (by decide)).transmit
  case gapExpiry =>
    split
    · exact hgiven.transmit
    · exact h.transmit
  case huntingPause =>
    split
    · exact hgiven.transmit
    · exact h.transmit
    · exact h.transmit
  case transmitEnd => exact h.of_only s.frameSent_only (by decide)
  case calWriteCompletion =>
    split
    · exact (((h.of_only (s.modCal_only _) (by decide)).of_only (State.modLink_only _ _) (by decide)).of_only
        (State.modReport_only _ _) (by decide)).transmit
    · exact h.transmit

theorem ChannelsInv.exec (h : ChannelsInv s) {c : Instr} (he : exec c s = .next t) : ChannelsInv t := by
  cases hr : c.request with
  | some x => exact (exec_request_handsOver hr he).channelsInv h
  | none =>
    by_cases hb : ∃ b, c = .requestTaken b
    · obtain ⟨b, rfl⟩ := hb
      exact (exec_requestTaken_handsOver he).channelsInv h
    · push Not at hb
      exact h.exec_own hr hb he

/-- Settles O8: every operation keeps the invariant of both channels; the end of a job and the entry to SUSPECT restore it from a
channel whose service state has moved before its job is gone. -/
theorem channelInvariantKept : Obligations.ChannelInvariantKept := by
  unfold Obligations.ChannelInvariantKept
  intro s t hs hstep
  rcases step_cases hstep with rfl | ⟨c, rest, -, he⟩
  · exact hs.idle
  · exact ChannelsInv.exec (s := { s with pending := rest }) hs he

end

end Sys2Proof.Machine
end


-- ==== Sys2Proof/Proofs/ChanSet.lean ====
section
/-! PROOFS. CHAN.SET: its fields in ordinal order, the refusals, and the settings installed (R51, R52, R162, R172). -/

namespace Sys2Proof.Machine

section
variable (r : ChanSetReq)

theorem chanPasses_one : chanPasses r 1 ↔ r.chan ≤ 1 :=
  ⟨fun ⟨h, _⟩ => h rfl, fun h => ⟨fun _ => h, by omega, by omega, by omega, by omega, by omega, by omega⟩⟩

theorem chanPasses_two : chanPasses r 2 ↔ 10 ≤ r.framePeriod ∧ r.framePeriod ≤ 2000 :=
  ⟨fun ⟨_, h, _⟩ => h rfl, fun h => ⟨by omega, fun _ => h, by omega, by omega, by omega, by omega, by omega⟩⟩

theorem chanPasses_three : chanPasses r 3 ↔ r.settleFrames ≤ 64 :=
  ⟨fun ⟨_, _, h, _⟩ => h rfl, fun h => ⟨by omega, by omega, fun _ => h, by omega, by omega, by omega, by omega⟩⟩

theorem chanPasses_four : chanPasses r 4 ↔ 5 ≤ r.relaySettle ∧ r.relaySettle ≤ 500 :=
  ⟨fun ⟨_, _, _, h, _⟩ => h rfl, fun h => ⟨by omega, by omega, by omega, fun _ => h, by omega, by omega, by omega⟩⟩

theorem chanPasses_five : chanPasses r 5 ↔ r.strict ≤ 1 :=
  ⟨fun ⟨_, _, _, _, h, _⟩ => h rfl, fun h => ⟨by omega, by omega, by omega, by omega, fun _ => h, by omega, by omega⟩⟩

theorem chanPasses_six : chanPasses r 6 ↔ 10 ≤ r.driftLimit ∧ r.driftLimit ≤ 10000 :=
  ⟨fun ⟨_, _, _, _, _, h, _⟩ => h rfl, fun h => ⟨by omega, by omega, by omega, by omega, by omega, fun _ => h, by omega⟩⟩

theorem chanPasses_seven : chanPasses r 7 ↔ r.interval = 0 ∨ (50 ≤ r.interval ∧ r.interval ≤ 65535) :=
  ⟨fun ⟨_, _, _, _, _, _, h⟩ => h rfl, fun h => ⟨by omega, by omega, by omega, by omega, by omega, by omega, fun _ => h⟩⟩

theorem chanOf_isSome_iff (n : Nat) : (chanOf n).isSome = true ↔ n ≤ 1 := by
  match n with
  | 0 => decide
  | 1 => decide
  | n + 2 => exact ⟨fun h => (nomatch h), fun h => by omega⟩

/-- The fields of CHAN.SET, each with its ordinal and its judgement (R51). -/
def chanSetFields : List (Nat × Bool) :=
  [(1, (chanOf r.chan).isSome), (2, within 10 2000 r.framePeriod), (3, within 0 64 r.settleFrames),
    (4, within 5 500 r.relaySettle), (5, within 0 1 r.strict), (6, within 10 10000 r.driftLimit),
    (7, r.interval == 0 || within 50 65535 r.interval)]

/-- What each judged field says is what R51 asks of its ordinal. -/
theorem chanSetFields_pass : ∀ e ∈ chanSetFields r, e.2 = true ↔ chanPasses r e.1 := by
  simp only [chanSetFields, List.forall_mem_cons, List.not_mem_nil, false_implies, implies_true, and_true, chanPasses_one,
    chanPasses_two, chanPasses_three, chanPasses_four, chanPasses_five, chanPasses_six, chanPasses_seven, chanOf_isSome_iff,
    within, Bool.and_eq_true, Bool.or_eq_true, decide_eq_true_eq, beq_iff_eq, Nat.zero_le, true_and]

/-- An ordinal that fails is one of the seven. -/
theorem chanSetFields_of_fails {r : ChanSetReq} {n : Nat} (h : ¬chanPasses r n) : ∃ e ∈ chanSetFields r, e.1 = n := by
  have hn : n ∈ (chanSetFields r).map Prod.fst := by
    show n ∈ [1, 2, 3, 4, 5, 6, 7]
    by_contra hno
    simp only [List.mem_cons, List.not_mem_nil, or_false, not_or] at hno
    exact h ⟨by omega, by omega, by omega, by omega, by omega, by omega, by omega⟩
  exact List.mem_map.mp hn

end

section
variable {r : ChanSetReq} {s : State}

theorem chanSetBad_of_firstFails {n : Nat} (h : firstFails (chanPasses r) n) : chanSetBad r = some n :=
  firstBad_of_firstFails (l := chanSetFields r) (by simp [chanSetFields]) (chanSetFields_pass r) chanSetFields_of_fails h

theorem chanSetBad_eq_none (h : ∀ n, chanPasses r n) : chanSetBad r = none :=
  firstBad_eq_none.mpr fun e he => (chanSetFields_pass r e he).mpr (h _)

theorem LineState.settable_iff (x : LineState) : x.settable = true ↔ x = .idle ∨ x = .stopped := by
  cases x <;> simp [LineState.settable]

theorem State.chanSet_busy (h : ¬s.line.state.settable = true) (r : ChanSetReq) : s.chanSet r = (.busy, s) := if_neg h

theorem State.chanSet_bad {n : Nat} (h : s.line.state.settable = true) (hb : chanSetBad r = some n) :
    s.chanSet r = (.bad n, s) := by
  rw [State.chanSet, if_pos h, hb]

theorem State.chanSet_installs {ch : Chan} (h : s.line.state.settable = true) (hb : chanSetBad r = none)
    (hch : r.chan = chanCode ch) : s.chanSet r = (.ok [],
      ((s.modChan ch (Channel.install r)).modShared fun _ => ⟨r.driftLimit, r.interval⟩).modCal (Cal.intervalSet r.interval)) := by
  rw [State.chanSet, if_pos h, hb, hch, chanOf_chanCode]

theorem exec_chanSet (tag : Byte) (r : ChanSetReq) (s : State) :
    exec (.chanSet tag r) s = .next (s.ask tag (.chanSet r) (State.chanSet r)).transmit := rfl

end

/-- Settles O25: BUSY, the first field that fails, and the settings installed each give the owner's answer. -/
theorem chanSetTaken : Obligations.ChanSetTaken := by
  unfold Obligations.ChanSetTaken
  intro tag r s hs
  simp only [exec_chanSet]
  refine ⟨fun hidle hstop => ?_, fun hstate => ?_⟩
  · have hbusy : ¬s.line.state.settable = true := by
      rw [LineState.settable_iff, not_or]; exact ⟨hidle, hstop⟩
    exact State.ask_read hs tag _ (State.chanSet_busy hbusy r)
  · have hset := (LineState.settable_iff _).mpr hstate
    refine ⟨fun n hn => State.ask_read hs tag _ (State.chanSet_bad hset (chanSetBad_of_firstFails hn)), fun ch hch hall => ?_⟩
    have hown := State.chanSet_installs hset (chanSetBad_eq_none hall) hch
    refine congrArg _ ((State.ask_answer hs tag (.chanSet r) hown (s.modChan_report ch _)).trans ?_)
    cases ch <;> rfl

end Sys2Proof.Machine
end


-- ==== Sys2Proof/Proofs/ConverterFrame.lean ====
section
/-! PROOFS. The converter frame (R177): bits most significant first, codes in two's complement, the fields read back. -/

namespace Sys2Proof.Machine

theorem msbBits_length (n v : Nat) : (msbBits n v).length = n := by
  induction n with
  | zero => rfl
  | succ n ih => exact congrArg Nat.succ ih

/-- Bits read after others shift those to the left. -/
theorem foldl_msbBits (n v a : Nat) :
    (msbBits n v).foldl (fun m b => 2 * m + (if b then 1 else 0)) a = a * 2 ^ n + v % 2 ^ n := by
  induction n generalizing a with
  | zero => simp [msbBits, Nat.mod_one]
  | succ n ih =>
    have hbit : (if decide (v / 2 ^ n % 2 = 1) then 1 else 0) = v / 2 ^ n % 2 := by
      rcases Nat.mod_two_eq_zero_or_one (v / 2 ^ n) with h | h <;> rw [h] <;> rfl
    rw [msbBits, List.foldl_cons, ih, hbit, Nat.mod_pow_succ, pow_succ]
    ring

theorem msbNat_msbBits {n v : Nat} (h : v < 2 ^ n) : msbNat (msbBits n v) = v := by
  rw [msbNat, foldl_msbBits, Nat.zero_mul, Nat.zero_add, Nat.mod_eq_of_lt h]

/-- A code in range is read back from its two's complement. -/
theorem code24_msbBits {v : Int} (hlo : -8388608 ≤ v) (hhi : v ≤ 8388607) : code24 (msbBits 24 (v % 16777216).toNat) = v := by
  have hlt : (v % 16777216).toNat < 2 ^ 24 := by norm_num; omega
  rw [code24, msbNat_msbBits hlt]
  split <;> omega

/-- The fields of a frame whose two codes take 24 bits each. -/
theorem parseSample_append {a b rest : List Bool} (ha : a.length = 24) (hb : b.length = 24) (l1 l2 l3 l4 echo : Bool) :
    parseSample (a ++ b ++ [l1, l2, l3, l4, echo] ++ rest) =
      ⟨code24 a, code24 b, l1 && l2 && l3 && l4, if echo then .negative else .positive⟩ := by
  have hdrop : (a ++ b ++ [l1, l2, l3, l4, echo] ++ rest).drop 24 = b ++ ([l1, l2, l3, l4, echo] ++ rest) := by
    simp [List.drop_left' ha]
  have hdrop2 : (a ++ b ++ [l1, l2, l3, l4, echo] ++ rest).drop 48 = l1 :: l2 :: l3 :: l4 :: echo :: rest := by
    rw [show 48 = 24 + 24 from rfl, ← List.drop_drop, hdrop, List.drop_left' hb]
    rfl
  have hecho : (a ++ b ++ [l1, l2, l3, l4, echo] ++ rest).getD 52 false = echo := by
    rw [show (52 : Nat) = 48 + 4 from rfl, List.getD_eq_getElem?_getD, ← List.getElem?_drop, hdrop2]
    rfl
  unfold parseSample
  rw [hdrop, hdrop2, hecho, List.append_assoc, List.append_assoc, List.take_left' ha, List.take_left' hb]
  simp [Bool.and_assoc]

/-- Settles O21: the bits of each code read back, and the flags and the echo in their places. -/
theorem converterFrameRead : Obligations.ConverterFrameRead := by
  unfold Obligations.ConverterFrameRead
  intro dut ref leads echo rest hdlo hdhi hrlo hrhi hrest
  refine ⟨?_, ?_⟩
  · simp [converterBits, msbBits_length, hrest]
  · rw [converterBits, parseSample_append (msbBits_length _ _) (msbBits_length _ _), code24_msbBits hdlo hdhi,
      code24_msbBits hrlo hrhi]

end Sys2Proof.Machine
end


-- ==== Sys2Proof/Proofs/Grants.lean ====
section
/-! PROOFS. The scheduler's review: fit, the NO TIME drops and their counts, the order of a grant pass, and the grant (R63, R77 to
R81). -/

namespace Sys2Proof.Machine

section
variable {s : State}

/-! ### Fit (R77, R78) -/

theorem State.fits_station (s : State) (ch : Chan) (i q : Nat) (sl : SlotId) (g n r : Nat) :
    s.fits ch (.station i q sl g n r) = true ↔ duration (s.chan ch) n ≤ s.line.budget.getD 0 := by
  rw [State.fits, Bool.and_eq_true, decide_eq_true_eq]
  exact and_iff_right rfl

theorem State.fits_check (s : State) (ch c : Chan) (r : Nat) :
    s.fits ch (.check c r) = true ↔ c = ch ∧ duration (s.chan ch) 64 ≤ s.line.budget.getD 0 := by
  rw [State.fits, Bool.and_eq_true, decide_eq_true_eq]
  exact and_congr_left' beq_iff_eq

/-- A request has its drop counted on a channel when it is not kept and that is the channel R78 names. -/
theorem State.lateOn_eq (s : State) (ch : Chan) (r : SchedReq) :
    s.lateOn ch (s.line.budget.getD 0) r = (s.dropChannel r == ch && !s.keeps r) := by
  cases r with
  | station i q sl g n rg =>
    have hfit (x : Chan) : (!s.fits x (.station i q sl g n rg)) = Decidable.decide (s.line.budget.getD 0 < duration (s.chan x) n) := by
      rw [Bool.eq_iff_iff, Bool.not_eq_true', ← Bool.not_eq_true, State.fits_station, decide_eq_true_iff, Nat.not_le]
    have hchan : s.dropChannel (.station i q sl g n rg) = if duration s.chanB n < duration s.chanA n then .B else .A := rfl
    rw [State.keeps, hchan, State.lateOn, Bool.and_comm, BEq.comm]
    simp only [Bool.not_or, Bool.not_and, bne, Bool.not_not, hfit]
    rfl
  | check c rg =>
    have hfit : (!s.fits c (.check c rg)) = Decidable.decide (s.line.budget.getD 0 < duration (s.chan c) 64) := by
      rw [Bool.eq_iff_iff, Bool.not_eq_true', ← Bool.not_eq_true, State.fits_check, decide_eq_true_iff, ← Nat.not_le]
      exact not_congr (and_iff_right rfl)
    rw [State.keeps, hfit]
    rfl

theorem State.keeps_eq (s : State) (r : SchedReq) :
    s.keeps r = (!s.lateOn .A (s.line.budget.getD 0) r && !s.lateOn .B (s.line.budget.getD 0) r) := by
  rw [State.lateOn_eq, State.lateOn_eq]
  cases s.dropChannel r <;> cases s.keeps r <;> rfl

/-! ### The NO TIME drops (R78, R187) -/

theorem bump_iterate {n : Nat} (h : n ≤ 4294967295) (k : Nat) : bump^[k] n = min 4294967295 (n + k) := by
  induction k with
  | zero => exact (Nat.min_eq_right h).symm
  | succ k ih =>
    rw [Function.iterate_succ_apply', ih, bump, satInc, counterTop]
    split <;> omega

/-- A channel with so many NO TIME drops more (R78). -/
def Channel.late (n : Nat) (c : Channel) : Channel := { c with cnt := { c.cnt with noTime := bump^[n] c.cnt.noTime } }

theorem State.noTime_dropChannel (s : State) (r x : SchedReq) : (s.noTime r).dropChannel x = s.dropChannel x := by
  unfold State.noTime
  cases s.dropChannel r <;> cases x <;> rfl

/-- Drops counted one after the other. -/
theorem State.noTimes_eq (l : List SchedReq) (s : State) : l.foldl State.noTime s = { s with
    chanA := s.chanA.late (l.countP fun r => s.dropChannel r == .A)
    chanB := s.chanB.late (l.countP fun r => s.dropChannel r == .B) } := by
  induction l generalizing s with
  | nil => rfl
  | cons r l ih =>
    rw [List.foldl_cons, ih]
    simp only [State.noTime_dropChannel, List.countP_cons]
    unfold State.noTime
    cases s.dropChannel r <;> rfl

/-- The NO TIME drops of a review, on each channel and in the set. -/
theorem State.dropLate_eq (s : State) : s.dropLate = { s with
    sched := { s.sched with requests := s.sched.requests.filter s.keeps }
    chanA := s.chanA.late (s.sched.requests.countP (s.lateOn .A (s.line.budget.getD 0)))
    chanB := s.chanB.late (s.sched.requests.countP (s.lateOn .B (s.line.budget.getD 0))) } := by
  unfold State.dropLate
  rw [State.noTimes_eq, List.countP_filter, List.countP_filter]
  simp only [← State.lateOn_eq]
  rfl

/-- The NO TIME drops of a review change nothing else of a channel. -/
theorem State.dropLate_late (s : State) (ch : Chan) : ∃ n, s.dropLate.chan ch = (s.chan ch).late n := by
  rw [State.dropLate_eq]
  cases ch
  · exact ⟨_, rfl⟩
  · exact ⟨_, rfl⟩

/-- Nor does the whole review, of a channel that is not IN_SERVICE (R79). -/
theorem State.review_late {ch : Chan} (h : (s.chan ch).service ≠ .inService) : ∃ n, s.review.chan ch = (s.chan ch).late n := by
  unfold State.review
  split
  · exact ⟨0, rfl⟩
  · obtain ⟨n, hn⟩ := s.dropLate_late ch
    have hout : (s.dropLate.chan ch).service ≠ .inService := by rw [hn]; exact h
    have hA := State.grantPass_chan hout .A
    exact ⟨n, (State.grantPass_chan (by rw [hA]; exact hout) .B).trans (hA.trans hn)⟩

/-! ### The order of a grant pass (R80) -/

theorem keyBefore_iff (a b : List Int) : keyBefore a b = true ↔ a < b := by
  induction a generalizing b with
  | nil => cases b <;> simp [keyBefore]
  | cons x a ih =>
    cases b with
    | nil => simp [keyBefore]
    | cons y b =>
      rw [List.cons_lt_cons_iff, keyBefore]
      split
      · next h => simp [h]
      · next h =>
        split
        · next h' => simp [h, ne_of_gt h']
        · next h' => rw [ih]; simp [le_antisymm (not_lt.mp h') (not_lt.mp h)]

/-- The first request of a list is a member of it that no member comes before. -/
theorem firstRequest_first {n : Nat} {l : List SchedReq} {r : SchedReq} (h : firstRequest n l = some r) :
    ∀ x ∈ l, ¬reqKey n x < reqKey n r := by
  induction l generalizing r with
  | nil => exact fun _ hx => nomatch hx
  | cons y l ih =>
    unfold firstRequest at h
    split at h
    · next hnone =>
      obtain rfl := Option.some.inj h
      have hnil : l = [] := by
        cases l with
        | nil => rfl
        | cons z l => unfold firstRequest at hnone; split at hnone <;> [contradiction; split at hnone <;> contradiction]
      rw [hnil]
      exact fun x hx => by rw [List.mem_singleton.mp hx]; exact lt_irrefl _
    · next b hb =>
      have htail := ih hb
      simp only [keyBefore_iff] at h
      split at h
      · next hlt =>
        obtain rfl := Option.some.inj h
        exact List.forall_mem_cons.mpr ⟨not_lt_of_gt hlt, htail⟩
      · next hge =>
        obtain rfl := Option.some.inj h
        exact List.forall_mem_cons.mpr ⟨lt_irrefl _, fun x hx hxr => htail x hx (lt_of_lt_of_le hxr (not_lt.mp hge))⟩

theorem firstRequest_isSome {n : Nat} {l : List SchedReq} {x : SchedReq} (hx : x ∈ l) : ∃ r, firstRequest n l = some r := by
  cases l with
  | nil => contradiction
  | cons y l =>
    unfold firstRequest
    split
    · exact ⟨_, rfl⟩
    · split <;> exact ⟨_, rfl⟩

/-- What R80 puts first has the smaller key, for station numbers in range. -/
theorem reqKey_lt {n : Nat} {x r : SchedReq} (h : comesFirst n x r) (hx : ∀ i q sl g m rg, x = .station i q sl g m rg → i ≤ n)
    (hr : ∀ i q sl g m rg, r = .station i q sl g m rg → i ≤ n) : reqKey n x < reqKey n r := by
  cases x with
  | check c rg =>
    cases r with
    | check c' rg' => exact h.elim
    | station i q sl g m rg => simp [reqKey, List.cons_lt_cons_iff]
  | station i q sl g m rg =>
    cases r with
    | check c rg' => exact h.elim
    | station i' q' sl' g' m' rg' =>
      have hi := hx _ _ _ _ _ _ rfl
      have hi' := hr _ _ _ _ _ _ rfl
      simp only [comesFirst] at h
      have hn : ((n - i : Nat) : Int) = n - i := Int.ofNat_sub hi
      have hn' : ((n - i' : Nat) : Int) = n - i' := Int.ofNat_sub hi'
      simp only [reqKey, List.cons_lt_cons_iff, lt_irrefl, and_false, or_false, false_or, true_and]
      omega

/-! ### The pass (R79 to R81) -/

theorem Channel.free_iff (c : Channel) : c.free = true ↔ c.service = .inService ∧ c.jobState = .idle := by
  simp [Channel.free]

theorem State.grantPass_idle {ch : Chan} (h : ¬((s.chan ch).service = .inService ∧ (s.chan ch).jobState = .idle) ∨
    ∀ r ∈ s.sched.requests, s.fits ch r = false) : s.grantPass ch = s := by
  unfold State.grantPass
  rcases h with h | h
  · rw [if_neg (mt (Channel.free_iff _).mp h)]
  · rw [List.filter_eq_nil_iff.mpr fun r hr => by rw [h r hr]; decide]
    split <;> rfl

/-- A grant pass of a free channel that some request fits: the one granted, which none that fits comes before. -/
theorem State.grantPass_grants {ch : Chan} (hs : (s.chan ch).service = .inService) (hi : (s.chan ch).jobState = .idle)
    {x : SchedReq} (hx : x ∈ s.sched.requests) (hfit : s.fits ch x = true) :
    ∃ r ∈ s.sched.requests, s.fits ch r = true ∧ s.grantPass ch = s.grant ch r ∧
      ∀ y ∈ s.sched.requests, s.fits ch y = true → ¬reqKey s.track.stations.length y < reqKey s.track.stations.length r := by
  obtain ⟨r, hr⟩ := firstRequest_isSome (n := s.track.stations.length) (List.mem_filter.mpr ⟨hx, hfit⟩)
  obtain ⟨hmem, hrfit⟩ := List.mem_filter.mp (firstRequest_mem hr)
  refine ⟨r, hmem, hrfit, ?_, fun y hy hyfit => firstRequest_first hr y (List.mem_filter.mpr ⟨hy, hyfit⟩)⟩
  rw [State.grantPass, if_pos ((Channel.free_iff _).mpr ⟨hs, hi⟩), hr]

theorem State.grant_chan (s : State) (ch : Chan) (r : SchedReq) :
    (s.grant ch r).chan ch = (s.chan ch).connect r.job.1 r.job.2.1 := by
  cases ch <;> rfl

theorem State.grant_other (s : State) (ch : Chan) (r : SchedReq) :
    (s.grant ch r).chan (chanOther ch) = s.chan (chanOther ch) := by
  cases ch <;> rfl

theorem State.grant_requests (s : State) (ch : Chan) (r : SchedReq) :
    (s.grant ch r).sched.requests = s.sched.requests.erase r := by
  cases ch <;> rfl

end

/-- Settles O20: the durations, the drops counted channel by channel, and a pass that grants the least key. -/
theorem grantsInOrder : Obligations.GrantsInOrder := by
  unfold Obligations.GrantsInOrder
  refine ⟨fun ch s => ⟨s.fits_station ch, s.fits_check ch⟩, fun s left hleft hA hB => ⟨?_, fun h => ?_, fun h => ?_⟩,
    fun ch s hstations => ⟨State.grantPass_idle, fun hs hi => ?_⟩⟩
  · subst hleft
    rw [State.dropLate_eq, Channel.late, Channel.late, bump_iterate hA, bump_iterate hB, ← funext s.keeps_eq]
  · rw [State.review, h]; rfl
  · rw [State.review, if_neg (by simpa using h)]
  · rintro ⟨x, hx, hfit⟩
    obtain ⟨r, hmem, hrfit, hgrant, hfirst⟩ := State.grantPass_grants hs hi hx hfit
    rw [hgrant, State.grant_chan, State.grant_other, State.grant_requests]
    refine ⟨r, hmem, hrfit, fun y hy hyfit hbefore => hfirst y hy hyfit (reqKey_lt hbefore ?_ ?_), rfl, rfl, rfl, rfl, rfl, ?_, ?_⟩
    · rintro i q sl g m rg rfl
      exact hstations _ _ _ _ _ _ hy
    · rintro i q sl g m rg rfl
      exact hstations _ _ _ _ _ _ hmem
    · rintro i q sl g n rg rfl
      exact ⟨rfl, rfl, rfl⟩
    · rintro c rg rfl
      exact ⟨((s.fits_check ch c rg).mp hrfit).1, rfl, rfl, rfl⟩

end Sys2Proof.Machine
end


-- ==== Sys2Proof/Proofs/SuspectEntry.lean ====
section
/-! PROOFS. A fault at a channel without a job, the entry to SUSPECT, and the judgement of a completed check (R45, R58, R61, R85,
R102, R164). -/

namespace Sys2Proof.Machine

section
variable {s : State} {ch : Chan}

/-! ### A fault leaves a channel without a job (R45, R71) -/

theorem State.abortJob_chan_free (h : (s.chan ch).job = none) (x : Chan) (o : JobOutcome) :
    (s.abortJob x o).chan ch = s.chan ch := by
  rcases Chan.eq_or_other x ch with rfl | rfl
  · rw [State.abortJob, h]
  · exact State.abortJob_chan_other s x o

theorem State.cutDwell_chan_free (h : (s.chan ch).job = none) : s.cutDwell.chan ch = s.chan ch := by
  have hempty : s.emptyRequests.chan ch = s.chan ch := by cases ch <;> rfl
  have hA : (s.emptyRequests.abortJob .A .cut).chan ch = s.chan ch :=
    (State.abortJob_chan_free (by rw [hempty]; exact h) .A .cut).trans hempty
  exact (State.abortJob_chan_free (by rw [hA]; exact h) .B .cut).trans hA

theorem State.abortJob_track_free (h : (s.chan ch).job = none) (o : JobOutcome) : (s.abortJob ch o).track = s.track := by
  rw [State.abortJob, h]

/-- With no job on either channel no record is written (R71). -/
theorem State.cutDwell_track_free (h : ∀ x, (s.chan x).job = none) : s.cutDwell.track = s.track := by
  have hB : (s.emptyRequests.abortJob .A .cut).chan .B = s.chan .B := State.abortJob_chan_other _ .A .cut
  exact (State.abortJob_track_free (by rw [hB]; exact h .B) .cut).trans
    (State.abortJob_track_free (s := s.emptyRequests) (ch := .A) (h .A) .cut)

theorem State.raiseFault_chan_free (h : (s.chan ch).job = none) (k : FaultKind) (d : Detail) :
    (s.raiseFault k d).chan ch = s.chan ch := by
  have entry : (s.faultEntry k d).chan ch = s.chan ch := by
    have ho := s.faultEntry_only k d
    exact (State.chan_congr (ho .chanA (by decide)) (ho .chanB (by decide)) ch).trans
      (State.cutDwell_chan_free (s := s.modLine (faultedLine s.pins.motion k d)) h)
  unfold State.raiseFault
  split
  case h_5 | h_6 => rfl
  all_goals exact entry

theorem State.raiseFault_track_free (h : ∀ x, (s.chan x).job = none) (k : FaultKind) (d : Detail) :
    (s.raiseFault k d).track = s.track := by
  have entry : (s.faultEntry k d).track = s.track :=
    (s.faultEntry_only k d .track (by decide)).trans
      (State.cutDwell_track_free (s := s.modLine (faultedLine s.pins.motion k d)) h)
  unfold State.raiseFault
  split
  case h_5 | h_6 => rfl
  all_goals exact entry

/-! ### The entry to SUSPECT (R58, R61, R85) -/

/-- A channel in SUSPECT: the source-fault run is 0 and the watchdog stopped (R58). -/
def Channel.suspected (c : Channel) : Channel := { c with service := .suspect, srcRun := 0, goodRun := 0, watchdog := none }

/-- The part as an entry to SUSPECT leaves it before NO_CHANNEL is judged. -/
def State.suspected (s : State) (ch : Chan) : State :=
  ((s.modChan ch Channel.suspected).raise .channelSuspect (.channel ch)).withdrawCheck ch

theorem State.enterSuspect_eq (s : State) (ch : Chan) : s.enterSuspect ch = (s.suspected ch).judgeNoChannel ch := rfl

theorem State.suspected_only (s : State) (ch : Chan) : Only [.chanA, .chanB, .sched, .report] s (s.suspected ch) :=
  (((s.modChan_only _ _).mono (by decide)).trans ((State.raise_only _ _ _).mono (by decide))).trans
    ((State.modSched_only _ _).mono (by decide))

theorem State.suspected_chan (s : State) (ch : Chan) : (s.suspected ch).chan ch = (s.chan ch).suspected := by
  cases ch <;> rfl

theorem State.suspected_other (s : State) (ch : Chan) :
    (s.suspected ch).chan (chanOther ch) = s.chan (chanOther ch) := by
  cases ch <;> rfl

theorem State.enterSuspect_only (s : State) (ch : Chan) :
    Only [.track, .line, .lineCnt, .chanA, .chanB, .sched, .chutes, .report] s (s.enterSuspect ch) := by
  have hentry := (s.suspected_only ch).mono (m := [.track, .line, .lineCnt, .chanA, .chanB, .sched, .chutes, .report]) (by decide)
  rw [State.enterSuspect_eq]
  unfold State.judgeNoChannel
  split
  · exact hentry.trans ((State.raiseFault_only _ _ _).mono (by decide))
  · exact hentry

theorem State.enterSuspect_chan (h : (s.chan ch).job = none) : (s.enterSuspect ch).chan ch = (s.chan ch).suspected := by
  have hfree : ((s.suspected ch).chan ch).job = none := by rw [State.suspected_chan]; exact h
  rw [State.enterSuspect_eq, ← State.suspected_chan]
  unfold State.judgeNoChannel
  split
  · exact State.raiseFault_chan_free hfree _ _
  · rfl

/-- With no job on either channel no record is written. -/
theorem State.enterSuspect_track_free (h : ∀ x, (s.chan x).job = none) : (s.enterSuspect ch).track = s.track := by
  have hentry : (s.suspected ch).track = s.track := s.suspected_only ch .track (by decide)
  have hfree (x : Chan) : ((s.suspected ch).chan x).job = none := by
    rcases Chan.eq_or_other ch x with rfl | rfl
    · rw [State.suspected_chan]; exact h _
    · rw [State.suspected_other]; exact h _
  rw [State.enterSuspect_eq, ← hentry]
  unfold State.judgeNoChannel
  split
  · exact State.raiseFault_track_free hfree _ _
  · rfl

/-- CHANNEL_SUSPECT alone is raised of its kind: NO_CHANNEL is another. -/
theorem State.enterSuspect_keeps (s : State) (ch : Chan) :
    KeepsEvent .channelSuspect (s.raise .channelSuspect (.channel ch)) (s.enterSuspect ch) := by
  have hentry : KeepsEvent .channelSuspect (s.raise .channelSuspect (.channel ch)) (s.suspected ch) :=
    .of_report (by cases ch <;> rfl) _
  rw [State.enterSuspect_eq]
  unfold State.judgeNoChannel
  split
  · exact hentry.trans ((KeepsEvent.raise (by decide) _ _).trans (.of_report (State.raiseFault_report _ _ _) _))
  · exact hentry

/-- With the other channel SUSPECT too, a line under way is FAULTED by NO_CHANNEL (R61). -/
theorem State.enterSuspect_noChannel (h : (s.chan (chanOther ch)).service = .suspect) (hu : s.line.state.underWay = true) :
    (s.enterSuspect ch).line = faultedLine s.pins.motion .noChannel .none s.line := by
  have ho := s.suspected_only ch
  have hline : (s.suspected ch).line = s.line := ho .line (by decide)
  have hpins : (s.suspected ch).pins = s.pins := ho .pins (by decide)
  obtain ⟨hentry, -, -⟩ := (s.suspected ch).raiseFault_line .noChannel .none
  rw [State.enterSuspect_eq, State.judgeNoChannel, if_pos ⟨by rw [State.suspected_other]; exact h, by rw [hline]; exact hu⟩,
    hentry (.inl (by rw [hline]; exact hu)), hline, hpins]

/-! ### A trim set by a check (R161, R164) -/

theorem Cal.setTrims_same (c : Cal) (ch : Chan) (l : List (Option Trim)) : (c.setTrims ch l).trims ch = l := by
  cases ch <;> rfl

theorem Cal.setTrims_other (c : Cal) (ch : Chan) (l : List (Option Trim)) :
    (c.setTrims ch l).trims (chanOther ch) = c.trims (chanOther ch) := by
  cases ch <;> rfl

theorem Cal.setFlag_trims (c : Cal) (ch x : Chan) (b : Bool) : (c.setFlag ch b).trims x = c.trims x := by
  cases ch <;> cases x <;> rfl

theorem Cal.setFlag_same (c : Cal) (ch : Chan) (b : Bool) : (c.setFlag ch b).flag ch = b := by
  cases ch <;> rfl

theorem Cal.trim_of_pos {r : Nat} (h : 1 ≤ r) (c : Cal) (ch : Chan) : c.trim ch r = (c.trims ch).getD (r - 1) none :=
  if_neg (by omega)

/-- The calibration record once a check has set the trim of range r of a channel. -/
def Cal.checked (ch : Chan) (r : Nat) (v : Int) (k : Nat) (c : Cal) : Cal := (c.takeTrim ch r v k).setFlag ch false

section
variable {c : Cal} {r : Nat}

theorem Cal.checked_trims (hr : 1 ≤ r) (ch : Chan) (v : Int) (k : Nat) :
    (c.checked ch r v k).trims ch = (c.trims ch).set (r - 1) (some ⟨v, k⟩) := by
  rw [Cal.checked, Cal.setFlag_trims, Cal.takeTrim, if_neg (by omega), Cal.setTrims_same]

theorem Cal.checked_trims_other (r : Nat) (ch : Chan) (v : Int) (k : Nat) :
    (c.checked ch r v k).trims (chanOther ch) = c.trims (chanOther ch) := by
  rw [Cal.checked, Cal.setFlag_trims, Cal.takeTrim]
  split
  · rfl
  · exact c.setTrims_other ch _

theorem Cal.checked_flag (r : Nat) (ch : Chan) (v : Int) (k : Nat) : (c.checked ch r v k).flag ch = false :=
  Cal.setFlag_same _ ch false

theorem Cal.checked_trim (hr : 1 ≤ r) (hr6 : r ≤ 6) (hlen : (c.trims ch).length = 6) (v : Int) (k : Nat) :
    (c.checked ch r v k).trim ch r = some ⟨v, k⟩ := by
  have hin : r - 1 < (c.trims ch).length := by omega
  rw [Cal.trim_of_pos hr, Cal.checked_trims hr]
  simp [hin]

theorem Cal.checked_trim_ne {r' : Nat} (hr : 1 ≤ r) (hne : r' ≠ r) (v : Int) (k : Nat) :
    (c.checked ch r v k).trim ch r' = c.trim ch r' := by
  by_cases h0 : r' = 0
  · simp [Cal.trim, h0]
  · have hidx : r - 1 ≠ r' - 1 := by omega
    rw [Cal.trim_of_pos (by omega), Cal.trim_of_pos (by omega), Cal.checked_trims hr]
    simp [hidx]

end

/-! ### The judgement of a completed check (R102, R164) -/

/-- The channel of a check that has come to an outcome: the check counted, the source-fault run 0 (R59, R164). -/
def Channel.checked (c : Channel) : Channel := { c with cnt := countCheck c.cnt, srcRun := 0 }

/-- A check within the drift limit sets its trim. -/
theorem State.completeCheck_within {v : Int} (h : v.natAbs ≤ s.shared.driftLimit) (r : Nat) :
    s.completeCheck ch r (some v) = (s.modChan ch Channel.checked).acceptTrim ch r v := by
  unfold State.completeCheck
  cases ch <;> exact if_pos h

/-- A check beyond it makes its channel SUSPECT. -/
theorem State.completeCheck_beyond {v : Int} (h : s.shared.driftLimit < v.natAbs) (r : Nat) :
    s.completeCheck ch r (some v) = (s.modChan ch Channel.checked).enterSuspect ch := by
  unfold State.completeCheck
  cases ch <;> exact if_neg (Nat.not_le.mpr h)

theorem State.acceptTrim_chan (s : State) (ch : Chan) (r : Nat) (v : Int) :
    (s.acceptTrim ch r v).chan ch = { s.chan ch with cnt := countTrim (s.chan ch).cnt } := by
  cases ch <;> rfl

theorem State.acceptTrim_cal (s : State) (ch : Chan) (r : Nat) (v : Int) :
    (s.acceptTrim ch r v).cal = s.cal.checked ch r v s.track.k := by
  cases ch <;> rfl

/-- Settles O51: a completed check is within the drift limit, or beyond it. -/
theorem checksJudged : Obligations.ChecksJudged := by
  unfold Obligations.ChecksJudged
  rintro ch r v s t hr hr6 hlen hjob rfl
  have hchan : (s.modChan ch Channel.checked).chan ch = (s.chan ch).checked := s.modChan_same _ _
  by_cases hv : v.natAbs ≤ s.shared.driftLimit
  · rw [State.completeCheck_within hv, State.acceptTrim_chan, State.acceptTrim_cal, hchan, State.modChan_cal,
      State.modChan_track]
    exact ⟨rfl, rfl, fun _ => ⟨Cal.checked_trim hr hr6 hlen v _, Cal.checked_flag r ch v _, rfl, rfl,
      fun r' hne => Cal.checked_trim_ne hr hne v _, Cal.checked_trims_other r ch v _⟩, fun h => absurd hv (Nat.not_le.mpr h)⟩
  · have hbeyond := Nat.not_le.mp hv
    rw [State.completeCheck_beyond hbeyond, State.enterSuspect_chan (by rw [hchan]; exact hjob), hchan]
    refine ⟨rfl, rfl, fun h => absurd h hv, fun _ => ⟨?_, rfl, rfl, fun hother hu => ?_⟩⟩
    · exact (State.enterSuspect_only _ ch .cal (by decide)).trans (s.modChan_cal _ _)
    · rw [State.enterSuspect_noChannel (by rw [State.modChan_other]; exact hother) (by rw [State.modChan_line]; exact hu)]
      exact ⟨rfl, rfl⟩

end

end Sys2Proof.Machine
end


-- ==== Sys2Proof/Proofs/ChannelTimers.lean ====
section
/-! PROOFS. The expiry of a channel's watchdog, with the job that ends STALL, and of its relay settle timer (R55, R64, R70). -/

namespace Sys2Proof.Machine

section
variable {s : State} {ch : Chan} {j : Job}

/-! ### A watchdog expires (R55) -/

/-- The channel a watchdog expiry leaves x from c: STALLED with no job, the polarity, the range and the source-fault run kept. -/
structure Channel.StalledFrom (c x : Channel) : Prop where
  service : x.service = .stalled
  watchdog : x.watchdog = none
  receiver : x.receiver = .waiting
  goodRun : x.goodRun = 0
  job : x.job = none
  srcRun : x.srcRun = c.srcRun
  pol : x.pol = c.pol
  range : x.range = c.range

theorem exec_watchdogExpiry_stopped (hs : TransmitInv s) (h : (s.chan ch).watchdog = none) :
    exec (.watchdogExpiry ch) s = .next s := by
  have hstop : ¬(s.chan ch).watchdog.isSome = true := by rw [h]; decide
  exact (congrArg _ (if_neg hstop)).trans (congrArg _ (State.transmit_quiet hs))

/-- The event of an expiry may be raised before the channel's own change. -/
theorem exec_watchdogExpiry (h : (s.chan ch).watchdog ≠ none) : exec (.watchdogExpiry ch) s =
    .next (((s.raise .channelStall (.channel ch)).modChan ch Channel.enterStalled).stallJob ch).transmit := by
  have hswap : (s.modChan ch Channel.enterStalled).raise .channelStall (.channel ch) =
      (s.raise .channelStall (.channel ch)).modChan ch Channel.enterStalled := by
    cases ch <;> rfl
  rw [← hswap]
  exact congrArg _ (if_pos (Option.isSome_iff_ne_none.mpr h))

theorem State.stallJob_idle (h : (s.chan ch).job = none) :
    (s.modChan ch Channel.enterStalled).stallJob ch = s.modChan ch Channel.enterStalled := by
  rw [State.stallJob, State.modChan_same, if_neg (by rw [Channel.enterStalled, h]; decide)]

theorem State.stallJob_running (h : (s.chan ch).job = some j) :
    (s.modChan ch Channel.enterStalled).stallJob ch = (s.stalledJob ch).offer := by
  rw [State.stallJob, State.modChan_same]
  exact if_pos (Option.isSome_iff_ne_none.mpr (by rw [Channel.enterStalled, h]; simp))

/-- A review after a job has ended STALL may count a NO TIME drop at its channel, and no more. -/
theorem State.stalledJob_offer_chan (h : (s.chan ch).job = some j) :
    ∃ n, (s.stalledJob ch).offer.chan ch = ((s.stalledJob ch).chan ch).late n := by
  obtain ⟨m, hm⟩ := State.stalledJob_chan h
  rw [State.offer_chan]
  exact State.review_late (by rw [hm]; exact fun hs => nomatch hs)

theorem State.stallJob_stalled (s : State) (ch : Chan) :
    (s.chan ch).StalledFrom (((s.modChan ch Channel.enterStalled).stallJob ch).chan ch) := by
  cases hj : (s.chan ch).job with
  | none =>
    rw [State.stallJob_idle hj, State.modChan_same]
    exact ⟨rfl, rfl, rfl, rfl, hj, rfl, rfl, rfl⟩
  | some j =>
    obtain ⟨n, hn⟩ := State.stalledJob_offer_chan hj
    obtain ⟨m, hm⟩ := State.stalledJob_chan hj
    rw [State.stallJob_running hj, hn, hm]
    exact ⟨rfl, rfl, rfl, rfl, rfl, rfl, rfl, rfl⟩

theorem State.stallJob_only (s : State) (ch : Chan) : Only [.track, .line, .chanA, .chanB, .sched] s (s.stallJob ch) := by
  unfold State.stallJob
  split
  · exact ((State.abortJob_only _ _ _).mono (by decide)).trans ((State.offer_only _).mono (by decide))
  · exact .refl _ s

/-- What the expiry leaves of a running station job. -/
theorem State.stallJob_station {i q g : Nat} (h : (s.chan ch).job = some j) (hk : j.kind = .station i q g)
    (hq : q < s.track.pockets.length) :
    ((s.modChan ch Channel.enterStalled).stallJob ch).pocket q =
        { s.pocket q with attempts := (s.pocket q).attempts ++ [⟨i, ch, g, .stall, none, none⟩] } ∧
      (((s.modChan ch Channel.enterStalled).stallJob ch).chan ch).cnt.stall = satInc 4294967295 (s.chan ch).cnt.stall ∧
      (((s.modChan ch Channel.enterStalled).stallJob ch).chan ch).relay = .open := by
  obtain ⟨n, hn⟩ := State.stalledJob_offer_chan h
  have htrack : (s.stalledJob ch).offer.track = (s.stalledJob ch).track := State.offer_only _ .track (by decide)
  rw [State.stallJob_running h, hn, State.stalledJob_chan_station h hk, State.pocket_congr htrack,
    State.stalledJob_pocket h hk hq]
  exact ⟨rfl, rfl, rfl⟩

/-! ### The relay settle timer expires (R64) -/

theorem exec_relaySettleExpiry_late (hs : TransmitInv s) (h : (s.chan ch).jobState ≠ .connecting) :
    exec (.relaySettleExpiry ch) s = .next s :=
  (congrArg _ (if_neg h)).trans (congrArg _ (State.transmit_quiet hs))

/-- Two updates of a channel that agree on its record as it stands. -/
theorem State.modChan_congr {f g : Channel → Channel} (h : f (s.chan ch) = g (s.chan ch)) : s.modChan ch f = s.modChan ch g := by
  cases ch
  · exact congrArg (fun c => { s with chanA := c }) h
  · exact congrArg (fun c => { s with chanB := c }) h

/-- The first settle phase, or the sample phase at once with S = 0. -/
theorem Channel.enterSettle_positive {c : Channel} (h : c.job = some j) :
    ({ c with relayTimer := none } : Channel).enterSettle .positive .settlePos .samplePos =
      if c.settleFrames = 0 then
        { c with relayTimer := none, pol := .positive, jobState := .samplePos,
                 job := some { j with phaseCount := 0, errRun := 0 } }
      else
        { c with relayTimer := none, pol := .positive, jobState := .settlePos, job := some { j with phaseCount := 0 } } := by
  unfold Channel.enterSettle Channel.enterSample
  simp only [h, Option.map_some]

/-- Settles O24: an expiry without a job and with one, and the relay settle timer in CONNECTING and out of it. -/
theorem channelTimersExpire : Obligations.ChannelTimersExpire := by
  unfold Obligations.ChannelTimersExpire
  refine ⟨fun ch s hs => ⟨exec_watchdogExpiry_stopped hs, fun hdog => ⟨_, exec_watchdogExpiry hdog, ?_⟩⟩,
    fun ch s hs => ⟨exec_relaySettleExpiry_late hs, fun hst j hj => ?_⟩⟩
  · generalize hu : s.raise .channelStall (.channel ch) = u
    have huchan (x : Chan) : u.chan x = s.chan x := by rw [← hu]; cases x <;> rfl
    have hutrack : u.track = s.track := by rw [← hu]; rfl
    have huline : u.line = s.line := by rw [← hu]; rfl
    generalize hv : (u.modChan ch Channel.enterStalled).stallJob ch = v
    have honly : Only [.track, .line, .chanA, .chanB, .sched, .report] s v := by
      rw [← hv, ← hu]
      exact (((State.raise_only _ _ _).mono (by decide)).trans ((State.modChan_only _ _ _).mono (by decide))).trans
        ((State.stallJob_only _ _).mono (by decide))
    have hreport : v.report = (s.raise .channelStall (.channel ch)).report := by
      rw [← hv, ← hu]
      exact (State.stallJob_only _ ch .report (by decide)).trans (State.modChan_report _ _ _)
    have hchan (x : Chan) : v.transmit.chan x = v.chan x :=
      State.chan_congr (v.transmit_only .chanA (by decide)) (v.transmit_only .chanB (by decide)) x
    have htrack : v.transmit.track = v.track := v.transmit_only .track (by decide)
    have hstall : (s.chan ch).StalledFrom (v.transmit.chan ch) := by
      rw [hchan, ← hv, ← huchan]; exact u.stallJob_stalled ch
    refine ⟨hstall.service, hstall.watchdog, hstall.receiver, hstall.goodRun, hstall.job, hstall.srcRun, hstall.pol,
      hstall.range, (v.transmit_only .cal (by decide)).trans (honly .cal (by decide)),
      (v.transmit_only .temp (by decide)).trans (honly .temp (by decide)),
      (v.transmit_only .link (by decide)).trans (honly .link (by decide)), State.sends_of_raise hs hreport, ?_, ?_⟩
    · intro j i q g hj hk hq
      have h := State.stallJob_station (s := u) (by rw [huchan]; exact hj) hk (by rw [hutrack]; exact hq)
      rw [hv, State.pocket_congr hutrack, huchan] at h
      rw [State.pocket_congr htrack, hchan]
      exact h
    · intro hj
      rw [State.stallJob_idle (by rw [huchan]; exact hj)] at hv
      rw [htrack, State.transmit_line, hchan, ← hv, State.modChan_track, State.modChan_line, State.modChan_other, huchan]
      exact ⟨hutrack, huline, rfl⟩
  · have htransmit (f : Channel → Channel) : (s.modChan ch f).transmit = s.modChan ch f :=
      State.transmit_of_report hs (s.modChan_report _ _)
    refine (congrArg _ (if_pos hst)).trans (congrArg _ ((htransmit _).trans (State.modChan_congr ?_)))
    exact Channel.enterSettle_positive hj

end

end Sys2Proof.Machine
end


-- ==== Sys2Proof/Proofs/FramesTaken.lean ====
section
/-! PROOFS. What arrives on a converter link, up to the frame it makes the channel take, and the frame's use in each service and
job state (R53, R54, R64, R65, R69). -/

namespace Sys2Proof.Machine

section
variable {s : State} {ch : Chan} {j : Job}

theorem exec_frameTaken (ch : Chan) (symbols : List LinkSymbol) (s : State) :
    exec (.frameTaken ch symbols) s = .next (symbols.foldl (State.linkSymbol ch) s).transmit := rfl

theorem State.set_modChan (s : State) (ch : Chan) (c : Channel) (f : Channel → Channel) :
    (s.modChan ch fun _ => c).modChan ch f = s.modChan ch fun _ => f c := by
  cases ch <;> rfl

/-! ### Symbols (R53) -/

/-- The channel with its receiver moved on. -/
def State.receiving (s : State) (ch : Chan) (r : Receiver) : State := s.modChan ch fun c => { c with receiver := r }

theorem State.receiving_chan (s : State) (ch : Chan) (r : Receiver) :
    (s.receiving ch r).chan ch = { s.chan ch with receiver := r } := s.modChan_same _ _

theorem State.receiving_receiving (s : State) (ch : Chan) (r r' : Receiver) :
    (s.receiving ch r).receiving ch r' = s.receiving ch r' := by
  cases ch <;> rfl

theorem State.linkSymbol_taken {y : LinkSymbol} {r : Receiver} {f : Taken}
    (h : (s.chan ch).receiver.symbol (s.chan ch).strict y = (r, some f)) :
    s.linkSymbol ch y = (s.receiving ch r).takeFrame ch f := by
  unfold State.linkSymbol
  rw [h]
  rfl

theorem State.linkSymbol_moved {y : LinkSymbol} {r : Receiver}
    (h : (s.chan ch).receiver.symbol (s.chan ch).strict y = (r, none)) : s.linkSymbol ch y = s.receiving ch r := by
  unfold State.linkSymbol
  rw [h]
  rfl

theorem Receiver.bit_short {st b : Bool} {bits : List Bool} (h : bits.length < 64)
    (hlast : (!st && bits.length + 1 == 64) = false) :
    (Receiver.counting st bits).bit b = (.counting st (bits ++ [b]), none) := by
  rw [Receiver.bit, if_pos h, hlast]
  rfl

/-- With strict off the 64th bit is the frame. -/
theorem Receiver.bit_last {b : Bool} {bits : List Bool} (h : bits.length = 63) :
    (Receiver.counting false bits).bit b = (.waiting, some (.whole (parseSample (bits ++ [b])))) := by
  rw [Receiver.bit, h]
  rfl

/-- The bits of a frame after its sync, with strict off. -/
theorem State.linkBits {bits : List Bool} (hne : bits ≠ []) : ∀ {s : State} {acc : List Bool},
    (s.chan ch).receiver = .counting false acc → acc.length + bits.length = 64 →
    (bits.map LinkSymbol.bit).foldl (State.linkSymbol ch) s =
      (s.receiving ch .waiting).takeFrame ch (.whole (parseSample (acc ++ bits))) := by
  induction bits with
  | nil => exact absurd rfl hne
  | cons b bits ih =>
    intro s acc hr hlen
    rw [List.length_cons] at hlen
    rw [List.map_cons, List.foldl_cons]
    by_cases hend : bits = []
    · subst hend
      exact State.linkSymbol_taken (by rw [hr]; exact Receiver.bit_last (by simpa using hlen))
    · have hpos : 0 < bits.length := List.length_pos_iff.mpr hend
      have hnext : (acc ++ [b]).length + bits.length = 64 := by rw [List.length_append, List.length_singleton]; omega
      have hmore : (!false && acc.length + 1 == 64) = false := by
        rw [Bool.not_false, Bool.true_and, beq_eq_false_iff_ne]; omega
      rw [State.linkSymbol_moved (by rw [hr]; exact Receiver.bit_short (by omega) hmore),
        ih hend (by rw [State.receiving_chan]) hnext, State.receiving_receiving, List.append_assoc]
      rfl

/-- A whole frame arrives. -/
theorem Channel.takes.links {bits : List Bool} {symbols : List LinkSymbol} {after : Receiver}
    (h : (s.chan ch).takes symbols bits after) : symbols.foldl (State.linkSymbol ch) s =
      (s.receiving ch after).takeFrame ch (.whole (parseSample bits)) := by
  obtain ⟨hlen, ⟨hstrict, hr, rfl, rfl⟩ | ⟨hr, rfl, rfl⟩⟩ := h
  · have hne : bits ≠ [] := fun hb => by rw [hb] at hlen; contradiction
    have hsync : (s.chan ch).receiver.symbol (s.chan ch).strict .sync = (.counting false [], none) := by rw [hr, hstrict]; rfl
    rw [List.foldl_cons, State.linkSymbol_moved hsync,
      State.linkBits hne (acc := []) (by rw [State.receiving_chan]) (by simpa using hlen), State.receiving_receiving]
    rfl
  · refine State.linkSymbol_taken ?_
    rw [hr]
    exact congrArg (Prod.mk _) (if_neg (by omega))

/-- A frame of a wrong length arrives: a short one, or a long one. -/
theorem Channel.missizes.links {symbols : List LinkSymbol} {after : Receiver} {cnt : ChanCounters}
    (h : (s.chan ch).missizes symbols after cnt) : ∃ f e, (∀ c : Channel, c.frameError f = some e) ∧
      cnt = countError e (s.chan ch).cnt ∧
      symbols.foldl (State.linkSymbol ch) s = (s.receiving ch after).takeFrame ch f := by
  rcases h with ⟨st, bits, hr, hlen, rfl, rfl, rfl⟩ | ⟨bits, b, hr, hlen, rfl, rfl, rfl⟩
  · refine ⟨.short, .short, fun _ => rfl, rfl, State.linkSymbol_taken ?_⟩
    rw [hr]
    exact congrArg (Prod.mk _) (if_pos hlen)
  · refine ⟨.long, .long, fun _ => rfl, rfl, State.linkSymbol_taken ?_⟩
    rw [hr]
    exact if_neg (by omega)

/-- With strict on a bit up to the 64th takes no frame. -/
theorem exec_frameTaken_bit {bits : List Bool} (hs : TransmitInv s) (hr : (s.chan ch).receiver = .counting true bits)
    (hlen : bits.length < 64) (b : Bool) :
    exec (.frameTaken ch [.bit b]) s = .next (s.receiving ch (.counting true (bits ++ [b]))) := by
  have hmoved : s.linkSymbol ch (.bit b) = s.receiving ch (.counting true (bits ++ [b])) :=
    State.linkSymbol_moved (by rw [hr]; exact Receiver.bit_short hlen rfl)
  rw [exec_frameTaken, List.foldl_cons, List.foldl_nil, hmoved]
  exact congrArg _ (State.transmit_of_report hs (s.modChan_report _ _))

/-! ### A frame taken (R54) -/

/-- The channel with a frame taken: the receiver moved on, a running watchdog restarted, an error counted. -/
def Channel.took (after : Receiver) (err : Option FrameError) (c : Channel) : Channel :=
  { c with receiver := after, watchdog := c.watchdog.map fun _ => 8 * c.framePeriod, cnt := countErrorOpt err c.cnt }

/-- The use of a frame, as the service state directs. -/
def State.useTaken (ch : Chan) (err : Option FrameError) (f : Taken) (s : State) : State :=
  match (s.chan ch).service with
  | .inService => s.useFrame ch err f
  | .stalled => s.countGood ch err
  | .suspect => s

theorem State.takeFrame_receiving (s : State) (ch : Chan) (after : Receiver) (f : Taken) :
    (s.receiving ch after).takeFrame ch f =
      (s.modChan ch fun _ => (s.chan ch).took after ((s.chan ch).frameError f)).useTaken ch ((s.chan ch).frameError f) f := by
  cases ch <;> rfl

/-- A whole frame without an error. -/
theorem exec_frameTaken_good {symbols : List LinkSymbol} {bits : List Bool} {after : Receiver} {c : Channel}
    (h : (s.chan ch).takes symbols bits after) (hgood : (s.chan ch).frameError (.whole (parseSample bits)) = none)
    (hc : c = { s.chan ch with
      receiver := after, watchdog := (s.chan ch).watchdog.map fun _ => 8 * (s.chan ch).framePeriod }) :
    exec (.frameTaken ch symbols) s =
      .next ((s.modChan ch fun _ => c).useTaken ch none (.whole (parseSample bits))).transmit := by
  rw [exec_frameTaken, h.links, State.takeFrame_receiving, hgood, hc]
  rfl

/-- A frame of a wrong length. -/
theorem exec_frameTaken_missized {symbols : List LinkSymbol} {after : Receiver} {cnt : ChanCounters} {c : Channel}
    (h : (s.chan ch).missizes symbols after cnt)
    (hc : c = { s.chan ch with
      receiver := after, watchdog := (s.chan ch).watchdog.map fun _ => 8 * (s.chan ch).framePeriod, cnt := cnt }) :
    ∃ e f, exec (.frameTaken ch symbols) s = .next ((s.modChan ch fun _ => c).useTaken ch (some e) f).transmit := by
  obtain ⟨f, e, herr, rfl, hlinks⟩ := h.links
  refine ⟨e, f, ?_⟩
  rw [exec_frameTaken, hlinks, State.takeFrame_receiving, herr, hc]
  rfl

/-- An errored frame in a sample phase. -/
theorem exec_frameTaken_errored {symbols : List LinkSymbol} {after : Receiver} {cnt : ChanCounters} {c : Channel}
    (hst : (s.chan ch).jobState.sampling = true) (h : (s.chan ch).errs symbols after cnt)
    (hc : c = { s.chan ch with
      receiver := after, watchdog := (s.chan ch).watchdog.map fun _ => 8 * (s.chan ch).framePeriod, cnt := cnt }) :
    ∃ e f, exec (.frameTaken ch symbols) s = .next ((s.modChan ch fun _ => c).useTaken ch (some e) f).transmit := by
  rcases h with h | ⟨bits, htakes, hecho, rfl⟩
  · exact exec_frameTaken_missized h hc
  · have herr : (s.chan ch).frameError (.whole (parseSample bits)) = some .polarity :=
      if_pos (by rw [hst, Bool.true_and, bne_iff_ne]; exact hecho)
    refine ⟨.polarity, .whole (parseSample bits), ?_⟩
    rw [exec_frameTaken, htakes.links, State.takeFrame_receiving, herr, hc]
    rfl

/-- In a sample phase a frame is good when its echo is POL; in another state every whole frame is. -/
theorem Channel.frameError_echo {c : Channel} {x : Sample} (h : x.echo = c.pol) : c.frameError (.whole x) = none :=
  if_neg (by simp [h])

theorem Channel.frameError_unjudged {c : Channel} (h : c.jobState.sampling = false) (x : Sample) :
    c.frameError (.whole x) = none :=
  if_neg (by simp [h])

/-! ### The frame's use (R56, R58, R64, R65) -/

section
variable {err : Option FrameError} {f : Taken}

theorem State.useTaken_inService (h : (s.chan ch).service = .inService) : s.useTaken ch err f = s.useFrame ch err f := by
  simp only [State.useTaken, h]

theorem State.useTaken_stalled (h : (s.chan ch).service = .stalled) : s.useTaken ch err f = s.countGood ch err := by
  simp only [State.useTaken, h]

/-- In SUSPECT, in CONNECTING and with no job running a frame is used for nothing. -/
theorem State.useTaken_unused (h : (s.chan ch).service = .suspect ∨ (s.chan ch).service = .inService ∧
    ((s.chan ch).jobState = .connecting ∨ (s.chan ch).jobState = .idle)) : s.useTaken ch err f = s := by
  rcases h with h | ⟨h, hst⟩
  · simp only [State.useTaken, h]
  · rw [State.useTaken_inService h]
    unfold State.useFrame
    split
    · rfl
    · rcases hst with hst | hst <;> rw [hst]

theorem Channel.settleFrame_eq (sample : JobState) (j : Job) (c : Channel) : c.settleFrame sample j =
    if c.settleFrames ≤ j.phaseCount + 1 then { c with jobState := sample, job := some { j with phaseCount := 0, errRun := 0 } }
    else { c with job := some { j with phaseCount := j.phaseCount + 1 } } := rfl

/-- In STALLED an errored frame ends the good run (R56). -/
theorem State.countGood_errored (e : FrameError) : s.countGood ch (some e) = s.modChan ch fun c => { c with goodRun := 0 } :=
  if_pos rfl

theorem State.countGood_more (h : (s.chan ch).goodRun < 3) :
    s.countGood ch none = s.modChan ch fun c => { c with goodRun := c.goodRun + 1 } :=
  (if_neg (by decide)).trans (if_neg (by omega))

/-- The fourth good frame in a row returns the channel to service (R56). -/
theorem State.countGood_fourth (h : 3 ≤ (s.chan ch).goodRun) :
    s.countGood ch none = (s.modChan ch Channel.enterService).offer :=
  (if_neg (by decide)).trans (if_pos (by omega))

/-- A frame in a settle phase. -/
theorem State.useFrame_settle (hst : (s.chan ch).jobState = .settlePos ∨ (s.chan ch).jobState = .settleNeg)
    (hj : (s.chan ch).job = some j) : s.useFrame ch err f = s.modChan ch (Channel.settleFrame
      (if (s.chan ch).jobState = .settlePos then .samplePos else .sampleNeg) j) := by
  rcases hst with hst | hst <;> simp only [State.useFrame, hj, hst] <;> rfl

theorem State.useFrame_good (hst : (s.chan ch).jobState = .samplePos ∨ (s.chan ch).jobState = .sampleNeg)
    (hj : (s.chan ch).job = some j) (x : Sample) :
    s.useFrame ch none (.whole x) = s.goodSample ch ((s.chan ch).jobState == .samplePos) x j := by
  rcases hst with hst | hst <;> simp only [State.useFrame, hj, hst] <;> rfl

theorem State.useFrame_errored (hst : (s.chan ch).jobState = .samplePos ∨ (s.chan ch).jobState = .sampleNeg)
    (hj : (s.chan ch).job = some j) (e : FrameError) : s.useFrame ch (some e) f = s.sampleError ch j := by
  rcases hst with hst | hst <;> simp only [State.useFrame, hj, hst]

end

/-- A whole frame in a state that does not judge it, and a frame of a wrong length, come to the same in a settle phase (R64). -/
theorem State.useTaken_settles {c : Channel} {err : Option FrameError} {f : Taken} (hs : TransmitInv s)
    (hservice : c.service = .inService) (hst : c.jobState = .settlePos ∨ c.jobState = .settleNeg) (hj : c.job = some j) :
    ((s.modChan ch fun _ => c).useTaken ch err f).transmit = s.modChan ch fun _ =>
      if c.settleFrames ≤ j.phaseCount + 1 then
        { c with
          jobState := if c.jobState = .settlePos then .samplePos else .sampleNeg
          job := some { j with phaseCount := 0, errRun := 0 } }
      else { c with job := some { j with phaseCount := j.phaseCount + 1 } } := by
  have hchan : (s.modChan ch fun _ => c).chan ch = c := s.modChan_same _ _
  rw [State.useTaken_inService (by rw [hchan]; exact hservice), State.useFrame_settle (j := j) (by rw [hchan]; exact hst)
    (by rw [hchan]; exact hj), State.set_modChan, Channel.settleFrame_eq, hchan]
  exact State.transmit_of_report hs (s.modChan_report _ _)

theorem State.useTaken_nothing {c : Channel} {err : Option FrameError} {f : Taken} (hs : TransmitInv s)
    (h : c.service = .suspect ∨ c.service = .inService ∧ (c.jobState = .connecting ∨ c.jobState = .idle)) :
    ((s.modChan ch fun _ => c).useTaken ch err f).transmit = s.modChan ch fun _ => c := by
  rw [State.useTaken_unused (by rw [State.modChan_same]; exact h)]
  exact State.transmit_of_report hs (s.modChan_report _ _)

/-! ### A good sample and an errored frame (R65, R69) -/

theorem State.goodSample_more {positive : Bool} {x : Sample} (hl : x.leads = true) (h : j.phaseCount + 1 < j.n) :
    s.goodSample ch positive x j = s.modChan ch fun c => { c with job := some (j.addSample positive x) } := by
  have hmore : ¬j.n ≤ (j.addSample positive x).phaseCount := by
    rw [show (j.addSample positive x).phaseCount = j.phaseCount + 1 by cases positive <;> rfl]
    omega
  exact (if_pos hl).trans (if_neg hmore)

theorem State.goodSample_last {positive : Bool} {x : Sample} (hl : x.leads = true) (h : j.n ≤ j.phaseCount + 1) :
    s.goodSample ch positive x j = if positive then s.modChan ch (Channel.endPositive (j.addSample positive x))
      else s.completeJob ch (j.addSample positive x) := by
  have hlast : j.n ≤ (j.addSample positive x).phaseCount := by
    rw [show (j.addSample positive x).phaseCount = j.phaseCount + 1 by cases positive <;> rfl]
    exact h
  exact (if_pos hl).trans (if_pos hlast)

theorem State.goodSample_lost {positive : Bool} {x : Sample} (hl : x.leads = false) :
    s.goodSample ch positive x j = (s.abortJob ch .contactLost).offer :=
  if_neg (by rw [hl]; decide)

/-- The end of SAMPLE_POS drives POL negative: the second settle phase, or with S = 0 the second sample phase. -/
theorem Channel.endPositive_eq (h : j.errRun = 0) (c : Channel) : c.endPositive j = { c with
    pol := .negative, jobState := if c.settleFrames = 0 then .sampleNeg else .settleNeg
    job := some { j with phaseCount := 0 } } := by
  by_cases hS : c.settleFrames = 0
  · rw [if_pos hS, ← h]
    exact (if_pos hS).trans (by rw [h]; rfl)
  · rw [if_neg hS]
    exact if_neg hS

theorem State.sampleError_more (h : j.errRun < 2) :
    s.sampleError ch j = s.modChan ch fun c => { c with job := some { j with errRun := j.errRun + 1 } } :=
  if_neg (by omega)

theorem State.sampleError_third (h : 2 ≤ j.errRun) : s.sampleError ch j = (s.abortJob ch .linkError).offer :=
  if_pos (by omega)

end

end Sys2Proof.Machine
end


-- ==== Sys2Proof/Proofs/FailedAttempts.lean ====
section
/-! PROOFS. A job that a frame ends, LINK ERROR or CONTACT LOST; frames of a wrong length; what each outcome charges (R54, R68 to
R70, R82, R83). -/

namespace Sys2Proof.Machine

section
variable {s : State} {ch : Chan} {j : Job} {i q g : Nat}

/-! ### A station job that ends early (R70, R82) -/

/-- The attempt of an aborted station job is entered at the pocket it names (R82). -/
theorem State.abortJob_pocket (hj : (s.chan ch).job = some j) (hk : j.kind = .station i q g)
    (hq : q < s.track.pockets.length) (o : JobOutcome) :
    (s.abortJob ch o).pocket q = (s.pocket q).addAttempt ⟨i, ch, g, o, none, none⟩ := by
  have hend : (s.endJob ch).pocket q = s.pocket q := State.pocket_congr (s.endJob_track ch) q
  unfold State.abortJob
  rw [hj]
  dsimp only
  rw [hk]
  dsimp only
  rw [State.recordAttempt, State.pocket_congr (State.modChan_track _ _ _),
    State.modPocket_same (by rw [State.endJob_track]; exact hq), hend]

/-- With no request waiting, the offer of a channel is the judgement of the dwell work, and grants nothing (R79). -/
theorem State.offer_only_line (h : s.sched.requests = []) : Only [.line] s s.offer := by
  rw [State.offer_nothing h]
  exact s.judgeDwell_only

/-- What is left of s once a station job on channel ch, whose record had become c, has ended early with no request waiting, the
channel has been offered and the transmitter judged. -/
structure AbortedAlone (s t : State) (ch : Chan) (c : Channel) (o : JobOutcome) (i q g : Nat) : Prop where
  chan : t.chan ch = { c.endJob with cnt := countJob o c.cnt }
  pocket : t.pocket q = (s.pocket q).addAttempt ⟨i, ch, g, o, none, none⟩
  pocket_ne : ∀ r, r ≠ q → t.pocket r = s.pocket r
  other : t.chan (chanOther ch) = s.chan (chanOther ch)
  only : Only [.track, .line, .chanA, .chanB, .sched, .report, .choices] s t

theorem State.abortJob_alone {c : Channel} (hj : c.job = some j) (hk : j.kind = .station i q g)
    (hq : q < s.track.pockets.length) (hr : s.sched.requests = []) (o : JobOutcome) :
    AbortedAlone s (((s.modChan ch fun _ => c).abortJob ch o).offer).transmit ch c o i q g := by
  have hset := s.modChan_only ch fun _ => c
  have hself : (s.modChan ch fun _ => c).chan ch = c := s.modChan_same _ _
  have htrack : (s.modChan ch fun _ => c).track = s.track := s.modChan_track _ _
  have hother : (s.modChan ch fun _ => c).chan (chanOther ch) = s.chan (chanOther ch) := s.modChan_other _ _
  have hreq : (s.modChan ch fun _ => c).sched.requests = [] := by rw [State.modChan_sched]; exact hr
  generalize (s.modChan ch fun _ => c) = v at *
  have hjv : (v.chan ch).job = some j := by rw [hself]; exact hj
  have hunnamed (r : Nat) (hne : r ≠ q) : ¬(v.chan ch).names r := by
    rintro ⟨j', hj', i', g', hk'⟩
    obtain rfl := Option.some.inj (hjv.symm.trans hj')
    exact hne (JobKind.station.inj (hk'.symm.trans hk)).2.1
  have hrest : Only [.line, .report, .choices] (v.abortJob ch o) (v.abortJob ch o).offer.transmit :=
    ((State.offer_only_line ((v.abortJob_requests ch o).trans hreq)).mono (by decide)).trans
      ((State.transmit_only _).mono (by decide))
  have hchan := State.chan_congr (hrest .chanA (by decide)) (hrest .chanB (by decide))
  have hpocket := State.pocket_congr (hrest .track (by decide))
  refine ⟨?_, ?_, fun r hne => ?_, ?_, ?_⟩
  · rw [hchan, State.abortJob_chan_station hjv hk, hself]
  · rw [hpocket, State.abortJob_pocket hjv hk (by rw [htrack]; exact hq), State.pocket_congr htrack]
  · rw [hpocket, State.abortJob_pocket_unnamed (hunnamed r hne), State.pocket_congr htrack]
  · rw [hchan, State.abortJob_chan_other, hother]
  · exact ((hset.mono (by decide)).trans ((v.abortJob_only ch o).mono (by decide))).trans (hrest.mono (by decide))

/-! ### Charges (R83) -/

theorem Pocket.addAttempt_free {a : Attempt} (h : a.outcome.charged = false) (p : Pocket) :
    p.addAttempt a = { p with attempts := p.attempts ++ [a] } := by
  rw [Pocket.addAttempt, h]
  rfl

theorem Pocket.addAttempt_charged {a : Attempt} (h : a.outcome.charged = true) (p : Pocket) :
    p.addAttempt a = ({ p with attempts := p.attempts ++ [a] } : Pocket).charge := by
  rw [Pocket.addAttempt, h]
  rfl

theorem Pocket.charge_unlimited {p : Pocket} (h : p.retries = none) : p.charge = p := by
  rw [Pocket.charge, h]

theorem Pocket.charge_limited {p : Pocket} {r : Nat} (h : p.retries = some (r + 1)) :
    p.charge = { p with retries := some r, exhausted := p.exhausted || r == 0 } := by
  rw [Pocket.charge, h]
  rfl

/-! ### The obligation -/

/-- An errored frame in a sample phase is counted by the run, or at the third in a row ends the job. -/
theorem exec_frameTaken_error {symbols : List LinkSymbol} {after : Receiver} {cnt : ChanCounters} {c : Channel}
    (hservice : (s.chan ch).service = .inService)
    (hst : (s.chan ch).jobState = .samplePos ∨ (s.chan ch).jobState = .sampleNeg) (hj : (s.chan ch).job = some j)
    (h : (s.chan ch).errs symbols after cnt)
    (hc : c = { s.chan ch with
      receiver := after, watchdog := (s.chan ch).watchdog.map fun _ => 8 * (s.chan ch).framePeriod, cnt := cnt }) :
    exec (.frameTaken ch symbols) s = .next ((s.modChan ch fun _ => c).sampleError ch j).transmit := by
  have hsampling : (s.chan ch).jobState.sampling = true := by rcases hst with hst | hst <;> rw [hst] <;> rfl
  have hchan : (s.modChan ch fun _ => c).chan ch = c := s.modChan_same _ _
  obtain ⟨e, f, hexec⟩ := exec_frameTaken_errored hsampling h hc
  have hstc : c.jobState = .samplePos ∨ c.jobState = .sampleNeg := by rw [hc]; exact hst
  have hjc : c.job = some j := by rw [hc]; exact hj
  rw [hexec, State.useTaken_inService (by rw [hchan, hc]; exact hservice),
    State.useFrame_errored (by rw [hchan]; exact hstc) (by rw [hchan]; exact hjc)]

/-- A good frame with a lead flag clear ends the job. -/
theorem exec_frameTaken_lost {symbols : List LinkSymbol} {bits : List Bool} {after : Receiver} {c : Channel}
    (hservice : (s.chan ch).service = .inService)
    (hst : (s.chan ch).jobState = .samplePos ∨ (s.chan ch).jobState = .sampleNeg) (hj : (s.chan ch).job = some j)
    (h : (s.chan ch).takes symbols bits after) (hecho : (parseSample bits).echo = (s.chan ch).pol)
    (hlead : (parseSample bits).leads = false)
    (hc : c = { s.chan ch with
      receiver := after, watchdog := (s.chan ch).watchdog.map fun _ => 8 * (s.chan ch).framePeriod }) :
    exec (.frameTaken ch symbols) s = .next (((s.modChan ch fun _ => c).abortJob ch .contactLost).offer).transmit := by
  have hchan : (s.modChan ch fun _ => c).chan ch = c := s.modChan_same _ _
  have hstc : c.jobState = .samplePos ∨ c.jobState = .sampleNeg := by rw [hc]; exact hst
  have hjc : c.job = some j := by rw [hc]; exact hj
  rw [exec_frameTaken_good h (Channel.frameError_echo hecho) hc, State.useTaken_inService (by rw [hchan, hc]; exact hservice),
    State.useFrame_good (by rw [hchan]; exact hstc) (by rw [hchan]; exact hjc), State.goodSample_lost hlead]

/-- Settles O23: the errored frames of a sample phase, a lead flag clear, the bits of a strict frame, the frames of a wrong length
in the other states, and the charges. -/
theorem failedAttemptsRecorded : Obligations.FailedAttemptsRecorded := by
  unfold Obligations.FailedAttemptsRecorded
  refine ⟨?_, ?_, fun ch s bits b hs hr hlen => exec_frameTaken_bit hs hr hlen b, ?_, ?_⟩
  · intro ch s j symbols after cnt c hs hservice hst hj herrs hc
    have hexec := exec_frameTaken_error hservice hst hj herrs hc
    refine ⟨fun hrun => ?_, fun i q g hrun hk hr hq => ⟨_, hexec, ?_⟩⟩
    · rw [hexec, State.sampleError_more hrun, State.set_modChan]
      exact congrArg _ (State.transmit_of_report hs (s.modChan_report _ _))
    · have hjc : c.job = some j := by rw [hc]; exact hj
      obtain ⟨hself, hpocket, hne, hother, honly⟩ := State.abortJob_alone (s := s) (ch := ch) hjc hk hq hr .linkError
      rw [State.sampleError_third hrun]
      exact ⟨hself.trans (by rw [hc]; rfl), hpocket.trans (Pocket.addAttempt_free rfl _), hne, hother, honly .slot0 (by decide),
        honly .slot1 (by decide), honly .chutes (by decide), honly .cal (by decide)⟩
  · intro ch s j bits symbols after i q g hservice hst hj hk htakes hecho hlead hr hq
    obtain ⟨hself, hpocket, hne, hother, honly⟩ := State.abortJob_alone (s := s) (ch := ch) (c := { s.chan ch with
      receiver := after, watchdog := (s.chan ch).watchdog.map fun _ => 8 * (s.chan ch).framePeriod }) hj hk hq hr .contactLost
    exact ⟨_, exec_frameTaken_lost hservice hst hj htakes hecho hlead rfl, hself, hpocket, hne, hother,
      honly .cal (by decide)⟩
  · intro ch s symbols after cnt c hs hmis hc
    obtain ⟨e, f, hexec⟩ := exec_frameTaken_missized hmis hc
    rw [hexec]
    refine ⟨fun hservice => ?_, fun h => congrArg _ (State.useTaken_nothing hs h),
      fun j hservice hst hj => congrArg _ (State.useTaken_settles hs hservice hst hj)⟩
    rw [State.useTaken_stalled (by rw [State.modChan_same]; exact hservice), State.countGood_errored, State.set_modChan]
    exact congrArg _ (State.transmit_of_report hs (s.modChan_report _ _))
  · intro p a
    obtain ⟨r, e, hadd⟩ := p.addAttempt_eq a
    refine ⟨by rw [hadd], by rw [hadd], by rw [hadd], fun h => ?_, fun h => ?_⟩
    · have hcharged : a.outcome.charged = true := by rcases h with h | h | h <;> rw [h] <;> rfl
      exact ⟨fun hn => (Pocket.addAttempt_charged hcharged p).trans (Pocket.charge_unlimited hn),
        fun r hs => (Pocket.addAttempt_charged hcharged p).trans (Pocket.charge_limited hs)⟩
    · exact Pocket.addAttempt_free (by rcases h with h | h | h | h <;> rw [h] <;> rfl) p

end

end Sys2Proof.Machine
end


-- ==== Sys2Proof/Proofs/Judgements.lean ====
section
/-! PROOFS. What the judgement of an ACCEPTED result makes of its pocket and of its lot's counters: a class decided and committed,
NO CLASS referred or sent to the reject chute, or the next grade (R121, R125 to R127). -/

namespace Sys2Proof.Machine

section
variable {s : State} {q : Nat} {i : SlotId}

/-! ### The lot of a pocket (R135) -/

theorem State.bumpLotOf_named (hi : (s.pocket q).slot = some i) (f : LotCounters → LotCounters) :
    s.bumpLotOf q f = s.modSlot i fun sl => { sl with cnt := f sl.cnt } := by
  simp only [State.bumpLotOf, hi]

theorem State.bumpLotOf_pocket (s : State) (q : Nat) (f : LotCounters → LotCounters) (r : Nat) :
    (s.bumpLotOf q f).pocket r = s.pocket r := State.pocket_congr (s.bumpLotOf_only q f .track (by decide)) r

theorem State.modPocket_slot (s : State) (q : Nat) (f : Pocket → Pocket) (i : SlotId) : (s.modPocket q f).slot i = s.slot i := by
  cases i <;> rfl

theorem State.canTake_congr {s t : State} (hc : t.chutes = s.chutes) (hp : t.track.checkPos = s.track.checkPos) (c pos : Nat) :
    t.canTake c pos = s.canTake c pos := by
  unfold State.canTake
  rw [State.chute_congr hc, hp]

theorem countEarly_eq (src : Source) (g : Nat) (c : LotCounters) : countEarly src g c =
    { c with early := if src = .early then c.early.modify (g - 1) (satInc 4294967295) else c.early } := by
  unfold countEarly
  split
  · rfl
  · rfl

/-! ### A decision written and committed (R121) -/

/-- The pocket with its decision and target, the lot's counters advanced, before the commit. -/
def State.written (s : State) (q : Nat) (dec : Decision) (target : Nat) (count : LotCounters → LotCounters) : State :=
  (s.modPocket q fun p => { p with decision := some dec, target := some target }).bumpLotOf q count

theorem State.decide_written (s : State) (q : Nat) (dec : Decision) (target : Nat) (count : LotCounters → LotCounters) :
    s.decide q dec target count = (s.written q dec target count).commit q target := rfl

section
variable {dec : Decision} {c : Nat} {count : LotCounters → LotCounters}

theorem State.written_only (s : State) (q : Nat) (dec : Decision) (c : Nat) (count : LotCounters → LotCounters) :
    Only [.track, .slot0, .slot1] s (s.written q dec c count) :=
  ((s.modPocket_only q _).mono (by decide)).trans ((State.bumpLotOf_only _ q count).mono (by decide))

theorem State.written_track (s : State) (q : Nat) (dec : Decision) (c : Nat) (count : LotCounters → LotCounters) :
    (s.written q dec c count).track = (s.modPocket q fun p => { p with decision := some dec, target := some c }).track :=
  State.bumpLotOf_only _ q count .track (by decide)

theorem State.written_pocket (hq : q < s.track.pockets.length) :
    (s.written q dec c count).pocket q = { s.pocket q with decision := some dec, target := some c } := by
  rw [State.pocket_congr (s.written_track q dec c count), State.modPocket_same hq]

theorem State.written_cnt (hq : q < s.track.pockets.length) (hi : (s.pocket q).slot = some i) :
    ((s.written q dec c count).slot i).cnt = count (s.slot i).cnt := by
  have hnamed : ((s.modPocket q fun p => { p with decision := some dec, target := some c }).pocket q).slot = some i := by
    rw [State.modPocket_same hq]; exact hi
  rw [State.written, State.bumpLotOf_named hnamed, State.modSlot_same, State.modPocket_slot]

/-- A decision whose target can take the pocket commits it there. -/
theorem State.decide_takes (hq : q < s.track.pockets.length) (hi : (s.pocket q).slot = some i)
    (hcan : s.canTake c (s.track.positionOf q) = true) :
    (s.decide q dec c count).pocket q = { s.pocket q with
      state := .decided, decision := some dec, target := some c, chute := some c, overflow := false } ∧
      ((s.decide q dec c count).chute c).inFlight = (s.chute c).inFlight + 1 ∧
      ((s.decide q dec c count).slot i).cnt = count (s.slot i).cnt := by
  have honly := s.written_only q dec c count
  have htrack := s.written_track q dec c count
  have hlen : q < (s.written q dec c count).track.pockets.length := by rw [htrack, State.modPocket_length]; exact hq
  have hpos : (s.written q dec c count).track.positionOf q = s.track.positionOf q := by rw [htrack]; rfl
  have hchutes := honly .chutes (by decide)
  have hcheck : (s.written q dec c count).track.checkPos = s.track.checkPos := by rw [htrack]; rfl
  obtain ⟨hpocket, hchute, -, -, h0, h1, -⟩ :=
    State.commit_takes hlen (by rw [State.canTake_congr hchutes hcheck, hpos]; exact hcan)
  rw [State.decide_written]
  refine ⟨?_, ?_, ?_⟩
  · rw [hpocket, State.written_pocket hq]
  · rw [hchute, State.chute_congr hchutes]
  · rw [State.slot_congr h0 h1, State.written_cnt hq hi]

end

/-! ### A referral (R126, R127) -/

section
variable {dec : Decision} {g : Nat} {v : Int} {count : LotCounters → LotCounters}

/-- The pocket REFERRED with its decision, the decision counted, before the report. -/
def State.referring (s : State) (q : Nat) (dec : Decision) (count : LotCounters → LotCounters) : State :=
  (s.modPocket q fun p => { p with state := .referred, decision := some dec }).bumpLotOf q count

theorem State.refer_referring (s : State) (q : Nat) (dec : Decision) (g : Nat) (v : Int) (count : LotCounters → LotCounters) :
    s.refer q dec g v count =
      ((s.referring q dec count).handRefer ((s.referring q dec count).referOf q g v)).bumpLotOf q countReferred := rfl

theorem State.referring_track (s : State) (q : Nat) (dec : Decision) (count : LotCounters → LotCounters) :
    (s.referring q dec count).track = (s.modPocket q fun p => { p with state := .referred, decision := some dec }).track :=
  State.bumpLotOf_only _ q count .track (by decide)

theorem State.referring_pocket (hq : q < s.track.pockets.length) :
    (s.referring q dec count).pocket q = { s.pocket q with state := .referred, decision := some dec } := by
  rw [State.pocket_congr (s.referring_track q dec count), State.modPocket_same hq]

theorem State.referring_cnt (hq : q < s.track.pockets.length) (hi : (s.pocket q).slot = some i) :
    ((s.referring q dec count).slot i).cnt = count (s.slot i).cnt := by
  have hnamed : ((s.modPocket q fun p => { p with state := .referred, decision := some dec }).pocket q).slot = some i := by
    rw [State.modPocket_same hq]; exact hi
  rw [State.referring, State.bumpLotOf_named hnamed, State.modSlot_same, State.modPocket_slot]

theorem State.handRefer_pocket (s : State) (r : ReferReport) (q : Nat) : (s.handRefer r).pocket q = s.pocket q :=
  State.pocket_congr (s.handRefer_only r .track (by decide)) q

theorem State.refer_pocket (hq : q < s.track.pockets.length) :
    (s.refer q dec g v count).pocket q = { s.pocket q with state := .referred, decision := some dec } := by
  rw [State.refer_referring, State.bumpLotOf_pocket, State.handRefer_pocket, State.referring_pocket hq]

theorem State.refer_cnt (hq : q < s.track.pockets.length) (hi : (s.pocket q).slot = some i) :
    ((s.refer q dec g v count).slot i).cnt = countReferred (count (s.slot i).cnt) := by
  have hhand := State.handRefer_only (s.referring q dec count) ((s.referring q dec count).referOf q g v)
  rw [State.refer_referring, State.bumpLotOf_named (i := i) (by rw [State.handRefer_pocket, State.referring_pocket hq]; exact hi),
    State.modSlot_same, State.slot_congr (hhand .slot0 (by decide)) (hhand .slot1 (by decide)), State.referring_cnt hq hi]

/-- The REFER report joins the queue where there is room. -/
theorem State.refer_report (hq : q < s.track.pockets.length) (hi : (s.pocket q).slot = some i)
    (hroom : s.report.refer.length < 48) : (s.refer q dec g v count).report.refer = s.report.refer ++
      [⟨(s.pocket q).serial.getD 0, q, i, g, v, s.track.decidePos - s.track.positionOf q, true⟩] := by
  have hreport : (s.referring q dec count).report = s.report := State.bumpLotOf_only _ q count .report (by decide)
  have htrack := s.referring_track q dec count
  have hreferOf : (s.referring q dec count).referOf q g v =
      ⟨(s.pocket q).serial.getD 0, q, i, g, v, s.track.decidePos - s.track.positionOf q, true⟩ := by
    rw [State.referOf, State.referring_pocket hq, htrack]
    simp only [hi, Option.getD_some]
    rfl
  have hhand : ((s.referring q dec count).handRefer ((s.referring q dec count).referOf q g v)).report.refer =
      s.report.refer ++ [⟨(s.pocket q).serial.getD 0, q, i, g, v, s.track.decidePos - s.track.positionOf q, true⟩] := by
    rw [State.handRefer, if_pos (by rw [hreport]; exact hroom), State.modReport_report, hreport, hreferOf]
  rw [State.refer_referring, show (State.bumpLotOf q countReferred _).report = _ from
    State.bumpLotOf_only _ q countReferred .report (by decide), hhand]

end

/-! ### The judgement (R119 to R126) -/

/-- A judgement touches its own pocket alone. -/
theorem State.judgeAccepted_pocket_ne {r : Nat} (h : r ≠ q) (s : State) (g : Nat) (v : Int) (m : Marks) :
    (s.judgeAccepted q g v m).pocket r = s.pocket r := by
  have decided (dec : Decision) (c : Nat) (count : LotCounters → LotCounters) :
      (s.decide q dec c count).pocket r = s.pocket r := by
    rw [State.decide_written, State.commit_pocket_ne _ h, State.pocket_congr (s.written_track q dec c count),
      State.modPocket_ne h]
  unfold State.judgeAccepted State.applyJudgement
  dsimp only
  split
  · split
    · split
      · exact decided _ _ _
      · split
        · rw [State.refer_referring, State.bumpLotOf_pocket, State.handRefer_pocket,
            State.pocket_congr (s.referring_track q _ _), State.modPocket_ne h]
        · exact decided _ _ _
      · exact State.modPocket_ne h _
    · rfl
  · rfl

/-- A judgement leaves the transmitter to its frame. -/
theorem State.judgeAccepted_tx (s : State) (q g : Nat) (v : Int) (m : Marks) :
    (s.judgeAccepted q g v m).report.tx = s.report.tx := by
  have decided (dec : Decision) (c : Nat) (count : LotCounters → LotCounters) :
      (s.decide q dec c count).report.tx = s.report.tx := by
    rw [State.decide_written, (State.commit_retains _ q c).tx,
      show (s.written q dec c count).report = s.report from s.written_only q dec c count .report (by decide)]
  have handed (u : State) (r : ReferReport) : (u.handRefer r).report.tx = u.report.tx := by
    unfold State.handRefer
    split
    · rfl
    · rfl
  have bumped (u : State) (f : LotCounters → LotCounters) : (u.bumpLotOf q f).report = u.report :=
    u.bumpLotOf_only q f .report (by decide)
  unfold State.judgeAccepted State.applyJudgement
  dsimp only
  split
  · split
    · split
      · exact decided _ _ _
      · split
        · rw [State.refer_referring, bumped, handed, State.referring, bumped, State.modPocket_report]
        · exact decided _ _ _
      · rfl
    · rfl
  · rfl

theorem State.judgeAccepted_applies {d : LotDef} {g : Nat} {v : Int} {m : Marks} (hi : (s.pocket q).slot = some i)
    (hd : (s.slot i).definition = some d) (hst : (s.pocket q).state = .loaded ∨ (s.pocket q).state = .measuring)
    (hdec : (s.pocket q).decision = none) : s.judgeAccepted q g v m = s.applyJudgement q g v d (judgement d v m g) := by
  have hdef : s.definitionOf (s.pocket q) = some d := by simp only [State.definitionOf, hi, hd]
  have hjudged : (s.pocket q).judged = true := by
    rcases hst with hst | hst <;> rw [Pocket.judged, hst, hdec] <;> rfl
  simp only [State.judgeAccepted, hdef]
  exact if_pos hjudged

theorem State.judgeAccepted_judgedTo {d : LotDef} {g : Nat} {v : Int} {m : Marks} (hq : q < s.track.pockets.length)
    (hi : (s.pocket q).slot = some i) (hd : (s.slot i).definition = some d)
    (hst : (s.pocket q).state = .loaded ∨ (s.pocket q).state = .measuring) (hdec : (s.pocket q).decision = none) :
    s.judgedTo (s.judgeAccepted q g v m) q g i d v m (s.pocket q) := by
  rw [State.judgeAccepted_applies hi hd hst hdec]
  refine ⟨fun h => ?_, fun k src c h hc hcan => ?_, fun src cnt h hcnt => ⟨fun hr => ?_, fun hr hcan => ?_⟩⟩
  · rw [h]
    exact ⟨State.modPocket_same hq _, s.modPocket_slot q _ i⟩
  · rw [h, State.applyJudgement, ← hc]
    obtain ⟨hpocket, hchute, hslot⟩ := State.decide_takes (dec := ⟨some k, src, some g⟩)
      (count := countEarly src g ∘ countClass k) hq hi hcan
    exact ⟨hpocket, hchute, hslot.trans (countEarly_eq _ _ _)⟩
  · rw [h, State.applyJudgement, if_pos hr]
    refine ⟨State.refer_pocket hq, ?_, fun _ hroom => State.refer_report hq hi hroom⟩
    rw [State.refer_cnt hq hi, hcnt, Function.comp_apply, countEarly_eq]
    rfl
  · rw [h, State.applyJudgement, if_neg (by rw [hr]; decide)]
    obtain ⟨hpocket, -, hslot⟩ := State.decide_takes (dec := ⟨none, src, some g⟩)
      (count := countEarly src g ∘ countNoClass) hq hi hcan
    exact ⟨hpocket, hslot.trans ((countEarly_eq _ _ _).trans hcnt.symm)⟩

end

end Sys2Proof.Machine
end


-- ==== Sys2Proof/Proofs/Completions.lean ====
section
/-! PROOFS. The completion of a job: its attempt recorded, the source-fault run judged, an ACCEPTED result judged, a check's trim
set (R59, R67, R82, R84, R164). -/

namespace Sys2Proof.Machine

section
variable {s w : State} {ch : Chan} {c : Channel} {q : Nat}

/-! ### The job ended (R67) -/

/-- w is s but that the job of channel ch has ended and left its record c. -/
structure JobEnded (s w : State) (ch : Chan) (c : Channel) : Prop where
  only : Only [.chanA, .chanB, .sched] s w
  chan : w.chan ch = c
  other : w.chan (chanOther ch) = s.chan (chanOther ch)
  requests : w.sched.requests = s.sched.requests

theorem State.set_endJob (s : State) (ch : Chan) (c : Channel) :
    JobEnded s ((s.modChan ch fun _ => c).endJob ch) ch c.endJob :=
  ⟨((s.modChan_only ch _).mono (by decide)).trans (State.endJob_only _ ch), by cases ch <;> rfl, by cases ch <;> rfl,
    by cases ch <;> rfl⟩

theorem JobEnded.modChan (h : JobEnded s w ch c) (f : Channel → Channel) : JobEnded s (w.modChan ch f) ch (f c) :=
  ⟨h.only.trans ((w.modChan_only ch f).mono (by decide)), by rw [State.modChan_same, h.chan],
    (w.modChan_other ch f).trans h.other, by rw [State.modChan_sched, h.requests]⟩

theorem JobEnded.track (h : JobEnded s w ch c) : w.track = s.track := h.only .track (by decide)

theorem JobEnded.jobs (h : JobEnded s w ch c) (hc : c.job = none) (ho : (s.chan (chanOther ch)).job = none) (x : Chan) :
    (w.chan x).job = none := by
  rcases Chan.eq_or_other ch x with rfl | rfl
  · rw [h.chan]; exact hc
  · rw [h.other]; exact ho

/-! ### The attempt recorded (R82) -/

/-- x is s but that channel ch, its job ended, is c, and the attempt a stands at pocket q. -/
structure Attempted (s x : State) (ch : Chan) (c : Channel) (q : Nat) (a : Attempt) : Prop where
  only : Only [.track, .chanA, .chanB, .sched] s x
  track : x.track = (s.modPocket q (Pocket.addAttempt a)).track
  chan : x.chan ch = c
  requests : x.sched.requests = s.sched.requests

theorem JobEnded.recordAttempt (h : JobEnded s w ch c) (q : Nat) {a : Attempt} (ha : a.chan = ch) :
    Attempted s (w.recordAttempt q a) ch { c with cnt := countJob a.outcome c.cnt } q a := by
  subst ha
  refine ⟨(h.only.mono (by decide)).trans ((w.recordAttempt_only q a).mono (by decide)), ?_, ?_, ?_⟩
  · rw [State.recordAttempt, State.modChan_track, State.modPocket, State.modPocket, State.modTrack_track,
      State.modTrack_track, h.track]
  · rw [State.recordAttempt, State.modChan_same,
      State.chan_congr (w.modPocket_only q _ .chanA (by decide)) (w.modPocket_only q _ .chanB (by decide)), h.chan]
  · rw [State.recordAttempt, State.modChan_sched, State.modPocket_sched, h.requests]

section
variable {x : State} {a : Attempt}

theorem Attempted.pocket (h : Attempted s x ch c q a) (hq : q < s.track.pockets.length) :
    x.pocket q = (s.pocket q).addAttempt a :=
  (State.pocket_congr h.track q).trans (State.modPocket_same hq _)

theorem Attempted.pocket_ne (h : Attempted s x ch c q a) {r : Nat} (hr : r ≠ q) : x.pocket r = s.pocket r :=
  (State.pocket_congr h.track r).trans (State.modPocket_ne hr _)

theorem Attempted.length (h : Attempted s x ch c q a) : x.track.pockets.length = s.track.pockets.length := by
  rw [h.track, State.modPocket_length]

/-- A judgement after the attempt is one on the part as it stood before (R119). -/
theorem Attempted.judgedTo (h : Attempted s x ch c q a) {u t : State} {g : Nat} {i : SlotId} {d : LotDef} {v : Int} {m : Marks}
    {p : Pocket} (hu : x.judgedTo u q g i d v m p) (ht : Only [.line, .chanA, .chanB, .sched, .report, .choices] u t)
    (hrefer : s.report.tx ≠ none → t.report = u.report) : s.judgedTo t q g i d v m p := by
  have hslot : x.slot i = s.slot i := State.slot_congr (h.only .slot0 (by decide)) (h.only .slot1 (by decide)) i
  have hchutes : x.chutes = s.chutes := h.only .chutes (by decide)
  have hreport : x.report = s.report := h.only .report (by decide)
  have hcheck : x.track.checkPos = s.track.checkPos := by rw [h.track]; rfl
  have hdecide : x.track.decidePos = s.track.decidePos := by rw [h.track]; rfl
  have hpos : x.track.positionOf q = s.track.positionOf q := by rw [h.track]; rfl
  have hpocket : t.pocket q = u.pocket q := State.pocket_congr (ht .track (by decide)) q
  have hslots : t.slot i = u.slot i := State.slot_congr (ht .slot0 (by decide)) (ht .slot1 (by decide)) i
  have hchute (n : Nat) : t.chute n = u.chute n := State.chute_congr (ht .chutes (by decide)) n
  unfold State.judgedTo at hu ⊢
  simp only [hslot, State.chute_congr hchutes, hreport, State.canTake_congr hchutes hcheck, hdecide, hpos] at hu
  simp only [hpocket, hslots, hchute]
  obtain ⟨hundecided, hclass, hnone⟩ := hu
  refine ⟨hundecided, hclass, fun src cnt hj hcnt => ?_⟩
  obtain ⟨hreferred, hreject⟩ := hnone src cnt hj hcnt
  refine ⟨fun hr => ?_, hreject⟩
  obtain ⟨h1, h2, h3⟩ := hreferred hr
  exact ⟨h1, h2, fun htx hroom => by rw [hrefer htx]; exact h3 htx hroom⟩

end

/-! ### The channel offered, the transmitter judged (R79, R179) -/

theorem State.offered_only (u : State) : Only [.line, .chanA, .chanB, .sched, .report, .choices] u u.offer.transmit :=
  (u.offer_only.mono (by decide)).trans ((State.transmit_only _).mono (by decide))

theorem State.offered_pocket (u : State) (q : Nat) : u.offer.transmit.pocket q = u.pocket q :=
  State.pocket_congr (u.offered_only .track (by decide)) q

theorem State.offered_chan {u : State} (h : u.sched.requests = []) (x : Chan) : u.offer.transmit.chan x = u.chan x := by
  have ho : Only [.line, .report, .choices] u u.offer.transmit :=
    ((State.offer_only_line h).mono (by decide)).trans ((State.transmit_only _).mono (by decide))
  exact State.chan_congr (ho .chanA (by decide)) (ho .chanB (by decide)) x

/-- A channel that is not IN_SERVICE is granted nothing. -/
theorem State.offered_chan_late {u : State} (h : (u.chan ch).service ≠ .inService) :
    ∃ n, u.offer.transmit.chan ch = (u.chan ch).late n := by
  obtain ⟨n, hn⟩ := State.review_late h
  refine ⟨n, ?_⟩
  rw [State.chan_congr (State.transmit_only _ .chanA (by decide)) (State.transmit_only _ .chanB (by decide)),
    State.offer_chan, hn]

/-- While a frame is being sent the report stands. -/
theorem State.offered_report {u : State} (h : u.report.tx ≠ none) : u.offer.transmit.report = u.report := by
  obtain ⟨f, hf⟩ := Option.ne_none_iff_exists'.mp h
  rw [State.transmit_sending (by rw [State.offer_report]; exact hf), State.offer_report]

/-! ### A station job completes (R59, R67, R84) -/

section
variable {i g : Nat}

/-- A source fault below the third in a row. -/
theorem JobEnded.sourceFault (h : JobEnded s w ch c) (hrun : c.srcRun < 2) (i q g : Nat) :
    Attempted s (w.completeStation ch i q g .sourceFault) ch
      { c with srcRun := c.srcRun + 1, cnt := countJob .sourceFault c.cnt } q ⟨i, ch, g, .sourceFault, none, none⟩ := by
  have hjudge : w.judgeSource ch true = w.modChan ch fun x => { x with srcRun := c.srcRun + 1 } := by
    rw [State.judgeSource_faulted, h.chan, if_neg (by omega)]
  have hcomplete : w.completeStation ch i q g .sourceFault =
      (w.judgeSource ch true).recordAttempt q ⟨i, ch, g, .sourceFault, none, none⟩ := rfl
  rw [hcomplete, hjudge]
  exact (h.modChan _).recordAttempt q rfl

/-- The third in a row: the channel enters SUSPECT before the attempt is recorded (R58, R59). -/
theorem JobEnded.thirdFault (h : JobEnded s w ch c) (hrun : 2 ≤ c.srcRun) (i q g : Nat) :
    ∃ u, JobEnded s u ch { c with srcRun := c.srcRun + 1 } ∧ w.completeStation ch i q g .sourceFault =
      (u.enterSuspect ch).recordAttempt q ⟨i, ch, g, .sourceFault, none, none⟩ := by
  have hjudge : w.judgeSource ch true = (w.modChan ch fun x => { x with srcRun := c.srcRun + 1 }).enterSuspect ch := by
    rw [State.judgeSource_faulted, h.chan, if_pos (by omega)]
  have hcomplete : w.completeStation ch i q g .sourceFault =
      (w.judgeSource ch true).recordAttempt q ⟨i, ch, g, .sourceFault, none, none⟩ := rfl
  exact ⟨_, h.modChan fun x => { x with srcRun := c.srcRun + 1 }, by rw [hcomplete, hjudge]⟩

/-- What the entry to SUSPECT and the attempt leave, once the channel has been offered. -/
theorem JobEnded.suspects (h : JobEnded s w ch c) (hc : c.job = none) {a : Attempt} (ha : a.chan = ch)
    (hq : q < s.track.pockets.length) {t : State}
    (ht : t = (((w.enterSuspect ch).recordAttempt q a).offer).transmit) :
    (t.chan ch).service = .suspect ∧ (t.chan ch).srcRun = 0 ∧ (t.chan ch).watchdog = none ∧
      s.notes t .channelSuspect (.channel ch) ∧
      ((s.chan (chanOther ch)).job = none → t.pocket q = (s.pocket q).addAttempt a) := by
  subst ha ht
  have hsuspect : ((w.enterSuspect a.chan).recordAttempt q a).chan a.chan =
      { c.suspected with cnt := countJob a.outcome c.suspected.cnt } := by
    have hmod := State.modPocket_only (w.enterSuspect a.chan) q (Pocket.addAttempt a)
    rw [State.recordAttempt, State.modChan_same, State.chan_congr (hmod .chanA (by decide)) (hmod .chanB (by decide)),
      State.enterSuspect_chan (by rw [h.chan]; exact hc), h.chan]
  obtain ⟨n, hn⟩ := State.offered_chan_late (u := (w.enterSuspect a.chan).recordAttempt q a) (ch := a.chan)
    (by rw [hsuspect]; exact fun hs => (nomatch hs))
  rw [hn, hsuspect]
  refine ⟨rfl, rfl, rfl, State.notes_of_raise (u := w) (.of_report (h.only .report (by decide)) _) (by rw [h.track])
    ((w.enterSuspect_keeps a.chan).trans (.of_report ?_ _)), fun ho => ?_⟩
  · rw [State.offer_report]
    exact State.recordAttempt_only _ q a .report (by decide)
  · have htrack : (w.enterSuspect a.chan).track = s.track :=
      (State.enterSuspect_track_free (h.jobs hc ho)).trans h.track
    rw [State.offered_pocket, State.recordAttempt, State.pocket_congr (State.modChan_track _ _ _),
      State.modPocket_same (by rw [htrack]; exact hq), State.pocket_congr htrack]

/-- A measured result: the source-fault run is 0, the attempt carries the deviation and the marks, and an ACCEPTED one is
judged (R84). -/
theorem JobEnded.measured (h : JobEnded s w ch c) (i q g : Nat) (o : JobOutcome) (v : Int) (m : Marks) :
    ∃ x, Attempted s x ch { c with srcRun := 0, cnt := countJob o c.cnt } q ⟨i, ch, g, o, some v, some m⟩ ∧
      w.completeStation ch i q g (.measured o v m) = if o = .accepted then x.judgeAccepted q g v m else x := by
  refine ⟨_, (h.modChan fun x => { x with srcRun := 0 }).recordAttempt q (a := ⟨i, ch, g, o, some v, some m⟩) rfl, ?_⟩
  cases o <;> rfl

theorem stationResult_outcome {rref : Nat} {d : LotDef} {k : TempRecord} {trim : Option Trim} {j : Job} {o : JobOutcome} {v : Int}
    {m : Marks} (h : stationResult rref d k trim j = .measured o v m) : o = .accepted ∨ o = .unstable := by
  unfold stationResult at h
  dsimp only at h
  split at h
  · obtain ⟨rfl, -, -⟩ := StationResult.measured.inj h
    split
    · exact .inr rfl
    · exact .inl rfl
  · contradiction

/-- The record of the completion of a station job. -/
theorem JobEnded.completedAt (h : JobEnded s w ch c) (hc : c.job = none) {j : Job} {t : State}
    (ht : ∀ sl d, (s.pocket q).slot = some sl → (s.slot sl).definition = some d → t = ((w.completeStation ch i q g
      (stationResult (s.cal.working.pair j.range).rref d s.temp.record (s.cal.trim ch j.range) j)).offer).transmit) :
    s.completedAt t ch c j i q g := by
  intro sl d r hq hsl hd hr
  have htr := ht sl d hsl hd
  rw [← hr] at htr
  refine ⟨fun hfault hrun => ?_, fun hfault hrun => ?_, fun o v m a hmeas ha => ?_⟩
  · rw [hfault] at htr
    have hx := h.sourceFault hrun i q g
    rw [htr]
    exact ⟨(State.offered_pocket _ q).trans (hx.pocket hq), fun x hne => (State.offered_pocket _ x).trans (hx.pocket_ne hne),
      fun hreq => (State.offered_chan (hx.requests.trans hreq) ch).trans hx.chan⟩
  · rw [hfault] at htr
    obtain ⟨u, hu, hcomplete⟩ := h.thirdFault hrun i q g
    exact hu.suspects hc rfl hq (by rw [htr, hcomplete])
  · rw [hmeas] at htr
    obtain ⟨x, hx, hcomplete⟩ := h.measured i q g o v m
    rw [hcomplete] at htr
    rw [ha]
    have hpocket := hx.pocket hq
    rcases stationResult_outcome (hr.symm.trans hmeas) with rfl | rfl
    · rw [if_pos rfl] at htr
      have honly := x.judgeAccepted_only q g v m
      have hreq : (x.judgeAccepted q g v m).sched = x.sched := honly .sched (by decide)
      have hchan := State.chan_congr (honly .chanA (by decide)) (honly .chanB (by decide)) ch
      rw [htr]
      refine ⟨fun r hne => ?_, fun hr0 => ?_, fun hno => (nomatch hno), fun _ hst hdec => ?_⟩
      · rw [State.offered_pocket, State.judgeAccepted_pocket_ne hne, hx.pocket_ne hne]
      · rw [State.offered_chan (by rw [hreq, hx.requests, hr0]), hchan, hx.chan]
        rfl
      · rw [Pocket.addAttempt_free rfl] at hpocket
        have hslot : x.slot sl = s.slot sl :=
          State.slot_congr (hx.only .slot0 (by decide)) (hx.only .slot1 (by decide)) sl
        have hreport : (x.judgeAccepted q g v m).report.tx = s.report.tx := by
          rw [x.judgeAccepted_tx q g v m, show x.report = s.report from hx.only .report (by decide)]
        have hjudged := State.judgeAccepted_judgedTo (s := x) (g := g) (v := v) (m := m) (by rw [hx.length]; exact hq)
          (by rw [hpocket]; exact hsl) (by rw [hslot]; exact hd) (by rw [hpocket]; exact hst) (by rw [hpocket]; exact hdec)
        rw [hpocket] at hjudged
        exact hx.judgedTo hjudged (State.offered_only _) fun htx => State.offered_report (by rw [hreport]; exact htx)
    · rw [if_neg (by decide)] at htr
      rw [htr]
      exact ⟨fun r hne => (State.offered_pocket _ r).trans (hx.pocket_ne hne),
        fun hr0 => (State.offered_chan (hx.requests.trans hr0) ch).trans hx.chan,
        fun _ => (State.offered_pocket _ q).trans hpocket, fun hno => (nomatch hno)⟩

end

/-! ### A check completes (R164) -/

/-- A check within the drift limit, with no request waiting. -/
theorem JobEnded.checked (h : JobEnded s w ch c) {r : Nat} {v : Int} (hr : s.sched.requests = []) (h1 : 1 ≤ r) (h6 : r ≤ 6)
    (hlen : (s.cal.trims ch).length = 6) (hv : v.natAbs ≤ s.shared.driftLimit) {t : State}
    (ht : t = ((w.completeCheck ch r (some v)).offer).transmit) :
    t.chan ch = { c with srcRun := 0, cnt := { c.cnt with
        checks := satInc 4294967295 c.cnt.checks, trims := satInc 4294967295 c.cnt.trims } } ∧
      t.cal.trim ch r = some ⟨v, s.track.k⟩ ∧ t.cal.flag ch = false ∧ t.track = s.track := by
  have hshared : w.shared = s.shared := h.only .shared (by decide)
  have hcal : w.cal = s.cal := h.only .cal (by decide)
  have hcomplete := State.completeCheck_within (s := w) (ch := ch) (by rw [hshared]; exact hv) r
  have hcalt : (w.completeCheck ch r (some v)).cal = s.cal.checked ch r v s.track.k := by
    rw [hcomplete, State.acceptTrim_cal, State.modChan_cal, State.modChan_track, hcal, h.track]
  have hreq : (w.completeCheck ch r (some v)).sched.requests = [] := by
    rw [hcomplete, State.acceptTrim, State.modChan_sched, State.modCal_sched, State.modChan_sched, h.requests, hr]
  have htrack : (w.completeCheck ch r (some v)).track = s.track := by
    rw [hcomplete, State.acceptTrim, State.modChan_track, State.modCal_track, State.modChan_track, h.track]
  have honly := State.offered_only (w.completeCheck ch r (some v))
  subst ht
  rw [State.offered_chan hreq, show (w.completeCheck ch r (some v)).offer.transmit.cal = _ from honly .cal (by decide), hcalt,
    show (w.completeCheck ch r (some v)).offer.transmit.track = _ from honly .track (by decide), htrack, hcomplete,
    State.acceptTrim_chan, State.modChan_same, h.chan]
  exact ⟨rfl, Cal.checked_trim h1 h6 hlen v _, Cal.checked_flag r ch v _, rfl⟩

end

end Sys2Proof.Machine
end


-- ==== Sys2Proof/Proofs/GoodSamples.lean ====
section
/-! PROOFS. FRAME_TAKEN with a good frame in every phase and service state, and the completion of a job (R54, R56, R64, R65, R67). -/

namespace Sys2Proof.Machine

section
variable {s : State} {ch : Chan} {j : Job} {symbols : List LinkSymbol} {bits : List Bool} {after : Receiver} {c : Channel}

/-- A good sample as the statements spell it. -/
theorem Job.addSample_eq (p : Bool) (f : Sample) (j : Job) : j.addSample p f = { j with
    sdp := if p then j.sdp + f.dut else j.sdp, srp := if p then j.srp + f.ref else j.srp,
    sdn := if p then j.sdn else j.sdn + f.dut, srn := if p then j.srn else j.srn + f.ref,
    phaseCount := j.phaseCount + 1, errRun := 0,
    dutClipped := j.dutClipped || (f.dut == -8388608 || f.dut == 8388607),
    refClipped := j.refClipped || (f.ref == -8388608 || f.ref == 8388607) } := by
  cases p <;> rfl

/-- A good frame in a sample phase is a good sample. -/
theorem exec_frameTaken_sample (h : (s.chan ch).takes symbols bits after)
    (hc : c = { s.chan ch with
      receiver := after, watchdog := (s.chan ch).watchdog.map fun _ => 8 * (s.chan ch).framePeriod })
    (hservice : c.service = .inService) (hst : c.jobState = .samplePos ∨ c.jobState = .sampleNeg) (hj : c.job = some j)
    (hecho : (parseSample bits).echo = c.pol) : exec (.frameTaken ch symbols) s =
      .next ((s.modChan ch fun _ => c).goodSample ch (c.jobState == .samplePos) (parseSample bits) j).transmit := by
  have hchan : (s.modChan ch fun _ => c).chan ch = c := s.modChan_same _ _
  have hpol : c.pol = (s.chan ch).pol := by rw [hc]
  rw [exec_frameTaken_good h (Channel.frameError_echo (hecho.trans hpol)) hc,
    State.useTaken_inService (by rw [hchan]; exact hservice),
    State.useFrame_good (by rw [hchan]; exact hst) (by rw [hchan]; exact hj), hchan]

/-- A whole frame outside the sample phases is used as it comes. -/
theorem exec_frameTaken_unjudged (h : (s.chan ch).takes symbols bits after)
    (hc : c = { s.chan ch with
      receiver := after, watchdog := (s.chan ch).watchdog.map fun _ => 8 * (s.chan ch).framePeriod })
    (hst : c.jobState.sampling = false) : exec (.frameTaken ch symbols) s =
      .next ((s.modChan ch fun _ => c).useTaken ch none (.whole (parseSample bits))).transmit := by
  have hstate : c.jobState = (s.chan ch).jobState := by rw [hc]
  exact exec_frameTaken_good h (Channel.frameError_unjudged (by rw [← hstate]; exact hst) _) hc

/-! ### The last sample (R67) -/

theorem State.completeJob_station {i q g : Nat} (hk : j.kind = .station i q g) : s.completeJob ch j =
    ((s.endJob ch).completeStation ch i q g (s.stationResultOf ch q j)).offer := by
  simp only [State.completeJob, hk]

theorem State.completeJob_check (hk : j.kind = .check) : s.completeJob ch j =
    ((s.endJob ch).completeCheck ch j.range (checkResult (s.cal.working.pair j.range).c j)).offer := by
  simp only [State.completeJob, hk]

/-- The Deviation Unit reads nothing of the channels (R88). -/
theorem State.stationResultOf_set {q : Nat} {sl : SlotId} {d : LotDef} (hsl : (s.pocket q).slot = some sl)
    (hd : (s.slot sl).definition = some d) : (s.modChan ch fun _ => c).stationResultOf ch q j =
      stationResult (s.cal.working.pair j.range).rref d s.temp.record (s.cal.trim ch j.range) j := by
  have hdef : (s.modChan ch fun _ => c).definitionOf ((s.modChan ch fun _ => c).pocket q) = some d := by
    rw [State.pocket_congr (s.modChan_track _ _)]
    simp only [State.definitionOf, hsl]
    rw [State.slot_congr (s.modChan_slot0 _ _) (s.modChan_slot1 _ _), hd]
  simp only [State.stationResultOf, hdef, State.modChan_cal, State.modChan_temp]

/-- A completed station job (R59, R67, R82, R84). -/
theorem State.completeJob_completedAt {i q g : Nat} (hk : j.kind = .station i q g) :
    s.completedAt ((s.modChan ch fun _ => c).completeJob ch j).transmit ch c.endJob j i q g := by
  refine (s.set_endJob ch c).completedAt rfl fun sl d hsl hd => ?_
  rw [State.completeJob_station hk, State.stationResultOf_set hsl hd]

/-- A completed check within the drift limit (R164). -/
theorem State.completeJob_checked {v : Int} (hk : j.kind = .check)
    (hv : checkResult (s.cal.working.pair j.range).c j = some v) (hr : s.sched.requests = []) (h1 : 1 ≤ j.range)
    (h6 : j.range ≤ 6) (hlen : (s.cal.trims ch).length = 6) (hlimit : v.natAbs ≤ s.shared.driftLimit) {t : State}
    (ht : t = ((s.modChan ch fun _ => c).completeJob ch j).transmit) :
    t.chan ch = { c.endJob with srcRun := 0, cnt := { c.cnt with
        checks := satInc 4294967295 c.cnt.checks, trims := satInc 4294967295 c.cnt.trims } } ∧
      t.cal.trim ch j.range = some ⟨v, s.track.k⟩ ∧ t.cal.flag ch = false ∧ t.track = s.track := by
  refine (s.set_endJob ch c).checked hr h1 h6 hlen hlimit ?_
  rw [ht, State.completeJob_check hk, State.modChan_cal, hv]

/-! ### The return to service (R56) -/

/-- The fourth good frame in a row, with no request waiting. -/
theorem State.countGood_returns (hrun : 3 ≤ c.goodRun) (hr : s.sched.requests = []) {t : State}
    (ht : t = ((s.modChan ch fun _ => c).countGood ch none).transmit) :
    t.chan ch = { c with service := .inService, goodRun := 0, watchdog := some (8 * c.framePeriod) } ∧
      t.chan (chanOther ch) = s.chan (chanOther ch) ∧ t.track = s.track ∧ (s.line.phase ≠ .working → t.line = s.line) := by
  rw [State.countGood_fourth (by rw [State.modChan_same]; exact hrun), State.set_modChan] at ht
  generalize hu : (s.modChan ch fun _ => c.enterService) = u at ht
  have hreq : u.sched.requests = [] := by rw [← hu, State.modChan_sched]; exact hr
  have hline : u.line = s.line := by rw [← hu, State.modChan_line]
  subst ht
  refine ⟨?_, ?_, ?_, fun hp => ?_⟩
  · rw [State.offered_chan hreq, ← hu, State.modChan_same]
    rfl
  · rw [State.offered_chan hreq, ← hu, State.modChan_other]
  · rw [show u.offer.transmit.track = u.track from u.offered_only .track (by decide), ← hu, State.modChan_track]
  · rw [State.transmit_line, State.offer_nothing hreq, State.judgeDwell_open (.inl (by rw [hline]; exact hp)), hline]

/-- Settles O22: the settle phases, the sample phases up to the last sample, the completion, the states that use a frame for
nothing, and the good run. -/
theorem goodSampleAdded : Obligations.GoodSampleAdded := by
  unfold Obligations.GoodSampleAdded
  intro ch s bits symbols after f c hs htakes hf hc
  subst hf
  have set_transmit (c' : Channel) : (s.modChan ch fun _ => c').transmit = s.modChan ch fun _ => c' :=
    State.transmit_of_report hs (s.modChan_report _ _)
  refine ⟨fun j p j1 hservice hj hp hj1 => ⟨fun hst => ?_, fun hleads hecho => ?_⟩, fun h => ?_, fun hservice hst => ?_⟩
  · have hsampling : c.jobState.sampling = false := by rcases hst with hst | hst <;> rw [hst] <;> rfl
    rw [exec_frameTaken_unjudged htakes hc hsampling, State.useTaken_settles hs hservice hst hj]
  · rw [← Job.addSample_eq] at hj1
    have hsample (hst : c.jobState = .samplePos ∨ c.jobState = .sampleNeg) :=
      exec_frameTaken_sample htakes hc hservice hst hj hecho
    rw [← hp] at hsample
    refine ⟨fun hst hmore => ?_, fun hst hlast => ?_, fun hst hlast c0 hc0 => ?_⟩
    · rw [hsample hst, State.goodSample_more hleads hmore, State.set_modChan, ← hj1, set_transmit]
    · have hpos : p = true := by rw [hp, hst]; rfl
      have hrun : j1.errRun = 0 := by rw [hj1, Job.addSample_eq]
      rw [hsample (.inl hst), State.goodSample_last hleads hlast, if_pos hpos, State.set_modChan, ← hj1,
        Channel.endPositive_eq hrun, set_transmit]
    · have hneg : ¬p = true := by rw [hp, hst]; decide
      have hkind : j1.kind = j.kind := by rw [hj1]; exact j.addSample_kind ..
      have hrange : j1.range = j.range := by rw [hj1]; exact Job.addSample_range ..
      rw [hsample (.inr hst), State.goodSample_last hleads hlast, if_neg hneg, ← hj1]
      obtain rfl : c0 = c.endJob := hc0
      refine ⟨_, rfl, fun i q g hk => State.completeJob_completedAt (hkind.trans hk),
        fun v hk hv hr h1 h6 hlen hlimit => ?_⟩
      rw [← hrange] at hv h1 h6 ⊢
      exact State.completeJob_checked (hkind.trans hk) hv hr h1 h6 hlen hlimit rfl
  · have hsampling : c.jobState.sampling = false := by
      rcases h with ⟨-, hst | hst⟩ | ⟨-, hst⟩ <;> rw [hst] <;> rfl
    rw [exec_frameTaken_unjudged htakes hc hsampling, State.useTaken_nothing hs (h.elim .inr fun hx => .inl hx.1)]
  · have hexec := exec_frameTaken_unjudged htakes hc (by rw [hst]; rfl)
    have hchan : (s.modChan ch fun _ => c).chan ch = c := s.modChan_same _ _
    rw [State.useTaken_stalled (by rw [hchan]; exact hservice)] at hexec
    refine ⟨fun hrun => ?_, fun hrun hr => ⟨_, hexec, State.countGood_returns hrun hr rfl⟩⟩
    rw [hexec, State.countGood_more (by rw [hchan]; exact hrun), State.set_modChan, set_transmit]

end

end Sys2Proof.Machine
end


-- ==== Sys2Proof/Proofs/RequestSet.lean ====
section
/-! PROOFS. The request set formed at a settle: membership of the station requests and of the check requests (R75, R76). -/

namespace Sys2Proof.Machine

theorem Track.mem_stationNumbers (t : Track) (i : Nat) : i ∈ t.stationNumbers ↔ 1 ≤ i ∧ i ≤ t.stations.length := by
  simp only [Track.stationNumbers, List.mem_map, List.mem_range]
  constructor
  · rintro ⟨k, hk, rfl⟩
    omega
  · rintro ⟨h1, hn⟩
    exact ⟨i - 1, by omega, by omega⟩

theorem Pocket.wants_iff (p : Pocket) (i : Nat) : p.wants i = true ↔
    (p.state = .loaded ∨ p.state = .measuring) ∧ p.lap = 1 ∧ p.exhausted = false ∧ ∀ a ∈ p.attempts, a.station ≠ i := by
  simp only [Pocket.wants, Bool.and_eq_true, Bool.or_eq_true, beq_iff_eq, Bool.not_eq_true', List.all_eq_true, bne_iff_ne,
    and_assoc]

theorem State.definitionOf_slot {s : State} {p : Pocket} {sl : SlotId} (h : p.slot = some sl) :
    s.definitionOf p = (s.slot sl).definition := by
  rw [State.definitionOf, h]

section
variable {s : State}

/-- What station i requests, its pocket named by its number. -/
theorem State.stationRequest_eq_some {i : Nat} {x : SchedReq} :
    s.stationRequest i = some x ↔ ∃ q sl d, q = s.track.pocketAt (s.track.stations.getD (i - 1) 0) ∧
      (s.pocket q).wants i = true ∧ (s.pocket q).slot = some sl ∧ (s.slot sl).definition = some d ∧
      x = .station i q sl (s.pocket q).nextGrade (d.gradeAt (s.pocket q).nextGrade).samples d.range := by
  unfold State.stationRequest
  constructor
  · intro h
    dsimp only at h
    split at h
    · next sl d hsl hd =>
      rw [State.definitionOf_slot hsl] at hd
      obtain ⟨hw, hx⟩ := Option.ite_none_right_eq_some.mp h
      exact ⟨_, sl, d, rfl, hw, hsl, hd, (Option.some.inj hx).symm⟩
    · contradiction
  · rintro ⟨q, sl, d, rfl, hw, hsl, hd, rfl⟩
    rw [← State.definitionOf_slot hsl] at hd
    simp only [hsl, hd, hw, if_true]

/-- What a channel that is not SUSPECT requests: its due check. -/
theorem State.checkRequest_eq_some {ch : Chan} {x : SchedReq} :
    s.checkRequest ch = some x ↔ (s.chan ch).service ≠ .suspect ∧ ∃ r, s.dueCheck ch = some r ∧ .check ch r = x := by
  rw [State.checkRequest, Option.ite_none_left_eq_some, Option.map_eq_some_iff]

/-- The formed set holds what the stations request and what the channels request. -/
theorem State.mem_formRequests {x : SchedReq} : x ∈ s.formRequests.sched.requests ↔
    (∃ i, (1 ≤ i ∧ i ≤ s.track.stations.length) ∧ s.stationRequest i = some x) ∨ ∃ ch, s.checkRequest ch = some x := by
  have hchan (ch : Chan) : ch ∈ [Chan.A, .B] := by cases ch <;> decide
  simp only [State.formRequests, State.modSched_sched, List.mem_append, List.mem_filterMap, Track.mem_stationNumbers, hchan,
    true_and]

theorem State.station_mem_formRequests {i q : Nat} {sl : SlotId} {g n r : Nat} :
    .station i q sl g n r ∈ s.formRequests.sched.requests ↔
      (1 ≤ i ∧ i ≤ s.track.stations.length) ∧ s.stationRequest i = some (.station i q sl g n r) := by
  rw [State.mem_formRequests]
  constructor
  · rintro (⟨k, hk, h⟩ | ⟨ch, h⟩)
    · obtain ⟨_, _, _, -, -, -, -, hx⟩ := State.stationRequest_eq_some.mp h
      obtain ⟨rfl, -⟩ := SchedReq.station.inj hx
      exact ⟨hk, h⟩
    · obtain ⟨-, _, -, hx⟩ := State.checkRequest_eq_some.mp h
      contradiction
  · exact fun ⟨hi, h⟩ => .inl ⟨i, hi, h⟩

theorem State.check_mem_formRequests {ch : Chan} {r : Nat} :
    .check ch r ∈ s.formRequests.sched.requests ↔ (s.chan ch).service ≠ .suspect ∧ s.dueCheck ch = some r := by
  rw [State.mem_formRequests]
  constructor
  · rintro (⟨i, -, h⟩ | ⟨c, h⟩)
    · obtain ⟨_, _, _, -, -, -, -, hx⟩ := State.stationRequest_eq_some.mp h
      contradiction
    · obtain ⟨hs, _, hdue, hx⟩ := State.checkRequest_eq_some.mp h
      obtain ⟨rfl, rfl⟩ := SchedReq.check.inj hx
      exact ⟨hs, hdue⟩
  · exact fun ⟨hs, hdue⟩ => .inr ⟨ch, State.checkRequest_eq_some.mpr ⟨hs, r, hdue, rfl⟩⟩

end

/-- Settles O19: each request in the set is its station's or its channel's, by R75 and by R76 with R163. -/
theorem requestSetFormed : Obligations.RequestSetFormed := by
  unfold Obligations.RequestSetFormed
  intro s
  refine ⟨fun i q sl g n r => ?_, fun ch r => ?_⟩
  · rw [State.station_mem_formRequests, State.stationRequest_eq_some]
    constructor
    · rintro ⟨⟨h1, hn⟩, q', sl', d, hq, hw, hsl, hd, hx⟩
      obtain ⟨-, rfl, rfl, rfl, rfl, rfl⟩ := SchedReq.station.inj hx
      obtain ⟨hst, hlap, hex, hatt⟩ := (Pocket.wants_iff _ i).mp hw
      exact ⟨h1, hn, hq, hst, hlap, hex, hatt, hsl, rfl, d, hd, rfl, rfl⟩
    · rintro ⟨h1, hn, hq, hst, hlap, hex, hatt, hsl, rfl, d, hd, rfl, rfl⟩
      exact ⟨⟨h1, hn⟩, q, sl, d, hq, (Pocket.wants_iff _ i).mpr ⟨hst, hlap, hex, hatt⟩, hsl, hd, rfl⟩
  · rw [State.check_mem_formRequests, State.dueCheck_iff]
    exact Iff.rfl

end Sys2Proof.Machine
end


-- ==== Sys2Proof/Proofs/Deviations.lean ====
section
/-! PROOFS. The rounding of a quotient (R93), the result of a station job (R91 to R100), and the temperature set (R174). -/

namespace Sys2Proof.Machine

/-! ### Rounding (R93) -/

/-- The rounded magnitude of a quotient, its sign set aside. -/
def roundMagnitude (n den : Nat) : Nat := if den ≤ 2 * (n % den) then n / den + 1 else n / den

section
variable {num r : Int} {n den : Nat}

theorem roundDiv_natCast (n den : Nat) : roundDiv n den = roundMagnitude n den := rfl

theorem roundDiv_of_neg (h : num < 0) : roundDiv num den = -(roundMagnitude num.natAbs den : Int) := if_pos h

theorem roundDiv_of_nonneg (h : 0 ≤ num) : roundDiv num den = roundMagnitude num.natAbs den := if_neg (not_lt.mpr h)

theorem roundMagnitude_zero (h : 0 < den) : roundMagnitude 0 den = 0 := by
  simp [roundMagnitude, h.ne']

/-- The sign is set aside and restored: a quotient and its negative round alike. -/
theorem roundDiv_neg (h : 0 < den) (num : Int) : roundDiv (-num) den = -roundDiv num den := by
  rcases lt_trichotomy num 0 with hneg | rfl | hpos
  · rw [roundDiv_of_nonneg (by omega), roundDiv_of_neg hneg, Int.natAbs_neg, neg_neg]
  · rw [neg_zero, roundDiv_of_nonneg le_rfl, Int.natAbs_zero, roundMagnitude_zero h, Nat.cast_zero, neg_zero]
  · rw [roundDiv_of_neg (by omega), roundDiv_of_nonneg hpos.le, Int.natAbs_neg]

/-- The remainder is dropped where twice it is below the divisor, and made up to the divisor elsewhere. -/
theorem roundMagnitude_mul (n den : Nat) :
    (2 * (n % den) < den ∧ roundMagnitude n den * den + n % den = n) ∨
      (den ≤ 2 * (n % den) ∧ roundMagnitude n den * den + n % den = n + den) := by
  have hdiv := Nat.div_add_mod' n den
  by_cases h : den ≤ 2 * (n % den)
  · rw [roundMagnitude, if_pos h]
    exact .inr ⟨h, by rw [Nat.succ_mul]; omega⟩
  · rw [roundMagnitude, if_neg h]
    exact .inl ⟨not_le.mp h, hdiv⟩

/-- r rounds num / den: it is nearest to it, and where it is half away it lies on the side away from zero. -/
def Rounds (num : Int) (den : Nat) (r : Int) : Prop :=
  2 * ((r * den - num).natAbs : Int) ≤ den ∧ (2 * ((r * den - num).natAbs : Int) = den → num.natAbs < r.natAbs * den)

theorem Rounds.neg (h : Rounds num den r) : Rounds (-num) den (-r) := by
  have herror : (-r * den - -num).natAbs = (r * den - num).natAbs := by
    rw [← Int.natAbs_neg]
    congr 1
    ring
  rw [Rounds, herror, Int.natAbs_neg, Int.natAbs_neg]
  exact h

/-- An exact quotient is its own rounding. -/
theorem Rounds.exact (hden : 0 < den) (h : Rounds num den r) (hdvd : (den : Int) ∣ num) : r * den = num := by
  have herror : (den : Int) ∣ r * den - num := Int.dvd_sub (Int.dvd_mul_left r den) hdvd
  obtain ⟨hnear, -⟩ := h
  exact sub_eq_zero.mp (Int.eq_zero_of_dvd_of_natAbs_lt_natAbs herror (by omega))

theorem rounds_natCast (hden : 0 < den) (n : Nat) : Rounds n den (roundDiv n den) := by
  have hmod := Nat.mod_lt n hden
  have hmul := roundMagnitude_mul n den
  rw [roundDiv_natCast, Rounds, Int.natAbs_natCast, Int.natAbs_natCast, ← Nat.cast_mul]
  omega

theorem rounds_roundDiv (hden : 0 < den) (num : Int) : Rounds num den (roundDiv num den) := by
  obtain ⟨n, rfl | rfl⟩ := num.eq_nat_or_neg
  · exact rounds_natCast hden n
  · rw [roundDiv_neg hden]
    exact (rounds_natCast hden n).neg

end

theorem checkResult_eq_some {c : Nat} {j : Job} {v : Int} (h : checkResult c j = some v) :
    v = roundDiv ((j.dutDiff * 1000000000 - c * j.refDiff) * 1000000) (c * j.refDiff.toNat) :=
  (Option.some.inj (Option.ite_none_right_eq_some.mp h).2).symm

/-- Settles O29: `roundDiv` rounds every exact quotient, and each quotient of the Deviation Unit is one `roundDiv`. -/
theorem quotientsRoundedOnce : Obligations.QuotientsRoundedOnce := by
  unfold Obligations.QuotientsRoundedOnce
  refine ⟨fun num den hden => ?_, fun _ _ _ _ _ => rfl, fun _ _ => ⟨rfl, rfl⟩, fun _ => rfl, fun _ _ _ => checkResult_eq_some,
    by decide⟩
  have hrounds := rounds_roundDiv hden num
  exact ⟨hrounds.1, hrounds.2, hrounds.exact hden, roundDiv_neg hden num⟩

/-! ### The result of a station job (R91 to R100) -/

/-- The source check fails for a clipped reference or a small Rf (R91). -/
theorem Job.sourceOk_eq_false_iff (j : Job) :
    j.sourceOk = false ↔ j.refClipped = true ∨ j.srp - j.srn < 80000 * (j.n : Int) := by
  rw [Job.sourceOk, Bool.and_eq_false_iff, Bool.not_eq_false', decide_eq_false_iff_not, not_le, Job.refDiff]

section
variable {rref : Nat} {d : LotDef} {t : TempRecord} {trim : Option Trim} {j : Job}

theorem stationResult_of_sourceOk (h : j.sourceOk = true) : stationResult rref d t trim j =
    .measured (if emfExceeds d.emfLimit j.emf then .unstable else .accepted)
      (if j.dutClipped then 999999 else saturate (devUnlimited rref d t trim j))
      ⟨j.dutClipped || saturates (devUnlimited rref d t trim j), trim.isNone, t.notCurrent⟩ := if_pos h

theorem stationResult_eq_sourceFault_iff : stationResult rref d t trim j = .sourceFault ↔ j.sourceOk = false := by
  cases h : j.sourceOk with
  | false => exact iff_of_true (if_neg (by simp [h])) rfl
  | true =>
    rw [stationResult_of_sourceOk h]
    exact iff_of_false (fun hno => nomatch hno) (fun hno => nomatch hno)

/-- A measured result in its parts. -/
theorem stationResult_measured {o : JobOutcome} {v : Int} {m : Marks} (h : stationResult rref d t trim j = .measured o v m) :
    o = (if emfExceeds d.emfLimit j.emf then .unstable else .accepted) ∧
    v = (if j.dutClipped then 999999 else saturate (devUnlimited rref d t trim j)) ∧
    m = ⟨j.dutClipped || saturates (devUnlimited rref d t trim j), trim.isNone, t.notCurrent⟩ := by
  cases hok : j.sourceOk with
  | false => exact absurd ((stationResult_eq_sourceFault_iff.mpr hok).symm.trans h) (fun hno => nomatch hno)
  | true => exact StationResult.measured.inj (h.symm.trans (stationResult_of_sourceOk hok))

end

section
variable {u : Int}

theorem saturate_below (h : u < -999999) : saturate u = -999999 := if_pos h

theorem saturate_above (h : 999999 < u) : saturate u = 999999 := by
  rw [saturate, if_neg (by omega), if_pos h]

theorem saturate_within (hlow : -999999 ≤ u) (hhigh : u ≤ 999999) : saturate u = u := by
  rw [saturate, if_neg (by omega), if_neg (by omega)]

theorem saturate_bounds (u : Int) : -999999 ≤ saturate u ∧ saturate u ≤ 999999 := by
  unfold saturate
  split_ifs <;> omega

theorem saturates_iff (u : Int) : saturates u = true ↔ u < -999999 ∨ 999999 < u := by
  simp only [saturates, Bool.or_eq_true, decide_eq_true_eq]

end

theorem emfExceeds_iff (limit : Nat) (e : Int) : emfExceeds limit e = true ↔ limit ≠ 0 ∧ limit < e.natAbs := by
  simp only [emfExceeds, Bool.and_eq_true, bne_iff_ne, decide_eq_true_eq]

theorem TempRecord.notCurrent_eq_false_iff (t : TempRecord) : t.notCurrent = false ↔ ∃ x, t = .current x := by
  cases t <;> simp [TempRecord.notCurrent]

/-- Settles O30: the source check decides between SOURCE FAULT and a measured result, and each part of that result is judged
by its own rule. -/
theorem deviationResults : Obligations.DeviationResults := by
  unfold Obligations.DeviationResults
  intro rref d t trim j
  refine ⟨stationResult_eq_sourceFault_iff.trans j.sourceOk_eq_false_iff, fun o v m u h hu => ?_⟩
  obtain rfl : u = devUnlimited rref d t trim j := hu
  have houtcome := (stationResult_outcome h).symm
  obtain ⟨ho, hv, rfl⟩ := stationResult_measured h
  have hunclipped (hclip : j.dutClipped = false) : v = saturate (devUnlimited rref d t trim j) := by
    rw [hv, hclip, if_neg Bool.false_ne_true]
  have hbounds : -999999 ≤ v ∧ v ≤ 999999 := by
    rw [hv]
    split
    · decide
    · exact saturate_bounds _
  refine ⟨hbounds.1, hbounds.2, fun hclip => hv.trans (if_pos hclip), fun hclip hlow => ?_, fun hclip hhigh => ?_,
    fun hclip hlow hhigh => ?_, ?_, Option.isNone_iff_eq_none, t.notCurrent_eq_false_iff, ?_, houtcome⟩
  · rw [hunclipped hclip, saturate_below hlow]
  · rw [hunclipped hclip, saturate_above hhigh]
  · rw [hunclipped hclip, saturate_within hlow hhigh]
  · rw [Bool.or_eq_true, saturates_iff]
  · show _ ↔ d.emfLimit ≠ 0 ∧ d.emfLimit < j.emf.natAbs
    rw [ho, ← emfExceeds_iff, ite_eq_left_iff]
    simp

/-! ### TEMP.SET (R174) -/

theorem clampTemp_ne_iff (v : Int) : clampTemp v ≠ v ↔ v < -4000 ∨ 12500 < v := by
  unfold clampTemp
  split_ifs <;> omega

/-- The clamped flag of the reply. -/
theorem bitCode_clamped (v : Int) :
    bitCode (clampTemp v != v) = [if v < -4000 ∨ 12500 < v then 0x01#8 else 0x00#8] := by
  by_cases h : v < -4000 ∨ 12500 < v
  · rw [if_pos h, bne_iff_ne.mpr ((clampTemp_ne_iff v).mpr h)]
    rfl
  · rw [if_neg h, bne_eq_false_iff_eq.mpr (not_not.mp (mt (clampTemp_ne_iff v).mp h))]
    rfl

/-- The owner's step. -/
theorem State.tempSet_eq (v : Int) (s : State) : s.tempSet v =
    (.ok (leSigned 2 (clampTemp v) ++ bitCode (clampTemp v != v)), { s with temp := ⟨.current (clampTemp v), true, 30000000⟩ }) :=
  rfl

theorem exec_tempSet (tag : Byte) (v : Int) (s : State) :
    exec (.tempSet tag v) s = .next (s.ask tag (.tempSet v) (State.tempSet v)).transmit := rfl

/-- Settles O52: the owner's answer holds the value taken and the clamped flag, and its step writes the temperature alone. -/
theorem tempSetTaken : Obligations.TempSetTaken := by
  unfold Obligations.TempSetTaken
  intro tag v s hs w hw
  obtain rfl : w = clampTemp v := hw
  rw [exec_tempSet, State.ask_answer hs tag (.tempSet v) (s.tempSet_eq v) rfl, ← bitCode_clamped]
  rfl

end Sys2Proof.Machine
end


-- ==== Sys2Proof/Proofs/LotTallies.lean ====
section
/-! PROOFS. The operations that leave the tables their lengths and each lot slot all but its counters: everything but a load, a
finish and the requests that write a slot (R108, R135, R184). -/

namespace Sys2Proof.Machine

/-! ### What such an operation keeps -/

/-- The chute table and the event table keep their lengths. -/
def SameLengths (s t : State) : Prop :=
  t.chutes.length = s.chutes.length ∧ t.report.events.length = s.report.events.length

theorem SameLengths.trans {s t u : State} (h : SameLengths s t) (k : SameLengths t u) : SameLengths s u :=
  ⟨k.1.trans h.1, k.2.trans h.2⟩

/-- The tables keep their lengths, and the slots all but their counters. -/
structure Tallies (s t : State) : Prop where
  lengths : SameLengths s t
  slot : ∀ i, ∃ n, t.slot i = { s.slot i with cnt := n }

theorem Tallies.refl (s : State) : Tallies s s := ⟨⟨rfl, rfl⟩, fun _ => ⟨_, rfl⟩⟩

theorem Tallies.trans {s t u : State} (h : Tallies s t) (k : Tallies t u) : Tallies s u := by
  refine ⟨h.lengths.trans k.lengths, fun i => ?_⟩
  obtain ⟨n, hn⟩ := h.slot i
  obtain ⟨m, hm⟩ := k.slot i
  exact ⟨m, by rw [hm, hn]⟩

theorem Tallies.ite {c : Prop} [Decidable c] {s t u : State} (h : Tallies s t) (k : Tallies s u) :
    Tallies s (if c then t else u) := by
  split
  · exact h
  · exact k

theorem Tallies.foldl {α : Type} {f : State → α → State} (h : ∀ s a, Tallies s (f s a)) (xs : List α) (s : State) :
    Tallies s (xs.foldl f s) := by
  induction xs generalizing s with
  | nil => exact .refl s
  | cons x xs ih => exact (h s x).trans (ih (f s x))

/-- The tables' lengths by the blocks written, with those of the two tables shown. -/
theorem Tallies.of_lengths {l : List Block} {s t : State} (h : Only l s t) (h0 : .slot0 ∉ l) (h1 : .slot1 ∉ l)
    (hl : SameLengths s t) : Tallies s t :=
  ⟨hl, fun i => ⟨(s.slot i).cnt, State.slot_congr (h .slot0 h0) (h .slot1 h1) i⟩⟩

/-- The blocks that hold the two tables and the slots. -/
def tallyBlocks : List Block := [.slot0, .slot1, .chutes, .report]

theorem Tallies.of_only {l : List Block} {s t : State} (h : Only l s t) (hl : ∀ b ∈ tallyBlocks, b ∉ l) : Tallies s t :=
  .of_lengths h (hl _ (by decide)) (hl _ (by decide))
    ⟨congrArg List.length (h .chutes (hl _ (by decide))),
      congrArg (fun r => r.events.length) (h .report (hl _ (by decide)))⟩

section
variable (s : State)

/-! ### Updates of one block -/

theorem State.modReport_tallies (f : Report → Report) (hf : (f s.report).events.length = s.report.events.length) :
    Tallies s (s.modReport f) :=
  .of_lengths (s.modReport_only f) (by decide) (by decide) ⟨rfl, hf⟩

theorem State.modChutes_tallies (f : List Chute → List Chute) (hf : (f s.chutes).length = s.chutes.length) :
    Tallies s (s.modChutes f) :=
  .of_lengths (s.modChutes_only f) (by decide) (by decide) ⟨hf, rfl⟩

theorem State.modChute_tallies (c : Nat) (f : Chute → Chute) : Tallies s (s.modChute c f) :=
  .ite (.refl s) (s.modChutes_tallies _ (List.length_modify ..))

/-- An update of the counters of one slot (R135, R188). -/
theorem State.modCnt_tallies (i : SlotId) (f : LotCounters → LotCounters) :
    Tallies s (s.modSlot i fun sl => { sl with cnt := f sl.cnt }) := by
  have h := s.modSlot_only i fun sl => { sl with cnt := f sl.cnt }
  refine ⟨⟨congrArg List.length (h .chutes (by decide)), congrArg (fun r => r.events.length) (h .report (by decide))⟩,
    fun x => ?_⟩
  rcases SlotId.eq_or_other i x with rfl | rfl
  · exact ⟨_, State.modSlot_same ..⟩
  · exact ⟨_, State.modSlot_other ..⟩

/-! ### Events and accounts -/

theorem State.raise_tallies (k : EventKind) (d : Detail) : Tallies s (s.raise k d) :=
  s.modReport_tallies _ (List.length_modify ..)

theorem State.account_tallies (c : Nat) (f : Chute → Chute) : Tallies s (s.account c f) := by
  unfold State.account
  dsimp only
  split
  · exact (s.modChute_tallies c f).trans (State.raise_tallies _ _ _)
  · exact s.modChute_tallies c f

theorem State.settleAccounts_tallies (q : Nat) : Tallies s (s.settleAccounts q) := by
  unfold State.settleAccounts
  split
  · exact .refl s
  · split
    case h_1 | h_2 => exact s.account_tallies _ _
    all_goals exact .refl s

theorem State.bumpLotOf_tallies (q : Nat) (f : LotCounters → LotCounters) : Tallies s (s.bumpLotOf q f) := by
  unfold State.bumpLotOf
  split
  · exact s.modCnt_tallies _ f
  · exact .refl s

theorem State.cutJets_tallies : Tallies s s.cutJets :=
  (Tallies.of_only (s.modLineCnt_only _) (by decide)).trans (State.modChutes_tallies _ _ (List.length_map ..))

theorem State.handRefer_tallies (r : ReferReport) : Tallies s (s.handRefer r) :=
  .ite (s.modReport_tallies _ rfl) ((s.modReport_tallies _ rfl).trans (.of_only (State.modLineCnt_only _ _) (by decide)))

/-! ### Commits and decisions (R121 to R144) -/

theorem State.modPocket_tallies (q : Nat) (f : Pocket → Pocket) : Tallies s (s.modPocket q f) :=
  .of_only (s.modPocket_only q f) (by decide)

theorem State.commit_tallies (q t : Nat) : Tallies s (s.commit q t) := by
  have commitTo (c : Nat) (o : Bool) : Tallies s (s.commitTo q c o) :=
    (s.modPocket_tallies q _).trans (State.account_tallies _ _ _)
  rcases s.commit_cases q t with ⟨-, e⟩ | ⟨a, -, -, -, e⟩ | ⟨-, e⟩ <;> rw [e]
  · exact commitTo _ _
  · exact (commitTo _ _).trans (State.bumpLotOf_tallies _ _ _)
  · exact ((s.modPocket_tallies q _).trans (State.raise_tallies _ _ _)).trans
      (.of_only (State.lineBlocked_only _) (by decide))

theorem State.retryPocket_tallies (q : Nat) : Tallies s (s.retryPocket q) := by
  unfold State.retryPocket
  split
  · exact s.commit_tallies _ _
  · exact .refl s

theorem State.retryHeld_tallies : Tallies s s.retryHeld := .foldl State.retryPocket_tallies _ s

theorem State.decide_tallies (q : Nat) (dec : Decision) (t : Nat) (f : LotCounters → LotCounters) :
    Tallies s (s.decide q dec t f) :=
  ((s.modPocket_tallies q _).trans (State.bumpLotOf_tallies _ _ _)).trans (State.commit_tallies _ _ _)

theorem State.refer_tallies (q : Nat) (dec : Decision) (g : Nat) (d : Int) (f : LotCounters → LotCounters) :
    Tallies s (s.refer q dec g d f) :=
  (((s.modPocket_tallies q _).trans (State.bumpLotOf_tallies _ _ _)).trans (State.handRefer_tallies _ _)).trans
    (State.bumpLotOf_tallies _ _ _)

theorem State.judgeAccepted_tallies (q g : Nat) (d : Int) (m : Marks) : Tallies s (s.judgeAccepted q g d m) := by
  unfold State.judgeAccepted
  dsimp only
  split
  · refine .ite ?_ (.refl s)
    unfold State.applyJudgement
    split
    · exact s.decide_tallies _ _ _ _
    · exact .ite (s.refer_tallies _ _ _ _ _) (s.decide_tallies _ _ _ _)
    · exact s.modPocket_tallies q _
  · exact .refl s

theorem State.answerReferral_tallies (q t : Nat) (src : Source) (f : LotCounters → LotCounters) :
    Tallies s (s.answerReferral q t src f) :=
  (((s.modPocket_tallies q _).trans (State.modReport_tallies _ _ rfl)).trans (State.bumpLotOf_tallies _ _ _)).trans
    (State.commit_tallies _ _ _)

theorem State.leaveDecide_tallies (q : Nat) : Tallies s (s.leaveDecide q) := by
  unfold State.leaveDecide
  split
  · exact .refl s
  · split
    · exact s.answerReferral_tallies _ _ _ _
    · exact s.decide_tallies _ _ _ _
    · unfold State.defaultMeasuring State.classifyLast
      split
      · split
        · exact .refl s
        · split
          · exact s.decide_tallies _ _ _ _
          · exact s.decide_tallies _ _ _ _
      · exact s.decide_tallies _ _ _ _
    all_goals exact .refl s

/-! ### Faults and SUSPECT (R45, R58) -/

theorem State.modLine_tallies (f : LineCtl → LineCtl) : Tallies s (s.modLine f) := .of_only (s.modLine_only f) (by decide)

theorem State.modChan_tallies (ch : Chan) (f : Channel → Channel) : Tallies s (s.modChan ch f) :=
  .of_only (s.modChan_only ch f) (by decide)

theorem State.raiseFault_tallies (k : FaultKind) (d : Detail) : Tallies s (s.raiseFault k d) := by
  have entry : Tallies s (s.faultEntry k d) :=
    (((s.modLine_tallies _).trans (.of_only (State.cutDwell_only _) (by decide))).trans (State.cutJets_tallies _)).trans
      (State.raise_tallies _ _ _)
  unfold State.raiseFault
  split
  · exact entry
  · exact entry
  · exact entry
  · exact entry
  · exact (s.raise_tallies _ _).trans (State.modLine_tallies _ _)
  · exact s.raise_tallies _ _

theorem State.enterSuspect_tallies (ch : Chan) : Tallies s (s.enterSuspect ch) :=
  (((s.modChan_tallies ch _).trans (State.raise_tallies _ _ _)).trans (.of_only (State.modSched_only _ _) (by decide))).trans
    (.ite (State.raiseFault_tallies _ _ _) (.refl _))

theorem State.judgeSource_tallies (ch : Chan) (faulted : Bool) : Tallies s (s.judgeSource ch faulted) :=
  .ite ((s.modChan_tallies ch _).trans (State.enterSuspect_tallies _ _)) (s.modChan_tallies ch _)

/-! ### Frames of the converter link (R53 to R69, R102) -/

theorem State.offer_tallies : Tallies s s.offer := .of_only s.offer_only (by decide)

theorem State.abortOffer_tallies (ch : Chan) (o : JobOutcome) : Tallies s (s.abortJob ch o).offer :=
  (Tallies.of_only (s.abortJob_only ch o) (by decide)).trans (State.offer_tallies _)

theorem State.completeCheck_tallies (ch : Chan) (r : Nat) (result : Option Int) :
    Tallies s (s.completeCheck ch r result) := by
  unfold State.completeCheck
  split
  · exact (s.modChan_tallies ch _).trans (State.judgeSource_tallies _ _ _)
  · have h := (s.modChan_tallies ch fun c => { c with cnt := countCheck c.cnt }).trans (State.judgeSource_tallies _ ch false)
    exact .ite (h.trans ((Tallies.of_only (State.modCal_only _ _) (by decide)).trans (State.modChan_tallies _ _ _)))
      (h.trans (State.enterSuspect_tallies _ _))

theorem State.completeStation_tallies (ch : Chan) (i q g : Nat) (r : StationResult) :
    Tallies s (s.completeStation ch i q g r) := by
  have h : Tallies s ((s.judgeSource ch (r == .sourceFault)).recordAttempt q (resultAttempt i ch g r)) :=
    (s.judgeSource_tallies _ _).trans (.of_only (State.recordAttempt_only _ _ _) (by decide))
  unfold State.completeStation State.handResult
  split
  · exact h.trans (State.judgeAccepted_tallies _ _ _ _ _)
  · exact h

theorem State.completeJob_tallies (ch : Chan) (j : Job) : Tallies s (s.completeJob ch j) := by
  have ended : Tallies s (s.endJob ch) := .of_only (s.endJob_only ch) (by decide)
  unfold State.completeJob
  dsimp only
  split
  · exact (ended.trans (State.completeStation_tallies _ _ _ _ _ _)).trans (State.offer_tallies _)
  · exact (ended.trans (State.completeCheck_tallies _ _ _ _)).trans (State.offer_tallies _)

theorem State.sampleError_tallies (ch : Chan) (j : Job) : Tallies s (s.sampleError ch j) :=
  .ite (s.abortOffer_tallies ch _) (s.modChan_tallies ch _)

theorem State.goodSample_tallies (ch : Chan) (positive : Bool) (f : Sample) (j : Job) :
    Tallies s (s.goodSample ch positive f j) :=
  .ite (.ite (.ite (s.modChan_tallies ch _) (s.completeJob_tallies ch _)) (s.modChan_tallies ch _))
    (s.abortOffer_tallies ch _)

theorem State.useFrame_tallies (ch : Chan) (err : Option FrameError) (f : Taken) : Tallies s (s.useFrame ch err f) := by
  unfold State.useFrame
  split
  · exact .refl s
  · split
    · exact .refl s
    · exact .refl s
    · exact s.modChan_tallies ch _
    · exact s.modChan_tallies ch _
    · split
      · exact s.goodSample_tallies ch _ _ _
      · exact s.sampleError_tallies ch _
    · split
      · exact s.goodSample_tallies ch _ _ _
      · exact s.sampleError_tallies ch _

theorem State.countGood_tallies (ch : Chan) (err : Option FrameError) : Tallies s (s.countGood ch err) :=
  .ite (s.modChan_tallies ch _) (.ite ((s.modChan_tallies ch _).trans (State.offer_tallies _)) (s.modChan_tallies ch _))

theorem State.linkSymbol_tallies (ch : Chan) (y : LinkSymbol) : Tallies s (s.linkSymbol ch y) := by
  have taken (u : State) (f : Taken) : Tallies u (u.takeFrame ch f) := by
    unfold State.takeFrame
    dsimp only
    split
    · exact (u.modChan_tallies ch _).trans (State.useFrame_tallies _ _ _ _)
    · exact (u.modChan_tallies ch _).trans (State.countGood_tallies _ _ _)
    · exact u.modChan_tallies ch _
  unfold State.linkSymbol
  dsimp only
  split
  · exact (s.modChan_tallies ch _).trans (taken _ _)
  · exact s.modChan_tallies ch _

theorem State.stallJob_tallies (ch : Chan) : Tallies s (s.stallJob ch) := .ite (s.abortOffer_tallies ch _) (.refl s)

/-! ### The settle and the line's own work of an index start (R31 to R33) -/

theorem State.fireChute_tallies (c : Nat) : Tallies s (s.fireChute c) := by
  unfold State.fireChute
  split
  · exact .refl s
  · exact .ite ((s.account_tallies c _).trans (State.modPocket_tallies _ _ _)) (.refl s)

theorem State.judgeLoadOk_tallies : Tallies s s.judgeLoadOk := .of_only s.judgeLoadOk_only (by decide)

theorem State.workedSettle_tallies : Tallies s s.workedSettle :=
  (((((s.modLine_tallies openDwell).trans (State.retryHeld_tallies _)).trans (State.judgeLoadOk_tallies _)).trans
    (.of_only (State.modSched_only _ _) (by decide))).trans (.foldl State.fireChute_tallies _ _)).trans (State.offer_tallies _)

theorem State.settle_tallies : Tallies s s.settle := by
  have falls : Tallies s s.motionFalls := (Tallies.of_only (s.modPins_only _) (by decide)).trans (State.modLine_tallies _ _)
  unfold State.settle
  dsimp only
  split
  · exact falls.trans (State.workedSettle_tallies _)
  · exact falls.trans (State.workedSettle_tallies _)
  all_goals exact (falls.trans (State.modLine_tallies _ _)).trans (State.retryHeld_tallies _)

theorem State.cutShort_tallies (ls cs : Bool) : Tallies s (s.cutShort ls cs) := by
  have counted : Tallies s (((s.modPins (Pins.sampled (s.track.p == 0) ls cs)).modLine indexLine).modLineCnt fun c =>
      { c with indexStarts := bump c.indexStarts }) :=
    ((Tallies.of_only (s.modPins_only _) (by decide)).trans (State.modLine_tallies _ _)).trans
      (.of_only (State.modLineCnt_only _ _) (by decide))
  have line : Tallies s (s.indexLineWork ls cs) :=
    .ite ((counted.trans (State.raise_tallies _ _ _)).trans (.of_only (State.modLineCnt_only _ _) (by decide))) counted
  exact (line.trans (.of_only (State.cutDwell_only _) (by decide))).trans (State.cutJets_tallies _)

/-! ### The transmitter (R179) -/

theorem Report.take_events_length (r : Report) (m : Msg) : (r.take m).events.length = r.events.length := by
  unfold Report.take
  split
  · rfl
  case h_3 =>
    split
    · rfl
    · exact List.length_set
  all_goals split <;> rfl

theorem State.takeFrom_tallies (l : List Msg) : Tallies s (s.takeFrom l) := by
  unfold State.takeFrom
  split
  · exact .refl s
  · split
    · exact .refl s
    · exact s.modReport_tallies _ (Report.take_events_length _ _)
    · exact (s.modReport_tallies _ (Report.take_events_length _ _)).trans (.of_only (State.modChoices_only _ _) (by decide))

theorem State.transmit_tallies : Tallies s s.transmit := s.takeFrom_tallies _

theorem State.transmitTop_tallies : Tallies s s.transmitTop := s.takeFrom_tallies _

theorem State.frameSent_tallies : Tallies s s.frameSent := by
  unfold State.frameSent
  split
  · exact .refl s
  · split
    · exact s.modReport_tallies _ rfl
    · exact s.modReport_tallies _ (Report.take_events_length _ _)

theorem State.place_tallies (f : Frame) : Tallies s (s.place f) := s.modReport_tallies _ rfl

/-! ### The requests -/

theorem State.enterRun_tallies (target : LineState) : Tallies s (s.enterRun target) := by
  have h (f : LineCtl → LineCtl) (c : Prop) [Decidable c] :
      Tallies s (if c then (s.modLine f).retryHeld else s.modLine f) :=
    .ite ((s.modLine_tallies f).trans (State.retryHeld_tallies _)) (s.modLine_tallies f)
  have ready (u : State) : Tallies u u.readyAtRest :=
    .ite ((u.modLine_tallies _).trans (State.judgeLoadOk_tallies _)) (.refl u)
  exact .ite (h _ _) ((h _ _).trans (ready _))

theorem State.enterStopping_tallies : Tallies s s.enterStopping := .of_only s.enterStopping_only (by decide)

theorem State.lineRequests_tallies : (∀ b m t, Tallies s (s.lineStart b m t).2) ∧ Tallies s s.lineStop.2 ∧
    Tallies s s.lineDrain.2 ∧ Tallies s s.lineResume.2 ∧ Tallies s s.lineClear.2 := by
  refine ⟨fun b m t => ?_, ?_, ?_, ?_, ?_⟩
  · unfold State.lineStart
    split
    · split
      · split
        · exact .refl s
        · exact (s.modLine_tallies _).trans (State.enterRun_tallies _ _)
      · exact .refl s
    · exact .refl s
  · unfold State.lineStop
    split
    · exact s.enterStopping_tallies
    · exact s.enterStopping_tallies
    all_goals exact .refl s
  · unfold State.lineDrain
    split
    · exact s.modLine_tallies fun l => { l with state := .drain, loadOk := false }
    · split
      · exact .refl s
      · exact s.enterRun_tallies _
    all_goals exact .refl s
  · unfold State.lineResume
    split
    · split
      · exact .refl s
      · exact s.enterRun_tallies _
    · exact .refl s
  · unfold State.lineClear
    split
    · exact s.modLine_tallies _
    · split
      · exact (s.modLine_tallies _).trans (.of_only (State.modTrack_only _ _) (by decide))
      · exact .refl s
    all_goals exact .refl s

theorem State.chuteSet_tallies (c a : Nat) (f : ChuteFields) : Tallies s (s.chuteSet c a f).2 := by
  unfold State.chuteSet
  split
  · exact .refl s
  · split
    · split
      · exact .refl s
      · split
        · unfold State.removeChute
          split
          · split
            · exact .refl s
            · exact s.account_tallies _ _
          · exact .refl s
        · unfold State.configureChute
          split
          · exact .refl s
          · exact s.account_tallies _ _
    · exact .refl s

theorem State.channelRequests_tallies : (∀ r, Tallies s (s.chanSet r).2) ∧ (∀ n, Tallies s (s.chanReset n).2) ∧
    ∀ n, Tallies s (s.chanRestore n).2 := by
  refine ⟨fun r => ?_, fun n => ?_, fun n => ?_⟩
  · unfold State.chanSet
    split
    · split
      · exact ((s.modChan_tallies _ _).trans (.of_only (State.modShared_only _ _) (by decide))).trans
          (.of_only (State.modCal_only _ _) (by decide))
      · exact .refl s
      · exact .refl s
    · exact .refl s
  · unfold State.chanReset
    split
    · exact .refl s
    · split
      · exact .refl s
      · exact (s.modChan_tallies _ _).trans (State.stallJob_tallies _ _)
      · exact s.modChan_tallies _ _
  · unfold State.chanRestore
    split
    · exact .refl s
    · split
      · exact .refl s
      · exact .refl s
      · exact ((s.modChan_tallies _ _).trans (.of_only (State.modCal_only _ _) (by decide))).trans (State.offer_tallies _)

theorem State.verdict_tallies (n c : Nat) : Tallies s (s.verdict n c).2 := by
  unfold State.verdict
  split
  · exact .refl s
  · split
    · exact .refl s
    · split
      · exact s.answerReferral_tallies _ _ _ _
      · unfold State.lateVerdict
        dsimp only
        split
        · exact .ite (s.bumpLotOf_tallies _ _) (.refl s)
        · exact .refl s

theorem State.boxExchanged_tallies (c : Nat) : Tallies s (s.boxExchanged c).2 := by
  unfold State.boxExchanged
  split
  · exact s.account_tallies _ _
  · exact .refl s

theorem State.countRead_tallies (g i c : Nat) : Tallies s (s.countRead g i c).2 := by
  have clear (g : Group) : Tallies s (s.clearGroup g) := by
    cases g with
    | line => exact .of_only (s.modLineCnt_only _) (by decide)
    | lot i => exact s.modCnt_tallies i fun _ => .zero
    | chute c => exact s.modChute_tallies _ _
    | chan ch => exact s.modChan_tallies _ _
    | link => exact .of_only (s.modLinkCnt_only _) (by decide)
  unfold State.countRead
  split
  · exact .refl s
  · exact .ite (clear _) (.refl s)
  · exact .refl s

theorem State.eventMask_tallies (m : Nat) : Tallies s (s.eventMask m).2 := by
  unfold State.eventMask
  split
  · exact s.modReport_tallies (fun r => { r with mask := BitVec.ofNat 14 m }) rfl
  · exact .refl s

/-- The requests that write a slot's state, definition or resident count. -/
def writesSlots : Request → Bool
  | .lotLoad _ | .lotArm _ | .lotFree _ | .lineReset | .pocketPurge _ => true
  | _ => false

/-- A request's owner leaves the slots all but their counters, but for the five that write them. -/
theorem State.owner_tallies {r : Request} (hr : writesSlots r = false) : Tallies s (s.owner r).2 := by
  obtain ⟨hident, htrack, hchan, hlot, hpocket, hcal⟩ := s.reads_state
  obtain ⟨hset, hreset, hrestore⟩ := s.channelRequests_tallies
  obtain ⟨hstart, hstop, hdrain, hresume, hclear⟩ := s.lineRequests_tallies
  have same {u : State} (h : u = s) : Tallies s u := h ▸ .refl s
  cases r with
  | lotLoad _ | lotArm _ | lotFree _ | lineReset | pocketPurge _ => contradiction
  | ident => exact same hident
  | trackRead => exact same htrack
  | chanRead c => exact same (hchan c)
  | lotRead i => exact same (hlot i)
  | pocketRead q => exact same (hpocket q)
  | calRead => exact same hcal
  | calWrite _ => exact .refl s
  | trackSet r =>
    rcases s.trackSet_cases r with h | ⟨-, -, h⟩ <;> rw [State.owner, h]
    · exact .refl s
    · exact (Tallies.of_only (s.modTrack_only _) (by decide)).trans (State.modChutes_tallies _ _ (List.length_map ..))
  | chuteSet c a f => exact s.chuteSet_tallies c a f
  | chanSet r => exact hset r
  | chanReset c => exact hreset c
  | chanRestore c => exact hrestore c
  | lineStart b m t => exact hstart b m t
  | lineStop => exact hstop
  | lineDrain => exact hdrain
  | lineResume => exact hresume
  | lineClear => exact hclear
  | verdict n c => exact s.verdict_tallies n c
  | boxExchanged c => exact s.boxExchanged_tallies c
  | tempSet v => exact .of_only (s.modTemp_only _) (by decide)
  | countRead g i c => exact s.countRead_tallies g i c
  | eventMask m => exact s.eventMask_tallies m

/-! ### The commands of the part itself and of its lines -/

theorem State.idle_tallies : Tallies s s.idle := by
  have same {u : State} (h0 : u.slot0 = s.slot0) (h1 : u.slot1 = s.slot1) (hl : SameLengths s u) : Tallies s u :=
    ⟨hl, fun i => ⟨_, State.slot_congr h0 h1 i⟩⟩
  unfold State.idle
  split
  · exact same rfl rfl ⟨List.length_map .., rfl⟩
  · exact same rfl rfl ⟨rfl, rfl⟩
  · exact same rfl rfl ⟨rfl, rfl⟩

end

theorem exec_tallies {c : Instr} {s t : State} (hc : c.request = none) (hp : ∀ m a b, c ≠ .powerOnReset m a b)
    (hi : ∀ l k, c ≠ .indexStart l k) (hr : ∀ b, c ≠ .requestTaken b) (he : exec c s = .next t) : Tallies s t := by
  have offered {u : State} (h : Tallies s u) : Tallies s u.transmit := h.trans u.transmit_tallies
  have given : Tallies s s.giveUp :=
    (Tallies.of_only (s.setReceiver_only _) (by decide)).trans (.of_only (State.modLinkCnt_only _ _) (by decide))
  cases c <;> simp only [Instr.request, reduceCtorEq] at hc
  case powerOnReset m a b => exact absurd rfl (hp m a b)
  case indexStart l k => exact absurd rfl (hi l k)
  case requestTaken b => exact absurd rfl (hr b)
  all_goals obtain rfl := Host.Outcome.next.inj he
  case settle => exact .ite (offered s.settle_tallies) (offered (.refl s))
  case frameTaken ch symbols => exact offered (.foldl (fun u y => u.linkSymbol_tallies ch y) symbols s)
  case watchdogExpiry ch =>
    exact .ite (offered (((s.modChan_tallies _ _).trans (State.raise_tallies _ _ _)).trans (State.stallJob_tallies _ _)))
      (offered (.refl s))
  case relaySettleExpiry ch => exact .ite (offered (s.modChan_tallies _ _)) (offered (.refl s))
  case dwellBudgetExpiry =>
    exact .ite (offered (((s.modLine_tallies _).trans (.of_only (State.cutDwell_only _) (by decide))).trans
      (.of_only (State.judgeDwell_only _) (by decide)))) (offered (.refl s))
  case motionTimerExpiry =>
    exact .ite (offered ((s.modLine_tallies _).trans (State.raiseFault_tallies _ _ _))) (offered (.refl s))
  case stallTimerExpiry =>
    exact .ite (offered (((s.modLine_tallies _).trans (State.raise_tallies _ _ _)).trans
      (.of_only (State.modLineCnt_only _ _) (by decide)))) (offered (.refl s))
  case jetCompletion c =>
    exact .ite (offered ((s.modChute_tallies c _).trans (.of_only (State.judgeDwell_only _) (by decide))))
      (offered (.refl s))
  case stalenessExpiry =>
    exact .ite (offered ((Tallies.of_only (s.modTemp_only _) (by decide)).trans (State.raise_tallies _ _ _)))
      (offered (.refl s))
  case linkFrameReceived bytes => exact offered (.of_only (Only.foldl State.linkByte_only bytes s) (by decide))
  case gapExpiry =>
    split
    · exact offered given
    · exact offered (.refl s)
  case huntingPause =>
    split
    · exact offered given
    · exact offered (.refl s)
    · exact offered (.refl s)
  case transmitEnd => exact s.frameSent_tallies
  case calWriteCompletion =>
    split
    · exact offered ((Tallies.of_only (s.modCal_only _) (by decide)).trans
        ((Tallies.of_only (State.modLink_only _ _) (by decide)).trans (State.place_tallies _ _)))
    · exact offered (.refl s)

end Sys2Proof.Machine
end


-- ==== Sys2Proof/Proofs/LotInvariant.lean ====
section
/-! PROOFS. The shape of the tables and the accounts of the lot slots over every step (R103, R108, R109, R111, R113, R114,
R117). -/

namespace Sys2Proof.Machine

/-! ### The shape -/

/-- The tables and the turret phase after an operation that keeps the geometry and the lengths. -/
theorem ShapeInv.of_same {s t : State} (h : ShapeInv s) (hg : SameGeometry s t)
    (hp : t.track.pockets.length = s.track.pockets.length) (hl : SameLengths s t) : ShapeInv t := by
  obtain ⟨hlen, h48, hphi, hchutes, hevents⟩ := h
  refine ⟨by rw [hp, hg.p, hlen], by rwa [hg.p], by rwa [hg.p, hg.phi], hl.1.trans hchutes, hl.2.trans hevents⟩

/-- The shape of the tables, and the accounts of the slots. -/
def LotBooks (s : State) : Prop := ShapeInv s ∧ LotsInv s

section
variable {s t : State}

/-! ### Operations that leave every part in its pocket -/

theorem SlotInv.tallies {i : SlotId} (h : SlotInv s i) (ht : Tallies s t) (hr : t.residents i = s.residents i) : SlotInv t i := by
  obtain ⟨n, hn⟩ := ht.slot i
  rw [SlotInv, hn, hr]
  exact h

theorem Tallies.state (h : Tallies s t) (i : SlotId) : (t.slot i).state = (s.slot i).state := by
  obtain ⟨n, hn⟩ := h.slot i
  rw [hn]

theorem LotsInv.tallies (h : LotsInv s) (ht : Tallies s t) (hr : ∀ i, t.residents i = s.residents i) : LotsInv t := by
  rw [lotsInv_iff] at h ⊢
  refine ⟨fun i => (h.1 i).tallies ht (hr i), fun i => ?_⟩
  rw [ht.state, ht.state]
  exact h.2 i

theorem LotBooks.keeps (h : LotBooks s) (he : Evolves s t) (ht : Tallies s t) : LotBooks t :=
  ⟨h.1.of_same he.sameGeometry he.length ht.lengths, h.2.tallies ht he.residents⟩

/-! ### One slot written (R107, R109, R111, R113, R114) -/

/-- A slot that keeps its resident count and is not DRAINING, in a state that count allows. -/
theorem LotsInv.writeSlot (h : LotsInv s) {i : SlotId} (ht : t.track = s.track) (ho : t.slot i.other = s.slot i.other)
    (hr : (t.slot i).resident = (s.slot i).resident)
    (hx : (t.slot i).state = .active ∨ (t.slot i).state ≠ .draining ∧ (s.slot i).resident = 0)
    (hd : (t.slot i).definition.isSome = ((t.slot i).state != .free))
    (ha : (t.slot i).state = .active → (s.slot i.other).state ≠ .active)
    (hp : (t.slot i).state = .pending → (s.slot i.other).state ≠ .pending) : LotsInv t := by
  obtain ⟨hcount, -, -, -⟩ := ((lotsInv_iff s).mp h).1 i
  have hres (x : SlotId) : t.residents x = s.residents x := by rw [State.residents, State.residents, ht]
  refine h.change ho (hres _) ⟨by rw [hr, hres, hcount], fun hnone => ?_, fun hdrain => ?_, hd⟩ ha hp
  · rcases hx with hx | ⟨-, hx⟩
    · rw [hx] at hnone
      simp at hnone
    · rw [hr, hx]
  · rcases hx with hx | ⟨hx, -⟩
    · rw [hx] at hdrain
      contradiction
    · exact absurd hdrain hx

/-- A slot made FREE that has no resident (R113, R114). -/
theorem LotsInv.freeSlot (h : LotsInv s) {i : SlotId} (ht : t.track = s.track) (hs : t.slot i = .freed)
    (ho : t.slot i.other = s.slot i.other) (h0 : (s.slot i).resident = 0) : LotsInv t := by
  refine h.writeSlot ht ho ?_ (.inr ⟨?_, h0⟩) ?_ ?_ ?_ <;> simp [hs, LotSlot.freed, h0]

theorem SlotState.loadable_iff (x : SlotState) : x.loadable = true ↔ x = .free ∨ x = .ready := by
  cases x <;> simp [SlotState.loadable]

theorem LotsInv.lotLoad (h : LotsInv s) (r : LotLoadReq) : LotsInv (s.lotLoad r).2 := by
  unfold State.lotLoad
  split
  · exact h
  · split
    · exact h
    · next i _ =>
      split
      · next hload =>
        split
        · exact h
        · obtain ⟨-, hnone, -, -⟩ := ((lotsInv_iff s).mp h).1 i
          have h0 : (s.slot i).resident = 0 := hnone (((SlotState.loadable_iff _).mp hload).imp_right .inl)
          refine h.writeSlot (State.modSlot_track ..) (State.modSlot_other ..) ?_ (.inr ⟨?_, h0⟩) ?_ ?_ ?_ <;>
            simp [State.modSlot_same, h0]
      · exact h

theorem LotsInv.lotArm (h : LotsInv s) (n : Nat) : LotsInv (s.lotArm n).2 := by
  unfold State.lotArm
  split
  · exact h
  · next i _ =>
    obtain ⟨-, hnone, -, hdef⟩ := ((lotsInv_iff s).mp h).1 i
    split
    case h_5 hready =>
      have h0 : (s.slot i).resident = 0 := hnone (.inr (.inl hready))
      rw [hready] at hdef
      split
      · exact h
      · next hpend =>
        unfold State.armReady
        split
        · next hact =>
          refine h.writeSlot (State.modSlot_track ..) (State.modSlot_other ..) ?_ ?_ ?_ ?_ ?_ <;>
            simp [State.modSlot_same, LotSlot.activate, State.activeSlot_eq_none hact, hdef]
          rfl
        · refine h.writeSlot (State.modSlot_track ..) (State.modSlot_other ..) ?_ (.inr ⟨?_, h0⟩) ?_ ?_ ?_ <;>
            simp [State.modSlot_same, hpend, hdef]
          rfl
    all_goals exact h

theorem LotsInv.lotFree (h : LotsInv s) (n : Nat) : LotsInv (s.lotFree n).2 := by
  unfold State.lotFree
  split
  · exact h
  · next i _ =>
    obtain ⟨-, hnone, -, -⟩ := ((lotsInv_iff s).mp h).1 i
    have freed (h0 : (s.slot i).resident = 0) : LotsInv (s.modSlot i fun _ => .freed) :=
      h.freeSlot (State.modSlot_track ..) (State.modSlot_same ..) (State.modSlot_other ..) h0
    split
    · next hst => exact freed (hnone (.inr (.inl hst)))
    · next hst => exact freed (hnone (.inr (.inr hst)))
    · split
      · next hx =>
        obtain ⟨hs, ho⟩ := s.retire_slot i .freed
        exact h.freeSlot (s.retire_only _ _ .track (by decide)) hs ho hx.1
      · exact h
    · exact h
    · exact h

/-! ### Finishes (R22, R108) -/

theorem State.retire_lengths (s : State) (i : SlotId) (e : LotEnding) : SameLengths s (s.retire i e) :=
  ⟨congrArg List.length (s.retire_only i e .chutes (by decide)), (s.retire_keeps .lotChange i e).length⟩

theorem State.finish_lengths (s : State) (q : Nat) (o : Finish) : SameLengths s (s.finish q o) :=
  ⟨by rw [State.finish_chutes, State.settleAccounts_chutes_length],
    (State.finish_keeps (k := .lotChange) (by decide) (by decide) s q o).length⟩

theorem State.finish_pockets_length (s : State) (q : Nat) (o : Finish) :
    (s.finish q o).track.pockets.length = s.track.pockets.length := by rw [State.finish_track, State.modPocket_length]

/-- A pocket that names no slot, which no run leaves occupied, is finished with the slots left alone. -/
theorem State.finish_slot_none (s : State) {q : Nat} (o : Finish) (hi : (s.pocket q).slot = none) (i : SlotId) :
    (s.finish q o).slot i = s.slot i := by
  have h := s.handedOver_only q o
  rw [State.finish_eq, hi]
  dsimp only
  split <;> exact State.slot_congr (h .slot0 (by decide)) (h .slot1 (by decide)) i

/-- A finish of any occupied pocket keeps the accounts of the slots. -/
theorem LotsInv.finish_occupied (h : LotsInv s) {q : Nat} (ho : (s.pocket q).occupied = true) (o : Finish) :
    LotsInv (s.finish q o) := by
  cases hi : (s.pocket q).slot with
  | some i => exact h.finish ho hi o
  | none =>
    refine h.congr (s.finish_slot_none o hi) fun i => ?_
    rw [State.residents_finish (State.lt_of_occupied ho), hi]
    simp

theorem LotBooks.finish (h : LotBooks s) {q : Nat} (ho : (s.pocket q).occupied = true) (o : Finish) :
    LotBooks (s.finish q o) :=
  ⟨h.1.of_same (s.finish_geometry q o) (s.finish_pockets_length q o) (s.finish_lengths q o), h.2.finish_occupied ho o⟩

theorem LotBooks.purgePockets (h : LotBooks s) (l : List Nat) : LotBooks (l.foldl State.purgePocket s) := by
  induction l generalizing s with
  | nil => exact h
  | cons q l ih =>
    refine ih ?_
    unfold State.purgePocket
    split
    · next ho => exact h.finish ho .purged
    · exact h

/-! ### Requests that write slots or install records -/

/-- With every record EMPTY no slot has a resident. -/
theorem State.residents_eq_zero (h : ∀ p ∈ s.track.pockets, p.state = .empty) (i : SlotId) : s.residents i = 0 := by
  rw [State.residents, List.countP_eq_zero]
  intro p hp
  simp [Pocket.occupied, h p hp]

theorem LotBooks.trackSet (h : LotBooks s) (r : TrackSetReq) : LotBooks (s.trackSet r).2 := by
  rcases s.trackSet_cases r with he | ⟨hset, hbad, he⟩ <;> rw [he]
  · exact h
  · obtain ⟨⟨-, -, -, hchutes, hevents⟩, hlots⟩ := h
    obtain ⟨-, hempty, -, -⟩ := State.trackSettable_iff.mp hset
    obtain ⟨hp8, hp48, -⟩ := geometry_of_trackSetBad hbad
    refine ⟨⟨List.length_replicate, hp48, fun _ => Nat.mod_lt _ (by omega), by simpa using hchutes, hevents⟩,
      hlots.congr (s := s) (fun i => by cases i <;> rfl) fun i => ?_⟩
    rw [State.residents_eq_zero hempty, State.residents_eq_zero]
    intro p hp
    rw [(List.mem_replicate.mp hp).2]
    rfl

/-- Two FREE slots and a track without parts (R26, R103, R117). -/
theorem lotsInv_freed (h0 : s.slot0 = .freed) (h1 : s.slot1 = .freed) (hp : ∀ p ∈ s.track.pockets, p.state = .empty) :
    LotsInv s := by
  have hslot (i : SlotId) : s.slot i = .freed := by cases i <;> assumption
  rw [lotsInv_iff]
  exact ⟨fun i => by simp [SlotInv, hslot, State.residents_eq_zero hp, LotSlot.freed],
    fun i => by simp [hslot, LotSlot.freed]⟩

theorem LotBooks.lineReset (h : LotBooks s) : LotBooks s.lineReset.2 := by
  obtain ⟨⟨hlen, h48, -, hchutes, hevents⟩, -⟩ := h
  refine ⟨⟨(List.length_map ..).trans hlen, h48, Nat.pos_of_ne_zero, (List.length_map ..).trans hchutes, hevents⟩,
    lotsInv_freed rfl rfl fun p hp => ?_⟩
  obtain ⟨_, -, rfl⟩ := List.mem_map.mp hp
  rfl

theorem State.lotFree_lengths (s : State) (n : Nat) : SameLengths s (s.lotFree n).2 := by
  have freed (i : SlotId) : SameLengths s (s.modSlot i fun _ => .freed) := by
    rw [SameLengths, State.modSlot_chutes, State.modSlot_report]
    exact ⟨rfl, rfl⟩
  unfold State.lotFree
  split
  · exact ⟨rfl, rfl⟩
  · split
    · exact freed _
    · exact freed _
    · split
      · exact s.retire_lengths _ _
      · exact ⟨rfl, rfl⟩
    all_goals exact ⟨rfl, rfl⟩

theorem LotBooks.owner (h : LotBooks s) (r : Request) : LotBooks (s.owner r).2 := by
  obtain ⟨hload, harm, hfree⟩ := s.lot_only
  have shape {u : State} (ht : u.track = s.track) (hl : SameLengths s u) : ShapeInv u :=
    h.1.of_same (.of_track ht) (by rw [ht]) hl
  have written {u : State} (ho : Only [.slot0, .slot1] s u) : ShapeInv u :=
    shape (ho .track (by decide))
      ⟨congrArg List.length (ho .chutes (by decide)), congrArg (fun r => r.events.length) (ho .report (by decide))⟩
  by_cases hr : movesParts r = false ∧ writesSlots r = false
  · exact h.keeps (s.owner_evolves hr.1) (s.owner_tallies hr.2)
  · cases r <;> simp [movesParts, writesSlots] at hr
    case trackSet r => exact h.trackSet r
    case lineReset => exact h.lineReset
    case lotLoad r => exact ⟨written (hload r), h.2.lotLoad r⟩
    case lotArm n => exact ⟨written (harm n), h.2.lotArm n⟩
    case lotFree n => exact ⟨shape (hfree n .track (by decide)) (s.lotFree_lengths n), h.2.lotFree n⟩
    case pocketPurge n =>
      rcases s.pocketPurge_cases n with he | ⟨-, he⟩ <;> rw [State.owner, he]
      · exact h
      · exact h.purgePockets _

/-! ### The Link Port (R168 to R171) -/

/-- What the Link Port and the transmitter do around an owner's rule. -/
theorem LotBooks.port (h : LotBooks s) {l : List Block} (ho : Only l s t) (hl : ∀ b ∈ l, b ∈ .pins :: portBlocks)
    (ht : Tallies s t) : LotBooks t :=
  h.keeps (.of_only (ho.mono hl) (by decide)) ht

theorem LotBooks.transmit (h : LotBooks s) : LotBooks s.transmit := h.port s.transmit_only (by decide) s.transmit_tallies

theorem LotBooks.transmitTop (h : LotBooks s) : LotBooks s.transmitTop :=
  h.port s.transmitTop_only (by decide) s.transmitTop_tallies

theorem LotBooks.place (h : LotBooks s) (f : Frame) : LotBooks (s.place f) :=
  h.port (s.place_only f) (by decide) (s.place_tallies f)

theorem LotBooks.bufferFrame (h : LotBooks s) (f : Frame) : LotBooks (s.bufferFrame f) :=
  h.port (s.bufferFrame_only f) (by decide) (.of_only (s.bufferFrame_only f) (by decide))

theorem LotBooks.countUnknown (h : LotBooks s) : LotBooks s.countUnknown :=
  h.port (s.modLinkCnt_only _) (by decide) (.of_only (s.modLinkCnt_only _) (by decide))

theorem LotBooks.sampleCalen (h : LotBooks s) (b : Bool) : LotBooks (s.sampleCalen b) :=
  h.port (s.modPins_only _) (by decide) (.of_only (s.modPins_only _) (by decide))

theorem LotBooks.replyCalWrite (h : LotBooks s) (tag : Byte) (r : Request) (ps : List CalPair) :
    LotBooks (State.replyIf tag r (s.calWrite tag ps)) := by
  have hw : LotBooks (s.calWrite tag ps).2 :=
    h.port (s.calWrite_only tag ps) (by decide) (.of_only (s.calWrite_only tag ps) (by decide))
  unfold State.replyIf
  split
  · exact hw.place _
  · exact hw

theorem LotBooks.ask (h : LotBooks s) (tag : Byte) (r : Request) : LotBooks (s.ask tag r (State.owner r)) := by
  unfold State.ask
  split
  · exact (h.owner r).place _
  · exact h.bufferFrame _

theorem LotBooks.judgeFrame (h : LotBooks s) (f : Frame) : LotBooks (s.judgeFrame f) := by
  unfold State.judgeFrame
  split
  · exact h.countUnknown
  · exact h.countUnknown.place _
  · exact h.place _
  · unfold State.handle
    split
    · exact h.replyCalWrite _ _ _
    · exact (h.owner _).place _

theorem LotBooks.takeFrameOf (h : LotBooks s) (b : Bool) : LotBooks (s.takeFrameOf b) := by
  unfold State.takeFrameOf
  split
  · exact h
  · exact LotBooks.judgeFrame ((h.sampleCalen b).port (State.modLink_only _ _) (by decide)
      (.of_only (State.modLink_only _ _) (by decide))) _

theorem LotBooks.exec_request (h : LotBooks s) {c : Instr} {tag : Byte} {r : Request} (hr : c.request = some (tag, r))
    (he : exec c s = .next t) : LotBooks t := by
  obtain hcommon | ⟨ps, b, rfl⟩ | ⟨m, rfl⟩ := request_cases hr
  · rw [exec_common hr hcommon] at he
    obtain rfl := Host.Outcome.next.inj he
    exact (h.ask tag r).transmit
  · obtain rfl := Host.Outcome.next.inj he
    split
    · exact ((h.sampleCalen b).replyCalWrite _ _ _).transmit
    · exact (h.bufferFrame _).transmit
  · obtain rfl := Host.Outcome.next.inj he
    exact (h.ask tag (.eventMask m)).transmitTop

/-! ### The index start (R15, R19, R31, R110, R111) -/

theorem State.askSlot_lengths (s : State) (q : Nat) : SameLengths s (s.askSlot q) := by
  refine ⟨congrArg List.length (s.askSlot_only q .chutes (by decide)), ?_⟩
  have leave (a : SlotId) : (s.leaveActive a).report.events.length = s.report.events.length := by
    unfold State.leaveActive
    split
    · exact (s.retire_lengths a _).2
    · rw [State.modSlot_report]
  have change (u : State) (i : SlotId) :
      ((u.modSlot i (LotSlot.activate u.cal.working.number)).raise .lotChange (.pocket q)).report.events.length =
        u.report.events.length := by
    rw [(State.raise_tallies _ _ _).lengths.2, State.modSlot_report]
  unfold State.askSlot
  split
  · unfold State.changeOver
    dsimp only
    split
    · rw [change, leave]
    · exact change _ _
  · rfl

theorem LotBooks.askSlot (h : LotBooks s) (q : Nat) : LotBooks (s.askSlot q) := by
  have ht : (s.askSlot q).track = s.track := s.askSlot_only q .track (by decide)
  exact ⟨h.1.of_same (.of_track ht) (by rw [ht]) (s.askSlot_lengths q), h.2.askSlot q⟩

theorem LotBooks.loadInto (h : LotBooks s) {q : Nat} (hq : q < s.track.pockets.length)
    (ho : (s.pocket q).occupied = false) {i : SlotId} (hi : s.activeSlot = some i) : LotBooks (s.loadInto q i) := by
  have honly := s.loadInto_only q i
  have ht := s.loadInto_track q i
  refine ⟨h.1.of_same ?_ ?_ ⟨congrArg List.length (honly .chutes (by decide)),
    congrArg (fun r => r.events.length) (honly .report (by decide))⟩, h.2.loadInto hq ho hi⟩
  · rw [SameGeometry, ht]
    rfl
  · rw [ht, State.modPocket_length]

theorem LotBooks.raiseFault (h : LotBooks s) (k : FaultKind) (d : Detail) : LotBooks (s.raiseFault k d) :=
  h.keeps (s.raiseFault_evolves k d) (s.raiseFault_tallies k d)

theorem LotBooks.handleLoad (h : LotBooks s) {q : Nat} (hq : q < s.track.pockets.length) (sensed : Bool) :
    LotBooks (s.handleLoad q sensed) := by
  have ht : (s.askSlot q).track = s.track := s.askSlot_only q .track (by decide)
  unfold State.handleLoad
  split
  · exact h
  · next ho =>
    split
    · unfold State.load
      dsimp only
      split
      · next i hi =>
        refine (h.askSlot q).loadInto (by rwa [ht]) ?_ hi
        rw [State.pocket_congr ht]
        simpa using ho
      · exact (h.askSlot q).raiseFault _ _
    · exact h.keeps (.of_only (s.modLineCnt_only _) (by decide)) (.of_only (s.modLineCnt_only _) (by decide))
    · exact h.raiseFault _ _
    · exact h

theorem State.handleCheck_lengths (s : State) (q : Nat) (sensed : Bool) : SameLengths s (s.handleCheck q sensed) := by
  have missed (c : Nat) : Tallies s (s.missAt q c) := (s.modPocket_tallies _ _).trans (State.account_tallies _ _ _)
  have lost : SameLengths s ((s.raise .partLost (.pocket q)).finish q .lost) :=
    (s.raise_tallies _ _).lengths.trans (State.finish_lengths _ _ _)
  unfold State.handleCheck
  split
  · exact (s.raiseFault_tallies _ _).lengths
  · exact ⟨rfl, rfl⟩
  · exact s.finish_lengths _ _
  · rw [State.ejectMiss_eq]
    exact (Tallies.ite (missed _) ((missed _).trans (State.raiseFault_tallies _ _ _))).lengths
  · exact lost
  · exact ⟨rfl, rfl⟩
  · exact lost
  all_goals exact ⟨rfl, rfl⟩

theorem LotBooks.handleCheck (h : LotBooks s) (q : Nat) (sensed : Bool) : LotBooks (s.handleCheck q sensed) := by
  have hlengths := s.handleCheck_lengths q sensed
  obtain ⟨he, ho⟩ | ⟨htar, u, o, hu, heq⟩ := s.handleCheck_cases q sensed
  · exact h.keeps he (.of_lengths ho (by decide) (by decide) hlengths)
  · have ht : u.track = s.track := hu .track (by decide)
    have hgeo := s.handleCheck_geometry q sensed
    rw [heq] at hlengths hgeo ⊢
    have hlots : LotsInv u := h.2.congr (State.slot_congr (hu .slot0 (by decide)) (hu .slot1 (by decide))) fun i => by
      rw [State.residents, State.residents, ht]
    refine ⟨h.1.of_same hgeo (by rw [State.finish_pockets_length, ht]) hlengths, hlots.finish_occupied ?_ o⟩
    rw [State.pocket_congr ht, Pocket.occupied_iff]
    exact targeted_ne_empty htar

theorem LotBooks.handleBoth (h : LotBooks s) (hp : s.track.p ≠ 0) (ls cs : Bool) : LotBooks (s.handleBoth ls cs) := by
  have chosen {u : State} (hu : LotBooks u) : LotBooks u.chosen :=
    hu.keeps (.of_only (u.modChoices_only _) (by decide)) (.of_only (u.modChoices_only _) (by decide))
  have hlt {u : State} (hu : LotBooks u) (hg : SameGeometry s u) : s.track.pocketAt 0 < u.track.pockets.length := by
    rw [hu.1.1, hg.p]
    exact Track.pocketAt_lt hp 0
  have hload := (h.handleLoad (hlt h rfl) ls).handleCheck (s.track.pocketAt s.track.checkPos) cs
  have hcheck := h.handleCheck (s.track.pocketAt s.track.checkPos) cs
  unfold State.handleBoth
  dsimp only
  split
  · split
    · exact chosen hload
    · exact chosen (hcheck.handleLoad (hlt hcheck (s.handleCheck_geometry _ _)) ls)
  · exact hload

theorem LotBooks.advance (h : LotBooks s) : LotBooks (s.modTrack Track.advance) := by
  obtain ⟨⟨hlen, h48, hphi, hrest⟩, hlots⟩ := h
  refine ⟨⟨hlen, h48, fun hp => ?_, hrest⟩, hlots.congr (s := s) (fun i => by cases i <;> rfl) fun _ => rfl⟩
  have hp : s.track.p ≠ 0 := hp
  simp only [State.modTrack_track, Track.advance, if_neg hp]
  exact Nat.mod_lt _ (Nat.pos_of_ne_zero hp)

theorem LotBooks.trackIndex (h : LotBooks s) (ls cs : Bool) : LotBooks (s.trackIndex ls cs) := by
  unfold State.trackIndex
  split
  · exact h.advance
  · next hp => exact LotBooks.advance ((h.handleBoth hp ls cs).keeps (State.leaveDecide_evolves _ _) (State.leaveDecide_tallies _ _))

theorem LotBooks.indexStart (h : LotBooks s) (ls cs : Bool) : LotBooks (s.indexStart ls cs) := by
  have htrack := (h.keeps (s.cutShort_evolves ls cs) (s.cutShort_tallies ls cs)).trackIndex ls cs
  rw [State.indexStart_eq]
  exact (htrack.keeps (.of_only (State.modCal_only _ _) (by decide)) (.of_only (State.modCal_only _ _) (by decide))).keeps
    (.of_only (State.judgeDrained_only _) (by decide)) (.of_only (State.judgeDrained_only _) (by decide))

/-! ### Every command and every step -/

theorem lotBooks_poweredOn (pins : Pins) (stored : StoredCal) (valid : Bool) (choices : Nat) (pending : List Instr) :
    LotBooks (State.poweredOn pins stored valid choices pending) :=
  ⟨⟨rfl, Nat.zero_le _, fun h => absurd rfl h, rfl, rfl⟩, lotsInv_freed rfl rfl fun _ hp => nomatch hp⟩

theorem LotBooks.exec (h : LotBooks s) {c : Instr} (he : exec c s = .next t) : LotBooks t := by
  cases hr : c.request with
  | some x => exact h.exec_request hr he
  | none =>
    by_cases hp : ∃ m a b, c = .powerOnReset m a b
    · obtain ⟨m, a, b, rfl⟩ := hp
      obtain rfl := Host.Outcome.next.inj he
      exact lotBooks_poweredOn _ _ _ _ _
    by_cases hi : ∃ l k, c = .indexStart l k
    · obtain ⟨ls, cs, rfl⟩ := hi
      obtain rfl := Host.Outcome.next.inj he
      split
      · exact h.transmit
      · exact (h.indexStart ls cs).transmit
    by_cases hb : ∃ b, c = .requestTaken b
    · obtain ⟨b, rfl⟩ := hb
      obtain rfl := Host.Outcome.next.inj he
      split
      · split
        · exact (h.takeFrameOf b).transmitTop
        · exact (h.takeFrameOf b).transmit
      · exact h.transmit
    push Not at hp hi hb
    exact h.keeps (exec_evolves hr hp hi hb he) (exec_tallies hr hp hi hb he)

/-- Settles O9: loads and finishes move a resident with the record they write; the requests write a slot without residents, or
keep its count; every other operation leaves the parts and the slots as they are. -/
theorem lotInvariantKept : Obligations.LotInvariantKept := by
  unfold Obligations.LotInvariantKept
  intro s t hshape hlots hstep
  have h : LotBooks s := ⟨hshape, hlots⟩
  rcases step_cases hstep with rfl | ⟨c, rest, -, he⟩
  · exact h.keeps s.idle_evolves s.idle_tallies
  · exact LotBooks.exec (s := { s with pending := rest }) h he

end

end Sys2Proof.Machine
end


-- ==== Sys2Proof/Proofs/LotArmFree.lean ====
section
/-! PROOFS. LOT.ARM and LOT.FREE by slot state (R109, R113, R114). -/

namespace Sys2Proof.Machine

section
variable {s : State} {i : SlotId}

/-! ### An answer behind a frame being sent (R180) -/

/-- The owner's state, with the reply in its slot. -/
theorem State.ask_sending {t : State} {a : Answer} {o : State → Answer × State} {f : Frame} (h : s.taking) (tag : Byte)
    (r : Request) (ho : o s = (a, t)) (hx : t.report.tx = some f) :
    (s.ask tag r o).transmit = t.place (replyFrame r.typeCode tag a.status a.fields) := by
  have hsend : (t.place (replyFrame r.typeCode tag a.status a.fields)).report.tx = some f := hx
  rw [State.ask_places h tag r ho, State.transmit_sending hsend]

/-! ### The ACTIVE and the PENDING slot, seen from one slot (R103) -/

theorem slotOf_num (i : SlotId) : slotOf i.num = some i := by cases i <;> rfl

/-- Beside a slot that is not ACTIVE, the other alone may be. -/
theorem State.activeSlot_of_other (h : (s.slot i).state ≠ .active) :
    s.activeSlot = if (s.slot i.other).state = .active then some i.other else none := by
  cases i with
  | s0 => exact if_neg h
  | s1 => exact congrArg (fun o => if s.slot0.state = .active then some SlotId.s0 else o) (if_neg h)

/-- Beside a slot that is not PENDING, the other alone may be. -/
theorem State.pendingSlot_of_other (h : (s.slot i).state ≠ .pending) :
    s.pendingSlot = if (s.slot i.other).state = .pending then some i.other else none := by
  cases i with
  | s0 => exact if_neg h
  | s1 => exact congrArg (fun o => if s.slot0.state = .pending then some SlotId.s0 else o) (if_neg h)

theorem LineState.worked_eq_false (x : LineState) : x.worked = false ↔ x ≠ .run ∧ x ≠ .drain := by
  cases x <;> simp [LineState.worked]

/-! ### A slot retired with room for its summary (R113, R182) -/

/-- The slot is FREE, and its summary stands last in the LOT.END queue; nothing else changes. -/
theorem State.retire_room {d : LotDef} (hd : (s.slot i).definition = some d) (hroom : s.report.lotEnd.length < 2)
    (e : LotEnding) : s.retire i e = { s.modSlot i (fun _ => .freed) with
      report := { s.report with lotEnd := s.report.lotEnd ++
        [⟨i, d.lotNumber, d.label, e, (s.slot i).activation.getD 0, s.cal.working.number, (s.slot i).cnt⟩] } } := by
  have hend : s.lotEndOf i e = some
      ⟨i, d.lotNumber, d.label, e, (s.slot i).activation.getD 0, s.cal.working.number, (s.slot i).cnt⟩ := by
    rw [State.lotEndOf, hd]; rfl
  rw [State.retire, hend]
  dsimp only
  rw [State.handLotEnd, if_pos hroom]
  cases i <;> rfl

/-! ### LOT.ARM (R109) -/

theorem exec_lotArm (tag : Byte) (n : Nat) (s : State) :
    exec (.lotArm tag n) s = .next (s.ask tag (.lotArm n) (State.lotArm n)).transmit := rfl

theorem State.lotArm_bad {n : Nat} (h : 1 < n) (s : State) : s.lotArm n = (.bad 1, s) := by
  rw [State.lotArm, slotOf_eq_none h]

theorem State.lotArm_free (h : (s.slot i).state = .free) : s.lotArm i.num = (.notReady, s) := by
  rw [State.lotArm, slotOf_num]
  simp only [h]

/-- A slot armed before, or that still empties (R109 step 3). -/
theorem State.lotArm_busy (h : (s.slot i).state = .pending ∨ (s.slot i).state = .active ∨ (s.slot i).state = .draining) :
    s.lotArm i.num = (.busy, s) := by
  rw [State.lotArm, slotOf_num]
  rcases h with h | h | h <;> simp only [h]

/-- A READY slot beside one that is PENDING (R109 step 4). -/
theorem State.lotArm_otherPending (h : (s.slot i).state = .ready) (hp : (s.slot i.other).state = .pending) :
    s.lotArm i.num = (.busy, s) := by
  rw [State.lotArm, slotOf_num]
  simp only [h, if_pos hp]

/-- A READY slot with none PENDING is armed (R109 step 5). -/
theorem State.lotArm_ready (h : (s.slot i).state = .ready) (hp : (s.slot i.other).state ≠ .pending) :
    s.lotArm i.num = s.armReady i := by
  rw [State.lotArm, slotOf_num]
  simp only [h, if_neg hp]

theorem State.armReady_pending (h : (s.slot i).state = .ready) (ha : (s.slot i.other).state = .active) :
    s.armReady i = (.ok [0x02#8], s.modSlot i fun sl => { sl with state := .pending }) := by
  rw [State.armReady, State.activeSlot_of_other (i := i) (by simp [h]), if_pos ha]
  rfl

theorem State.armReady_active (h : (s.slot i).state = .ready) (ha : (s.slot i.other).state ≠ .active) :
    s.armReady i = (.ok [0x03#8], s.modSlot i fun sl => { sl with state := .active, activation := some s.cal.working.number }) := by
  rw [State.armReady, State.activeSlot_of_other (i := i) (by simp [h]), if_neg ha]
  rfl

/-! ### LOT.FREE (R114) -/

theorem exec_lotFree (tag : Byte) (n : Nat) (s : State) :
    exec (.lotFree tag n) s = .next (s.ask tag (.lotFree n) (State.lotFree n)).transmit := rfl

theorem State.lotFree_bad {n : Nat} (h : 1 < n) (s : State) : s.lotFree n = (.bad 1, s) := by
  rw [State.lotFree, slotOf_eq_none h]

theorem State.lotFree_free (h : (s.slot i).state = .free) : s.lotFree i.num = (.busy, s) := by
  rw [State.lotFree, slotOf_num]
  simp only [h]

/-- A slot that has not run is emptied, with no summary. -/
theorem State.lotFree_unrun (h : (s.slot i).state = .ready ∨ (s.slot i).state = .pending) :
    s.lotFree i.num = (.ok [], s.modSlot i fun _ => .freed) := by
  rw [State.lotFree, slotOf_num]
  rcases h with h | h <;> simp only [h]

/-- A slot whose parts may still come or go. -/
theorem State.lotFree_busy (h : (s.slot i).state = .draining ∨
    ((s.slot i).state = .active ∧ ((s.slot i).resident ≠ 0 ∨ s.line.state = .run ∨ s.line.state = .drain))) :
    s.lotFree i.num = (.busy, s) := by
  rw [State.lotFree, slotOf_num]
  rcases h with h | ⟨h, hheld⟩
  · simp only [h]
  · have hnot : ¬((s.slot i).resident = 0 ∧ s.line.state.worked = false) := by
      rw [LineState.worked_eq_false]
      tauto
    simp only [h, if_neg hnot]

/-- An ACTIVE slot with no resident while the line does not run (R113, R114). -/
theorem State.lotFree_retires (h : (s.slot i).state = .active) (hr : (s.slot i).resident = 0)
    (hw : s.line.state.worked = false) : s.lotFree i.num = (.ok [], s.retire i .freed) := by
  rw [State.lotFree, slotOf_num]
  simp only [h, if_pos (And.intro hr hw)]

end

/-- Settles O34: the owner's answer for each state of the slot named. -/
theorem lotArmAndFree : Obligations.LotArmAndFree := by
  unfold Obligations.LotArmAndFree
  intro tag s i hs
  simp only [exec_lotArm, exec_lotFree]
  refine ⟨fun n hn => ⟨State.ask_read hs tag _ (s.lotArm_bad hn), State.ask_read hs tag _ (s.lotFree_bad hn)⟩,
    fun h => ⟨State.ask_read hs tag _ (State.lotArm_free h), State.ask_read hs tag _ (State.lotFree_free h)⟩,
    fun h => State.ask_read hs tag _ (State.lotArm_busy h), fun h => ⟨fun hp => ?_, fun ha => ?_, fun hp ha => ?_⟩,
    fun h => ?_, fun h => State.ask_read hs tag _ (State.lotFree_busy h), fun d f h hr hrun hdrain hd hx hroom => ?_⟩
  · exact State.ask_read hs tag _ (State.lotArm_otherPending h hp)
  · have hown := (State.lotArm_ready h (by simp [ha])).trans (State.armReady_pending h ha)
    exact congrArg _ (State.ask_answer hs tag (.lotArm i.num) hown (State.modSlot_report ..))
  · have hown := (State.lotArm_ready h hp).trans (State.armReady_active h ha)
    exact congrArg _ (State.ask_answer hs tag (.lotArm i.num) hown (State.modSlot_report ..))
  · exact congrArg _ (State.ask_answer hs tag (.lotFree i.num) (State.lotFree_unrun h) (State.modSlot_report ..))
  · have hown := State.lotFree_retires h hr ((LineState.worked_eq_false _).mpr ⟨hrun, hdrain⟩)
    rw [State.retire_room hd hroom] at hown
    exact congrArg _ (State.ask_sending hs tag (.lotFree i.num) hown hx)

end Sys2Proof.Machine
end


-- ==== Sys2Proof/Proofs/ChangeOver.lean ====
section
/-! PROOFS. The change-over: what becomes of the ACTIVE slot, the PENDING one activated, and LOT_CHANGE raised (R110, R111, R113,
R184). -/

namespace Sys2Proof.Machine

section
variable {s : State} {i : SlotId}

/-! ### A raise over an entry that stands (R184) -/

/-- A kind that is pending has a place in the table, whatever the table's length. -/
theorem State.raise_event_pending {k : EventKind} {e : PendingEvent} (h : s.report.event k = some e) (d : Detail) :
    (s.raise k d).report.event k = some { e with count := satInc 65535 e.count } := by
  have hk : k.priority - 1 < s.report.events.length := by
    by_contra hlt
    rw [Report.event, List.getD_eq_default _ _ (by omega)] at h
    contradiction
  rw [Report.event, List.getD_eq_getElem _ _ hk] at h
  simp [State.raise, Report.event, hk, h, raisedEntry]

/-! ### The ACTIVE slot leaves (R111 step 1) -/

/-- The part once the other slot has left ACTIVE, if it was: what the change-over activates slot i in. -/
def State.vacated (i : SlotId) (s : State) : State :=
  if (s.slot i.other).state = .active then s.leaveActive i.other else s

theorem State.changeOver_eq (h : (s.slot i).state = .pending) (q : Nat) :
    s.changeOver i q =
      ((s.vacated i).modSlot i (LotSlot.activate (s.vacated i).cal.working.number)).raise .lotChange (.pocket q) := by
  rw [State.changeOver, State.activeSlot_of_other (i := i) (by simp [h]), State.vacated]
  by_cases ha : (s.slot i.other).state = .active
  · rw [if_pos ha, if_pos ha]
  · rw [if_neg ha, if_neg ha]

theorem State.leaveActive_residents (h : (s.slot i).resident ≠ 0) :
    s.leaveActive i = s.modSlot i fun sl => { sl with state := .draining } := if_neg h

theorem State.leaveActive_empty (h : (s.slot i).resident = 0) : s.leaveActive i = s.retire i .drained := if_pos h

theorem State.leaveActive_only (s : State) (i : SlotId) : Only [.slot0, .slot1, .report, .lineCnt] s (s.leaveActive i) := by
  unfold State.leaveActive
  split
  · exact s.retire_only _ _
  · exact (s.modSlot_only _ _).mono (by decide)

theorem State.leaveActive_keeps (k : EventKind) (s : State) (i : SlotId) : KeepsEvent k s (s.leaveActive i) := by
  unfold State.leaveActive
  split
  · exact s.retire_keeps k _ _
  · exact .of_report (State.modSlot_report ..) k

/-- The slot left is DRAINING or FREE; the other is as it was. -/
theorem State.leaveActive_slot (s : State) (i : SlotId) :
    (((s.leaveActive i).slot i).state = .draining ∨ ((s.leaveActive i).slot i).state = .free) ∧
      (s.leaveActive i).slot i.other = s.slot i.other := by
  unfold State.leaveActive
  split
  · obtain ⟨hs, ho⟩ := s.retire_slot i .drained
    exact ⟨.inr (by rw [hs]; rfl), ho⟩
  · exact ⟨.inl (by rw [State.modSlot_same]), State.modSlot_other ..⟩

theorem SlotId.other_other (i : SlotId) : i.other.other = i := by cases i <;> rfl

theorem State.vacated_active (h : (s.slot i.other).state = .active) : s.vacated i = s.leaveActive i.other := if_pos h

theorem State.vacated_inactive (h : (s.slot i.other).state ≠ .active) : s.vacated i = s := if_neg h

theorem State.vacated_only (s : State) (i : SlotId) : Only [.slot0, .slot1, .report, .lineCnt] s (s.vacated i) := by
  unfold State.vacated
  split
  · exact s.leaveActive_only _
  · exact .refl _ s

theorem State.vacated_keeps (k : EventKind) (s : State) (i : SlotId) : KeepsEvent k s (s.vacated i) := by
  unfold State.vacated
  split
  · exact s.leaveActive_keeps k _
  · exact .refl k s

/-- Slot i is as it was. -/
theorem State.vacated_slot (s : State) (i : SlotId) : (s.vacated i).slot i = s.slot i := by
  unfold State.vacated
  split
  · have h := (s.leaveActive_slot i.other).2
    rwa [SlotId.other_other] at h
  · rfl

/-- The other slot is not ACTIVE, and not PENDING unless it was. -/
theorem State.vacated_other (hp : (s.slot i.other).state ≠ .pending) :
    ((s.vacated i).slot i.other).state ≠ .active ∧ ((s.vacated i).slot i.other).state ≠ .pending := by
  by_cases ha : (s.slot i.other).state = .active
  · rw [State.vacated_active ha]
    rcases (s.leaveActive_slot i.other).1 with h | h <;> rw [h] <;> decide
  · rw [State.vacated_inactive ha]
    exact ⟨ha, hp⟩

/-! ### The change-over taken (R111) -/

/-- What a load's question to the Lot Store leaves when slot i alone is PENDING. -/
theorem State.askSlot_changes (h : (s.slot i).state = .pending) (hp : (s.slot i.other).state ≠ .pending) (q : Nat) :
    s.askSlot q =
      ((s.vacated i).modSlot i (LotSlot.activate s.cal.working.number)).raise .lotChange (.pocket q) := by
  have hpend : s.pendingSlot = some i := by
    have hother := State.pendingSlot_of_other hp
    rw [SlotId.other_other, if_pos h] at hother
    exact hother
  rw [State.askSlot, hpend]
  dsimp only
  rw [State.changeOver_eq h, show (s.vacated i).cal = s.cal from s.vacated_only i .cal (by decide)]

/-- The slots, the LOT.END queue and the line's counters once the PENDING slot has replaced the other. -/
structure Changed (s t : State) (i : SlotId) : Prop where
  same : t.slot i = { s.slot i with state := .active, activation := some s.cal.working.number }
  other : t.slot i.other = (s.vacated i).slot i.other
  lotEnd : t.report.lotEnd = (s.vacated i).report.lotEnd
  lineCnt : t.lineCnt = (s.vacated i).lineCnt

theorem State.askSlot_changed (h : (s.slot i).state = .pending) (hp : (s.slot i.other).state ≠ .pending) (q : Nat) :
    Changed s (s.askSlot q) i := by
  rw [State.askSlot_changes h hp]
  have hraise (t : State) (x : SlotId) : (t.raise .lotChange (.pocket q)).slot x = t.slot x := by cases x <;> rfl
  have hqueue (t : State) : (t.raise .lotChange (.pocket q)).report.lotEnd = t.report.lotEnd := rfl
  refine ⟨?_, ?_, ?_, ?_⟩
  · rw [hraise, State.modSlot_same, State.vacated_slot]; rfl
  · rw [hraise, State.modSlot_other]
  · rw [hqueue, State.modSlot_report]
  · exact State.modSlot_lineCnt ..

/-- LOT_CHANGE is raised over its entry as it stood. -/
theorem State.askSlot_event (h : (s.slot i).state = .pending) (hp : (s.slot i.other).state ≠ .pending) (q : Nat) :
    (s.report.event .lotChange = none → s.report.events.length = 14 →
      (s.askSlot q).report.event .lotChange = some ⟨1, .pocket q, s.track.k⟩) ∧
    (∀ e, s.report.event .lotChange = some e →
      (s.askSlot q).report.event .lotChange = some { e with count := satInc 65535 e.count }) := by
  rw [State.askSlot_changes h hp]
  have hkeep : KeepsEvent .lotChange s ((s.vacated i).modSlot i (LotSlot.activate s.cal.working.number)) :=
    (s.vacated_keeps _ i).trans (.of_report (State.modSlot_report ..) _)
  have htrack : ((s.vacated i).modSlot i (LotSlot.activate s.cal.working.number)).track = s.track :=
    (State.modSlot_track ..).trans (s.vacated_only i .track (by decide))
  refine ⟨fun hnone hlen => ?_, fun e he => State.raise_event_pending (hkeep.event.trans he) _⟩
  rw [State.raise_event_same (hkeep.length.trans hlen), hkeep.event, hnone, htrack]
  rfl

end

/-- Settles O35: the part left by the slot that was ACTIVE, then the PENDING slot activated in it and LOT_CHANGE raised. -/
theorem changeOverTaken : Obligations.ChangeOverTaken := by
  unfold Obligations.ChangeOverTaken
  rintro s i q h hp t rfl
  have honly := s.askSlot_only q
  obtain ⟨hsame, hother, hlotEnd, hcnt⟩ := State.askSlot_changed h hp q
  obtain ⟨hfresh, hcount⟩ := State.askSlot_event h hp q
  obtain ⟨hnotActive, hnotPending⟩ := State.vacated_other hp
  rw [← hother] at hnotActive hnotPending
  have hactive : (s.askSlot q).activeSlot = some i := by
    rw [State.activeSlot_of_other hnotActive, SlotId.other_other, hsame, if_pos rfl]
  have hnone : (s.askSlot q).pendingSlot = none := by
    rw [State.pendingSlot_of_other (i := i) (by simp [hsame]), if_neg hnotPending]
  refine ⟨hsame, hactive, hnone, honly .track (by decide), honly .line (by decide), honly .cal (by decide), hfresh, hcount,
    fun ha hr => ?_, fun d ha hr hd => ⟨?_, fun hroom => ?_⟩, fun ha => ?_⟩
  · rw [hother, hlotEnd, hcnt, State.vacated_active ha, State.leaveActive_residents hr]
    exact ⟨State.modSlot_same .., congrArg Report.lotEnd (State.modSlot_report ..), State.modSlot_lineCnt ..⟩
  · rw [hother, State.vacated_active ha, State.leaveActive_empty hr]
    exact (s.retire_slot i.other .drained).1
  · rw [hlotEnd, hcnt, State.vacated_active ha, State.leaveActive_empty hr, State.retire_room hd hroom]
    exact ⟨State.modSlot_lineCnt .., rfl⟩
  · rw [hother, hlotEnd, hcnt, State.vacated_inactive ha]
    exact ⟨rfl, rfl, rfl⟩

end Sys2Proof.Machine
end


-- ==== Sys2Proof/Proofs/LotLoad.lean ====
section
/-! PROOFS. LOT.LOAD: its fields in ordinal order, the refusals, and the definition installed (R105 to R107, R172). -/

namespace Sys2Proof.Machine

/-! ### The fields before the grades (R106) -/

section
variable {r : LotLoadReq} {s : State} {i : SlotId} {n g j : Nat}

/-- Where the first list holds a failing field, those after it do not matter. -/
theorem firstBad_append_left {l : List (Nat × Bool)} (h : firstBad l = some n) (l' : List (Nat × Bool)) :
    firstBad (l ++ l') = some n := by
  induction l with
  | nil => cases h
  | cons x l ih =>
    obtain ⟨m, ok⟩ := x
    cases ok with
    | false => exact h
    | true => exact ih h

theorem mem_oneTo : g ∈ oneTo n ↔ 1 ≤ g ∧ g ≤ n := by
  simp only [oneTo, List.mem_map, List.mem_range]
  exact ⟨fun ⟨m, hm, he⟩ => by omega, fun ⟨h1, h2⟩ => ⟨g - 1, by omega, by omega⟩⟩

theorem oneTo_pairwise (n : Nat) : (oneTo n).Pairwise (· < ·) :=
  List.pairwise_map.mpr (List.pairwise_lt_range.imp fun h => Nat.succ_lt_succ h)

theorem State.lotNumberFree_iff : s.lotNumberFree i n = true ↔ (s.slot i.other).state = .free ∨
    ∀ d, (s.slot i.other).definition = some d → d.lotNumber ≠ n := by
  unfold State.lotNumberFree
  cases (s.slot i.other).definition <;> simp

theorem labelOk_iff : labelOk r = true ↔ r.labelLen ≤ 24 ∧ ∀ x ∈ r.labelChars.take r.labelLen, 0x20 ≤ x ∧ x ≤ 0x7E := by
  simp [labelOk, within]

theorem State.rnomOk_iff : s.rnomOk r = true ↔ (100 ≤ r.rnom ∧ r.rnom ≤ 20000000000) ∧
    (s.cal.working.pair r.range).rref ≤ r.rnom * 20 ∧ r.rnom ≤ (s.cal.working.pair r.range).rref * 8 := by
  simp [State.rnomOk, within, and_assoc]

/-- The fields with ordinals 2 to 14, each with its judgement. -/
def State.lotHeadFields (s : State) (i : SlotId) (r : LotLoadReq) : List (Nat × Bool) :=
  [(2, within 1 99999999 r.lotNumber && s.lotNumberFree i r.lotNumber), (3, labelOk r), (4, within 1 6 r.range),
    (5, s.rnomOk r), (6, withinInt (-5000) 5000 r.tcr), (7, within 0 1000000 r.emfLimit), (8, within 0 7 r.retryLimit),
    (9, s.chuteOk r.rejectChute), (10, s.chuteOk r.retestChute), (11, within 0 1 r.mode), (12, within 0 1 r.fallback),
    (13, within 0 1 r.referral), (14, within 1 4 r.gradeCount)]

/-- What each of them says is what R106 asks of its ordinal. -/
theorem State.lotHeadFields_pass (s : State) (i : SlotId) (r : LotLoadReq) :
    ∀ e ∈ s.lotHeadFields i r, e.2 = true ↔ lotHeadPasses r s i e.1 := by
  simp [State.lotHeadFields, lotHeadPasses, State.namable, State.lotNumberFree_iff, labelOk_iff, State.rnomOk_iff,
    State.chuteOk_iff, within, withinInt]

theorem State.lotHeadFields_pairwise (s : State) (i : SlotId) (r : LotLoadReq) :
    (s.lotHeadFields i r).Pairwise (·.1 < ·.1) := by
  simp [State.lotHeadFields]

theorem State.mem_lotHeadFields {e : Nat × Bool} (h : e ∈ s.lotHeadFields i r) : 2 ≤ e.1 ∧ e.1 ≤ 14 := by
  have hmem : e.1 ∈ (s.lotHeadFields i r).map Prod.fst := List.mem_map_of_mem h
  have hnums : (s.lotHeadFields i r).map Prod.fst = [2, 3, 4, 5, 6, 7, 8, 9, 10, 11, 12, 13, 14] := rfl
  rw [hnums] at hmem
  simp only [List.mem_cons, List.not_mem_nil, or_false] at hmem
  omega

/-- An ordinal that fails is one of theirs. -/
theorem State.lotHeadFields_of_fails (h : ¬lotHeadPasses r s i n) : ∃ e ∈ s.lotHeadFields i r, e.1 = n := by
  have hn : n ∈ (s.lotHeadFields i r).map Prod.fst := by
    show n ∈ [2, 3, 4, 5, 6, 7, 8, 9, 10, 11, 12, 13, 14]
    by_contra hno
    simp only [List.mem_cons, List.not_mem_nil, or_false, not_or] at hno
    refine h ?_
    unfold lotHeadPasses
    repeat' apply And.intro
    all_goals exact fun he => absurd he (by omega)
  exact List.mem_map.mp hn

/-! ### The grades and the classes (R106) -/

/-- No table field has an ordinal up to 14. -/
theorem lotTablesPass_of_le (h : n ≤ 14) : lotTablesPass r s n :=
  ⟨fun g hg _ => ⟨fun he => by omega, fun he => by omega⟩, fun he => by omega,
    fun j hj _ => ⟨fun he => by omega, fun he => by omega, fun he => by omega⟩⟩

theorem lotHeadPasses_of_lt (h : 14 < n) : lotHeadPasses r s i n := by
  by_contra hfail
  obtain ⟨e, he, rfl⟩ := State.lotHeadFields_of_fails hfail
  have := State.mem_lotHeadFields he
  omega

theorem lotPasses_head (h : n ≤ 14) : lotPasses r s i n ↔ lotHeadPasses r s i n :=
  and_iff_left (lotTablesPass_of_le h)

theorem lotPasses_table (h : 14 < n) : lotPasses r s i n ↔ lotTablesPass r s n :=
  and_iff_right (lotHeadPasses_of_lt h)

/-- With at most 4 grades an ordinal of theirs stands for its field alone. -/
theorem lotTablesPass_samples (hn : r.gradeCount ≤ 4) (h1 : 1 ≤ g) (h2 : g ≤ r.gradeCount) :
    lotTablesPass r s (13 + 2 * g) ↔ samplesOk r g = true := by
  have hfield : samplesOk r g = true ↔ (1 ≤ (lotGrade r g).samples ∧ (lotGrade r g).samples ≤ 512) ∧
      (1 < g → (lotGrade r (g - 1)).samples ≤ (lotGrade r g).samples) := by
    simp only [samplesOk, within, Bool.and_eq_true, Bool.or_eq_true, decide_eq_true_eq, beq_iff_eq]
    omega
  rw [hfield]
  refine ⟨fun ⟨hgrades, _⟩ => (hgrades g h1 h2).1 rfl, fun h => ⟨fun x hx _ => ⟨fun he => ?_, fun he => by omega⟩,
    fun he => by omega, fun j hj _ => ⟨fun he => by omega, fun he => by omega, fun he => by omega⟩⟩⟩
  obtain rfl : g = x := by omega
  exact h

theorem lotTablesPass_guard (hn : r.gradeCount ≤ 4) (h1 : 1 ≤ g) (h2 : g ≤ r.gradeCount) :
    lotTablesPass r s (14 + 2 * g) ↔ guardOk r g = true := by
  have hfield : guardOk r g = true ↔ (lotGrade r g).guard ≤ 100000 ∧
      (1 < g → (lotGrade r g).guard < (lotGrade r (g - 1)).guard) ∧ ((lotGrade r g).guard = 0 ↔ g = r.gradeCount) := by
    simp only [guardOk, within, Bool.and_eq_true, Bool.or_eq_true, decide_eq_true_eq, beq_iff_eq]
    split <;> simp only [beq_iff_eq, bne_iff_ne] <;> omega
  rw [hfield]
  refine ⟨fun ⟨hgrades, _⟩ => (hgrades g h1 h2).2 rfl, fun h => ⟨fun x hx _ => ⟨fun he => by omega, fun he => ?_⟩,
    fun he => by omega, fun j hj _ => ⟨fun he => by omega, fun he => by omega, fun he => by omega⟩⟩⟩
  obtain rfl : g = x := by omega
  exact h

theorem lotTablesPass_classCount (hn : r.gradeCount ≤ 4) :
    lotTablesPass r s 23 ↔ within 1 16 r.classCount = true := by
  simp only [within, Bool.and_eq_true, decide_eq_true_eq]
  exact ⟨fun ⟨_, h23, _⟩ => h23 rfl, fun h => ⟨fun x hx _ => ⟨fun he => by omega, fun he => by omega⟩, fun _ => h,
    fun j hj _ => ⟨fun he => by omega, fun he => by omega, fun he => by omega⟩⟩⟩

theorem lotTablesPass_lower (hn : r.gradeCount ≤ 4) (h1 : 1 ≤ j) (h2 : j ≤ r.classCount) :
    lotTablesPass r s (21 + 3 * j) ↔ withinInt (-999999) 999999 (lotClass r j).lower = true := by
  simp only [withinInt, Bool.and_eq_true, decide_eq_true_eq]
  refine ⟨fun ⟨_, _, hclass⟩ => (hclass j h1 h2).1 rfl, fun h => ⟨fun g hg _ => ⟨fun he => by omega, fun he => by omega⟩,
    fun he => by omega, fun x hx _ => ⟨fun he => ?_, fun he => by omega, fun he => by omega⟩⟩⟩
  obtain rfl : j = x := by omega
  exact h

theorem lotTablesPass_upper (hn : r.gradeCount ≤ 4) (h1 : 1 ≤ j) (h2 : j ≤ r.classCount) :
    lotTablesPass r s (22 + 3 * j) ↔
      (withinInt (-999999) 999999 (lotClass r j).upper && (lotClass r j).lower ≤ (lotClass r j).upper) = true := by
  simp only [withinInt, Bool.and_eq_true, decide_eq_true_eq]
  refine ⟨fun ⟨_, _, hclass⟩ => (hclass j h1 h2).2.1 rfl, fun h => ⟨fun g hg _ => ⟨fun he => by omega, fun he => by omega⟩,
    fun he => by omega, fun x hx _ => ⟨fun he => by omega, fun he => ?_, fun he => by omega⟩⟩⟩
  obtain rfl : j = x := by omega
  exact h

theorem lotTablesPass_chute (hn : r.gradeCount ≤ 4) (h1 : 1 ≤ j) (h2 : j ≤ r.classCount) :
    lotTablesPass r s (23 + 3 * j) ↔ s.chuteOk (lotClass r j).chute = true := by
  rw [State.chuteOk_iff]
  refine ⟨fun ⟨_, _, hclass⟩ => (hclass j h1 h2).2.2 rfl, fun h => ⟨fun g hg _ => ⟨fun he => by omega, fun he => by omega⟩,
    fun he => by omega, fun x hx _ => ⟨fun he => by omega, fun he => by omega, fun he => ?_⟩⟩⟩
  obtain rfl : j = x := by omega
  exact h

/-! ### All the fields in their order (R106, R172) -/

/-- The fields of the grades, the class count and the classes. -/
def State.lotTableFields (s : State) (r : LotLoadReq) : List (Nat × Bool) :=
  (oneTo r.gradeCount).flatMap (gradeOrdinals r) ++ [(23, within 1 16 r.classCount)] ++
    (oneTo r.classCount).flatMap (classOrdinals s r)

theorem State.lotLoadBad_eq (s : State) (i : SlotId) (r : LotLoadReq) :
    s.lotLoadBad i r = firstBad (s.lotHeadFields i r ++ s.lotTableFields r) := by
  rw [State.lotTableFields, ← List.append_assoc, ← List.append_assoc]
  rfl

theorem mem_gradeFields {e : Nat × Bool} : e ∈ (oneTo r.gradeCount).flatMap (gradeOrdinals r) ↔
    ∃ g, (1 ≤ g ∧ g ≤ r.gradeCount) ∧ (e = (13 + 2 * g, samplesOk r g) ∨ e = (14 + 2 * g, guardOk r g)) := by
  simp only [List.mem_flatMap, mem_oneTo, gradeOrdinals, List.mem_cons, List.not_mem_nil, or_false]

theorem mem_classFields {e : Nat × Bool} : e ∈ (oneTo r.classCount).flatMap (classOrdinals s r) ↔
    ∃ j, (1 ≤ j ∧ j ≤ r.classCount) ∧ (e = (21 + 3 * j, withinInt (-999999) 999999 (lotClass r j).lower) ∨
      e = (22 + 3 * j, withinInt (-999999) 999999 (lotClass r j).upper && (lotClass r j).lower ≤ (lotClass r j).upper) ∨
      e = (23 + 3 * j, s.chuteOk (lotClass r j).chute)) := by
  simp only [List.mem_flatMap, mem_oneTo, classOrdinals, List.mem_cons, List.not_mem_nil, or_false]

/-- With at most 4 grades theirs are the ordinals 15 to 22. -/
theorem gradeFields_between (hn : r.gradeCount ≤ 4) {e : Nat × Bool}
    (he : e ∈ (oneTo r.gradeCount).flatMap (gradeOrdinals r)) : 14 < e.1 ∧ e.1 < 23 := by
  obtain ⟨g, ⟨h1, h2⟩, rfl | rfl⟩ := mem_gradeFields.mp he <;> dsimp only <;> omega

theorem classFields_above {e : Nat × Bool} (he : e ∈ (oneTo r.classCount).flatMap (classOrdinals s r)) : 23 < e.1 := by
  obtain ⟨j, ⟨h1, h2⟩, rfl | rfl | rfl⟩ := mem_classFields.mp he <;> dsimp only <;> omega

theorem State.lotTableFields_above (hn : r.gradeCount ≤ 4) : ∀ e ∈ s.lotTableFields r, 14 < e.1 := by
  simp only [State.lotTableFields, List.forall_mem_append, List.forall_mem_singleton]
  exact ⟨⟨fun e he => (gradeFields_between hn he).1, by decide⟩, fun e he => by have := classFields_above he; omega⟩

theorem State.lotTableFields_pass (hn : r.gradeCount ≤ 4) :
    ∀ e ∈ s.lotTableFields r, e.2 = true ↔ lotTablesPass r s e.1 := by
  simp only [State.lotTableFields, List.forall_mem_append, List.forall_mem_singleton]
  refine ⟨⟨fun e he => ?_, (lotTablesPass_classCount hn).symm⟩, fun e he => ?_⟩
  · obtain ⟨g, ⟨h1, h2⟩, rfl | rfl⟩ := mem_gradeFields.mp he
    · exact (lotTablesPass_samples hn h1 h2).symm
    · exact (lotTablesPass_guard hn h1 h2).symm
  · obtain ⟨j, ⟨h1, h2⟩, rfl | rfl | rfl⟩ := mem_classFields.mp he
    · exact (lotTablesPass_lower hn h1 h2).symm
    · exact (lotTablesPass_upper hn h1 h2).symm
    · exact (lotTablesPass_chute hn h1 h2).symm

theorem State.lotTableFields_pairwise (hn : r.gradeCount ≤ 4) : (s.lotTableFields r).Pairwise (·.1 < ·.1) := by
  have hgrades : ((oneTo r.gradeCount).flatMap (gradeOrdinals r)).Pairwise (·.1 < ·.1) := by
    refine List.pairwise_flatMap.mpr ⟨fun g _ => by simp [gradeOrdinals], (oneTo_pairwise _).imp fun hab => ?_⟩
    simp only [gradeOrdinals, List.forall_mem_cons, List.not_mem_nil, false_implies, implies_true, and_true]
    omega
  have hclasses : ((oneTo r.classCount).flatMap (classOrdinals s r)).Pairwise (·.1 < ·.1) := by
    refine List.pairwise_flatMap.mpr ⟨fun j _ => by simp [classOrdinals], (oneTo_pairwise _).imp fun hab => ?_⟩
    simp only [classOrdinals, List.forall_mem_cons, List.not_mem_nil, false_implies, implies_true, and_true]
    omega
  refine List.pairwise_append.mpr ⟨List.pairwise_append.mpr ⟨hgrades, List.pairwise_singleton _ _, fun e he x hx => ?_⟩,
    hclasses, fun e he x hx => lt_of_le_of_lt ?_ (classFields_above hx)⟩
  · rw [List.mem_singleton.mp hx]
    exact (gradeFields_between hn he).2
  · rcases List.mem_append.mp he with he | he
    · exact (gradeFields_between hn he).2.le
    · rw [List.mem_singleton.mp he]

/-- An ordinal that fails in the tables is one of theirs. -/
theorem State.lotTableFields_of_fails (h : ¬lotTablesPass r s n) : ∃ e ∈ s.lotTableFields r, e.1 = n := by
  by_contra hno
  have hne := fun (e : Nat × Bool) he (hen : n = e.1) => hno ⟨e, he, hen.symm⟩
  simp only [State.lotTableFields, List.forall_mem_append, List.forall_mem_singleton] at hne
  obtain ⟨⟨hgrades, h23⟩, hclasses⟩ := hne
  refine h ⟨fun g h1 h2 => ⟨fun he => ?_, fun he => ?_⟩, fun he => absurd he h23, fun j h1 h2 =>
    ⟨fun he => ?_, fun he => ?_, fun he => ?_⟩⟩
  · exact absurd he (hgrades _ (mem_gradeFields.mpr ⟨g, ⟨h1, h2⟩, .inl rfl⟩))
  · exact absurd he (hgrades _ (mem_gradeFields.mpr ⟨g, ⟨h1, h2⟩, .inr rfl⟩))
  · exact absurd he (hclasses _ (mem_classFields.mpr ⟨j, ⟨h1, h2⟩, .inl rfl⟩))
  · exact absurd he (hclasses _ (mem_classFields.mpr ⟨j, ⟨h1, h2⟩, .inr (.inl rfl)⟩))
  · exact absurd he (hclasses _ (mem_classFields.mpr ⟨j, ⟨h1, h2⟩, .inr (.inr rfl)⟩))

/-- With at most 4 grades, what each judged field of LOT.LOAD says is what R106 asks of its ordinal. -/
theorem State.lotFields_pass (hn : r.gradeCount ≤ 4) :
    ∀ e ∈ s.lotHeadFields i r ++ s.lotTableFields r, e.2 = true ↔ lotPasses r s i e.1 := by
  refine List.forall_mem_append.mpr ⟨fun e he => ?_, fun e he => ?_⟩
  · rw [lotPasses_head (State.mem_lotHeadFields he).2]
    exact s.lotHeadFields_pass i r e he
  · rw [lotPasses_table (State.lotTableFields_above hn e he)]
    exact State.lotTableFields_pass hn e he

theorem gradeCount_of_passes (h : lotPasses r s i 14) : r.gradeCount ≤ 4 := by
  obtain ⟨⟨-, -, -, -, -, -, -, -, -, -, -, -, h14⟩, -⟩ := h
  exact (h14 rfl).2

/-- The first field that fails by R106 is the one LOT.LOAD answers with. More than 4 grades fail at ordinal 14 at the latest,
before any ordinal that they would share. -/
theorem State.lotLoadBad_of_firstFails (h : firstFails (lotPasses r s i) n) : s.lotLoadBad i r = some n := by
  rw [State.lotLoadBad_eq]
  by_cases hn : r.gradeCount ≤ 4
  · refine firstBad_of_firstFails (List.pairwise_append.mpr ⟨s.lotHeadFields_pairwise i r, State.lotTableFields_pairwise hn,
      fun e he x hx => (State.mem_lotHeadFields he).2.trans_lt (State.lotTableFields_above hn x hx)⟩)
      (State.lotFields_pass hn) (fun hfail => ?_) h
    rcases not_and_or.mp hfail with hhead | htable
    · obtain ⟨e, he, hen⟩ := State.lotHeadFields_of_fails hhead
      exact ⟨e, List.mem_append_left _ he, hen⟩
    · obtain ⟨e, he, hen⟩ := State.lotTableFields_of_fails htable
      exact ⟨e, List.mem_append_right _ he, hen⟩
  · have hle : n ≤ 14 := not_lt.mp fun hlt => hn (gradeCount_of_passes (h.2 14 hlt))
    have hhead : firstFails (lotHeadPasses r s i) n :=
      ⟨mt (lotPasses_head hle).mpr h.1, fun m hm => (lotPasses_head (hm.le.trans hle)).mp (h.2 m hm)⟩
    exact firstBad_append_left (firstBad_of_firstFails (s.lotHeadFields_pairwise i r) (s.lotHeadFields_pass i r)
      State.lotHeadFields_of_fails hhead) _

theorem State.lotLoadBad_eq_none (h : ∀ n, lotPasses r s i n) : s.lotLoadBad i r = none := by
  rw [State.lotLoadBad_eq]
  exact firstBad_eq_none.mpr fun e he => (State.lotFields_pass (gradeCount_of_passes (h 14)) e he).mpr (h _)

/-! ### LOT.LOAD answered (R105, R107) -/

theorem exec_lotLoad (tag : Byte) (r : LotLoadReq) (s : State) :
    exec (.lotLoad tag r) s = .next (s.ask tag (.lotLoad r) (State.lotLoad r)).transmit := rfl

theorem State.lotLoad_notReady (h : s.track.p = 0 ∨ s.cal.valid = false) (r : LotLoadReq) :
    s.lotLoad r = (.notReady, s) := if_pos h

theorem State.lotLoad_noSlot (hp : s.track.p ≠ 0) (hv : s.cal.valid = true) (h : 1 < r.slot) :
    s.lotLoad r = (.bad 1, s) := by
  rw [State.lotLoad, if_neg (by simp [hp, hv]), slotOf_eq_none h]

/-- The definition installed in slot i (R107). -/
def State.installed (r : LotLoadReq) (i : SlotId) (s : State) : State :=
  s.modSlot i fun _ => ⟨.ready, some (lotDefOf r), 0, none, .zero⟩

/-- A request that names slot i, with a track and a valid calibration. -/
theorem State.lotLoad_slot (hp : s.track.p ≠ 0) (hv : s.cal.valid = true) (hi : r.slot = i.num) : s.lotLoad r =
    if (s.slot i).state.loadable then
      match s.lotLoadBad i r with
      | some n => (.bad n, s)
      | none => (.ok (le 1 i.num ++ [0x01#8]), s.installed r i)
    else (.busy, s) := by
  rw [State.lotLoad, if_neg (by simp [hp, hv]), hi, slotOf_num]
  rfl

theorem SlotState.not_loadable {x : SlotState} (h : x = .pending ∨ x = .active ∨ x = .draining) :
    ¬x.loadable = true := by
  rcases h with rfl | rfl | rfl <;> decide

theorem State.lotLoad_busy (hp : s.track.p ≠ 0) (hv : s.cal.valid = true) (hi : r.slot = i.num)
    (h : (s.slot i).state = .pending ∨ (s.slot i).state = .active ∨ (s.slot i).state = .draining) :
    s.lotLoad r = (.busy, s) := by
  rw [State.lotLoad_slot hp hv hi, if_neg (SlotState.not_loadable h)]

theorem State.lotLoad_bad (hp : s.track.p ≠ 0) (hv : s.cal.valid = true) (hi : r.slot = i.num)
    (h : (s.slot i).state = .free ∨ (s.slot i).state = .ready) (hn : firstFails (lotPasses r s i) n) :
    s.lotLoad r = (.bad n, s) := by
  rw [State.lotLoad_slot hp hv hi, if_pos ((SlotState.loadable_iff _).mpr h), State.lotLoadBad_of_firstFails hn]

theorem State.lotLoad_installs (hp : s.track.p ≠ 0) (hv : s.cal.valid = true) (hi : r.slot = i.num)
    (h : (s.slot i).state = .free ∨ (s.slot i).state = .ready) (hall : ∀ n, lotPasses r s i n) :
    s.lotLoad r = (.ok (le 1 i.num ++ [0x01#8]), s.installed r i) := by
  rw [State.lotLoad_slot hp hv hi, if_pos ((SlotState.loadable_iff _).mpr h), State.lotLoadBad_eq_none hall]

/-! ### What a LOT.LOAD taken leaves undisturbed (R30, R35, R115) -/

/-- The ACTIVE slot, the PENDING slot and the ACTIVE range when a slot that is neither is written and becomes neither. -/
theorem State.slots_of_idleSlot {t : State} (ho : t.slot i.other = s.slot i.other)
    (hs : (s.slot i).state ≠ .active ∧ (s.slot i).state ≠ .pending)
    (ht : (t.slot i).state ≠ .active ∧ (t.slot i).state ≠ .pending) :
    t.activeSlot = s.activeSlot ∧ t.pendingSlot = s.pendingSlot ∧ t.activeRange = s.activeRange := by
  have hactive : t.activeSlot = s.activeSlot := by
    rw [State.activeSlot_of_other ht.1, State.activeSlot_of_other hs.1, ho]
  have hpending : t.pendingSlot = s.pendingSlot := by
    rw [State.pendingSlot_of_other ht.2, State.pendingSlot_of_other hs.2, ho]
  refine ⟨hactive, hpending, ?_⟩
  rw [State.activeRange, State.activeRange, hactive, State.activeSlot_of_other hs.1]
  split
  · next x hx =>
    rw [Option.ite_none_right_eq_some] at hx
    obtain ⟨-, hx⟩ := hx
    rw [← Option.some.inj hx, ho]
  · rfl

/-- What LINE.START and LOADOK ask of the part, when the slots and the reports alone were written and the same slots are ACTIVE
and PENDING. -/
theorem State.judged_of_slots {t : State} (h : Only [.slot0, .slot1, .report] s t) (ha : t.activeSlot = s.activeSlot)
    (hp : t.pendingSlot = s.pendingSlot) : t.startFailed = s.startFailed ∧ t.loadFit = s.loadFit := by
  have htrack : t.track = s.track := h .track (by decide)
  have hline : t.line = s.line := h .line (by decide)
  have hchutes : t.chutes = s.chutes := h .chutes (by decide)
  have hcal : t.cal = s.cal := h .cal (by decide)
  have hA : t.chanA = s.chanA := h .chanA (by decide)
  have hB : t.chanB = s.chanB := h .chanB (by decide)
  constructor
  · rw [State.startFailed, State.startFailed, State.startConditions, State.startConditions, htrack, hchutes, hcal, hA, hB, ha,
      hp]
  · rw [State.loadFit, State.loadFit, hline, State.pocket, State.pocket, htrack, ha, hp]

theorem State.replied_only (s : State) (f : Frame) : Only [.report] s (s.replied f) := by
  intro b hb
  cases b <;> first | rfl | simp at hb

/-- A slot that is FREE or READY is neither ACTIVE nor PENDING, before the definition is installed and after. -/
theorem State.installed_undisturbed {t : State} {f : Frame} (h : (s.slot i).state = .free ∨ (s.slot i).state = .ready)
    (ht : (s.installed r i).replied f = t) :
    t.activeSlot = s.activeSlot ∧ t.pendingSlot = s.pendingSlot ∧ t.activeRange = s.activeRange ∧ t.line = s.line ∧
      t.startFailed = s.startFailed ∧ t.loadFit = s.loadFit := by
  have honly : Only [.slot0, .slot1, .report] s t := by
    rw [← ht]
    exact ((s.modSlot_only i _).mono (by decide)).trans ((State.replied_only _ f).mono (by decide))
  have hslot (x : SlotId) : t.slot x = (s.installed r i).slot x := by rw [← ht]; cases x <;> rfl
  obtain ⟨hactive, hpending, hrange⟩ := State.slots_of_idleSlot (i := i)
    ((hslot _).trans (State.modSlot_other ..)) (by rcases h with h | h <;> simp [h])
    (by simp [hslot, State.installed])
  obtain ⟨hstart, hfit⟩ := State.judged_of_slots honly hactive hpending
  exact ⟨hactive, hpending, hrange, honly .line (by decide), hstart, hfit⟩

end

/-- Settles O33: NOT_READY, the slot, its state, the first field that fails, and the definition installed each give the
owner's answer. -/
theorem lotLoadInstalls : Obligations.LotLoadInstalls := by
  unfold Obligations.LotLoadInstalls
  intro tag r s hs
  simp only [exec_lotLoad]
  refine ⟨fun h => State.ask_read hs tag _ (State.lotLoad_notReady h r), fun hp hv =>
    ⟨fun h => State.ask_read hs tag _ (State.lotLoad_noSlot hp hv h), fun i hi =>
      ⟨fun h => State.ask_read hs tag _ (State.lotLoad_busy hp hv hi h), fun h =>
        ⟨fun n hn => State.ask_read hs tag _ (State.lotLoad_bad hp hv hi h hn), fun hall => ?_⟩⟩⟩⟩
  have hask := State.ask_answer hs tag (.lotLoad r) (State.lotLoad_installs hp hv hi h hall) (State.modSlot_report ..)
  rw [hask]
  exact ⟨rfl, fun t ht => State.installed_undisturbed h (Host.Outcome.next.inj ht)⟩

end Sys2Proof.Machine
end


-- ==== Sys2Proof/Proofs/Decisions.lean ====
section
/-! PROOFS. The judgement of a deviation: the first class that passes a test, by its number, and what a deviation within the
guard of the one measured can be (R120, R122 to R124). -/

namespace Sys2Proof.Machine

/-! ### The class table by number -/

section
variable {def_ : LotDef} {test : ClassSpec → Bool} {k n : Nat}

theorem LotDef.classAt_eq_getElem (h : k - 1 < def_.classes.length) :
    def_.classAt k = def_.classes[k - 1] :=
  List.getD_eq_getElem _ _ h

/-- The first n classes of the table are those with the numbers 1 to n. -/
theorem LotDef.mem_take_classes {c : ClassSpec} : c ∈ def_.classes.take n ↔
    ∃ i, 1 ≤ i ∧ i ≤ n ∧ i ≤ def_.classes.length ∧ def_.classAt i = c := by
  rw [List.mem_take_iff_getElem]
  constructor
  · rintro ⟨j, hj, rfl⟩
    exact ⟨j + 1, by omega, by omega, by omega, LotDef.classAt_eq_getElem (by omega)⟩
  · rintro ⟨i, h1, hn, hl, rfl⟩
    exact ⟨i - 1, by omega, (LotDef.classAt_eq_getElem (by omega)).symm⟩

theorem LotDef.all_take_classes_iff : (def_.classes.take n).all test = true ↔
    ∀ i, 1 ≤ i → i ≤ n → i ≤ def_.classes.length → test (def_.classAt i) = true := by
  rw [List.all_eq_true]
  constructor
  · intro h i h1 hn hl
    exact h _ (LotDef.mem_take_classes.mpr ⟨i, h1, hn, hl, rfl⟩)
  · intro h c hc
    obtain ⟨i, h1, hn, hl, rfl⟩ := LotDef.mem_take_classes.mp hc
    exact h i h1 hn hl

theorem LotDef.all_classes_iff : def_.classes.all test = true ↔
    ∀ i, 1 ≤ i → i ≤ def_.classes.length → test (def_.classAt i) = true := by
  have h := LotDef.all_take_classes_iff (def_ := def_) (test := test) (n := def_.classes.length)
  rw [List.take_length] at h
  exact h.trans ⟨fun h i h1 hl => h i h1 hl hl, fun h i h1 hl _ => h i h1 hl⟩

/-- Class k is the first in table order that passes a test (R120). -/
def LotDef.isFirst (def_ : LotDef) (test : ClassSpec → Bool) (k : Nat) : Prop :=
  1 ≤ k ∧ k ≤ def_.classes.length ∧ test (def_.classAt k) = true ∧
    ∀ i, 1 ≤ i → i < k → test (def_.classAt i) = false

theorem LotDef.isFirst.le_length (h : def_.isFirst test k) : k ≤ def_.classes.length := by
  obtain ⟨-, hl, -⟩ := h
  exact hl

theorem firstClass_eq_some_iff : firstClass test def_.classes = some k ↔ def_.isFirst test k := by
  unfold firstClass LotDef.isFirst
  rw [Option.map_eq_some_iff]
  constructor
  · rintro ⟨j, hj, rfl⟩
    obtain ⟨hl, htest, hbefore⟩ := List.findIdx?_eq_some_iff_getElem.mp hj
    refine ⟨by omega, by omega, ?_, fun i h1 hi => ?_⟩
    · rw [LotDef.classAt_eq_getElem (by omega)]
      exact htest
    · rw [LotDef.classAt_eq_getElem (by omega)]
      exact Bool.eq_false_of_not_eq_true (hbefore (i - 1) (by omega))
  · rintro ⟨h1, hl, htest, hbefore⟩
    refine ⟨k - 1, List.findIdx?_eq_some_iff_getElem.mpr ⟨by omega, ?_, fun j hj => ?_⟩, by omega⟩
    · rw [← LotDef.classAt_eq_getElem (by omega)]
      exact htest
    · have hj' := hbefore (j + 1) (by omega) (by omega)
      rw [LotDef.classAt_eq_getElem (by omega)] at hj'
      exact Bool.eq_false_iff.mp hj'

theorem firstClass_eq_none_iff : firstClass test def_.classes = none ↔
    ∀ i, 1 ≤ i → i ≤ def_.classes.length → test (def_.classAt i) = false := by
  have h := LotDef.all_classes_iff (def_ := def_) (test := fun c => !test c)
  simp only [List.all_eq_true, Bool.not_eq_true'] at h
  rw [firstClass, Option.map_eq_none_iff, List.findIdx?_eq_none_iff]
  exact h

end

/-! ### A class and a deviation (R120) -/

section
variable {c : ClassSpec} {d e : Int} {g : Nat}

theorem inClass_iff : inClass d c = true ↔ c.lower ≤ d ∧ d ≤ c.upper := by
  simp [inClass, withinInt]

theorem inClass_eq_false_iff : inClass d c = false ↔ ¬(c.lower ≤ d ∧ d ≤ c.upper) := by
  rw [← inClass_iff, Bool.not_eq_true]

theorem inNarrowed_iff : inNarrowed d g c = true ↔ c.lower + g ≤ d ∧ d ≤ c.upper - g := by
  simp [inNarrowed, withinInt]

theorem excluded_iff : excluded d g c = true ↔ d < c.lower - g ∨ c.upper + g < d := by
  simp [excluded]

/-- A deviation within the guard of one that falls in the narrowed class falls in the class. -/
theorem inClass_of_inNarrowed (h : inNarrowed d g c = true) (he : (e - d).natAbs ≤ g) : inClass e c = true := by
  rw [inNarrowed_iff] at h
  rw [inClass_iff]
  omega

/-- A deviation within the guard of one that excludes a class certainly does not fall in it. -/
theorem not_inClass_of_excluded (h : excluded d g c = true) (he : (e - d).natAbs ≤ g) : inClass e c = false := by
  rw [excluded_iff] at h
  rw [inClass_eq_false_iff]
  omega

end

/-! ### The two judgements (R122 to R124) -/

section
variable {def_ : LotDef} {d e : Int} {g k : Nat} {src : Source}

theorem finalJudgement_cls_iff : finalJudgement def_ d = .cls k .final ↔ def_.isFirst (inClass d) k := by
  rw [← firstClass_eq_some_iff, finalJudgement]
  split
  · next j hj => simp [hj]
  · next hnone => simp [hnone]

theorem finalJudgement_noClass_iff : finalJudgement def_ d = .noClass .final ↔
    ∀ i, 1 ≤ i → i ≤ def_.classes.length → inClass d (def_.classAt i) = false := by
  rw [← firstClass_eq_none_iff, finalJudgement]
  split
  · next j hj => simp [hj]
  · next hnone => simp [hnone]

/-- The guarded judgement comes to NO CLASS by certain exclusion alone (R123). -/
theorem excluded_of_guardedJudgement_noClass (h : guardedJudgement def_ d g = .noClass src) :
    ∀ i, 1 ≤ i → i ≤ def_.classes.length → excluded d g (def_.classAt i) = true := by
  unfold guardedJudgement at h
  split at h
  · next hall => exact LotDef.all_classes_iff.mp hall
  · split at h
    · contradiction
    · split at h
      · contradiction
      · split at h <;> contradiction

/-- A class that the guarded judgement decides on is the first narrowed one that holds the deviation, and in PRESERVE mode every
class before it is certainly excluded (R124). -/
theorem guardedJudgement_cls (h : guardedJudgement def_ d g = .cls k src) :
    src = .early ∧ def_.isFirst (inNarrowed d g) k ∧
      (def_.mode = .preserve → ∀ i, 1 ≤ i → i < k → excluded d g (def_.classAt i) = true) := by
  unfold guardedJudgement at h
  split at h
  · contradiction
  · split at h
    · contradiction
    · next j hj =>
      have hfirst := firstClass_eq_some_iff.mp hj
      split at h
      · next hmode =>
        cases h
        exact ⟨rfl, hfirst, fun hp => by rw [hmode] at hp; contradiction⟩
      · split at h
        · next hall =>
          cases h
          have hl := hfirst.le_length
          exact ⟨rfl, hfirst, fun _ i h1 hi => LotDef.all_take_classes_iff.mp hall i h1 (by omega) (by omega)⟩
        · contradiction

/-- An early NO CLASS is what the final judgement gives within the guard (R123). -/
theorem finalJudgement_of_early_noClass (h : guardedJudgement def_ d g = .noClass .early) (he : (e - d).natAbs ≤ g) :
    finalJudgement def_ e = .noClass .final :=
  finalJudgement_noClass_iff.mpr fun i h1 hl =>
    not_inClass_of_excluded (excluded_of_guardedJudgement_noClass h i h1 hl) he

/-- In PRESERVE mode an early class is what the final judgement gives within the guard (R124). -/
theorem finalJudgement_of_early_cls (hmode : def_.mode = .preserve) (h : guardedJudgement def_ d g = .cls k .early)
    (he : (e - d).natAbs ≤ g) : finalJudgement def_ e = .cls k .final := by
  obtain ⟨-, ⟨h1, hl, hin, -⟩, hbefore⟩ := guardedJudgement_cls h
  exact finalJudgement_cls_iff.mpr ⟨h1, hl, inClass_of_inNarrowed hin he, fun i hi hik =>
    not_inClass_of_excluded (hbefore hmode i hi hik) he⟩

end

/-- Settles O31: the guard bounds how far the final deviation can lie from the one measured, and both judgements take the first
class that passes their test. -/
theorem earlyDecisionsHold : Obligations.EarlyDecisionsHold := by
  unfold Obligations.EarlyDecisionsHold
  intro def_ d g
  refine ⟨fun h e => finalJudgement_of_early_noClass h, fun k hmode h e => finalJudgement_of_early_cls hmode h,
    fun k src h => ?_, fun k => ?_⟩
  · obtain ⟨hsrc, ⟨h1, hl, hin, -⟩, -⟩ := guardedJudgement_cls h
    exact ⟨hsrc, h1, hl, inNarrowed_iff.mp hin⟩
  · rw [finalJudgement_cls_iff, LotDef.isFirst]
    simp only [inClass_iff, inClass_eq_false_iff, and_assoc]

end Sys2Proof.Machine
end


-- ==== Sys2Proof/Proofs/Defaults.lean ====
section
/-! PROOFS. The default of the pocket leaving DECIDE, by its state and by its slot's fallback (R131 to R135). -/

namespace Sys2Proof.Machine

section
variable {s : State} {q : Nat} {i : SlotId} {d : LotDef}

/-! ### A referral answered (R129, R131) -/

/-- What an update makes of the pocket as it stands is all that counts. -/
theorem State.modPocket_eq_of_pocket {f f' : Pocket → Pocket} (h : f (s.pocket q) = f' (s.pocket q)) :
    s.modPocket q f = s.modPocket q f' := by
  have hpockets : s.track.pockets.modify q f = s.track.pockets.modify q f' := by
    refine List.ext_getElem (by simp) fun j hj hj' => ?_
    rw [List.getElem_modify, List.getElem_modify]
    split
    · next hqj =>
      have hl : q < s.track.pockets.length := by simpa [hqj] using hj
      rw [State.pocket, List.getD_eq_getElem _ _ hl] at h
      simpa [hqj] using h
    · rfl
  exact congrArg (fun l => s.modTrack fun t => { t with pockets := l }) hpockets

/-- A referral answered is a decision whose class and grade stand, once its report is no longer live. -/
theorem State.answerReferral_decide {x : Decision} (hx : (s.pocket q).decision = some x) (c : Nat) (src : Source)
    (count : LotCounters → LotCounters) : s.answerReferral q c src count =
      (s.clearLive q (s.pocket q).serial).decide q { x with source := src } c count := by
  have hwrite : s.modPocket q (fun p => { p with decision := resource src p.decision, target := some c }) =
      s.modPocket q fun p => { p with decision := some { x with source := src }, target := some c } :=
    State.modPocket_eq_of_pocket (by rw [hx]; rfl)
  rw [State.answerReferral, hwrite]
  rfl

/-! ### The latest ACCEPTED attempt (R133) -/

theorem Pocket.latestAccepted_of_append {p : Pocket} {xs ys : List Attempt} {a : Attempt} (h : p.attempts = xs ++ a :: ys)
    (ha : a.outcome = .accepted) (hys : ∀ b ∈ ys, b.outcome ≠ .accepted) : p.latestAccepted = some a := by
  have hlater : ys.reverse.find? (fun b => b.outcome == .accepted) = none := by simpa using hys
  rw [Pocket.latestAccepted, h, List.reverse_append, List.reverse_cons, List.append_assoc, List.find?_append, hlater]
  simp [ha]

/-! ### The default by the pocket's state (R131 to R134) -/

theorem State.leaveDecide_of_loaded (hd : s.definitionOf (s.pocket q) = some d) (h : (s.pocket q).state = .loaded) :
    s.leaveDecide q = s.decide q ⟨none, .unmeasured, none⟩ d.retestChute countUnmeasured := by
  simp only [State.leaveDecide, hd, h]

theorem State.leaveDecide_of_referred (hd : s.definitionOf (s.pocket q) = some d) (h : (s.pocket q).state = .referred)
    {x : Decision} (hx : (s.pocket q).decision = some x) : s.leaveDecide q =
      (s.clearLive q (s.pocket q).serial).decide q { x with source := .referDefault } d.rejectChute countDefaulted := by
  simp only [State.leaveDecide, hd, h]
  exact State.answerReferral_decide hx ..

theorem State.leaveDecide_of_retest (hd : s.definitionOf (s.pocket q) = some d) (h : (s.pocket q).state = .measuring)
    (hf : d.fallback = .retest) :
    s.leaveDecide q = s.decide q ⟨none, .unfinished, none⟩ d.retestChute countUnfinished := by
  simp only [State.leaveDecide, hd, h, State.defaultMeasuring, hf]

theorem State.leaveDecide_of_settled (h : (s.pocket q).state = .decided ∨ (s.pocket q).state = .held ∨
    (s.pocket q).state = .ejected ∨ (s.pocket q).state = .empty) : s.leaveDecide q = s := by
  unfold State.leaveDecide
  split
  · rfl
  · rcases h with h | h | h | h <;> simp only [h]

section
variable {a : Attempt} {v : Int}

theorem State.leaveDecide_of_classifyLast (hd : s.definitionOf (s.pocket q) = some d)
    (h : (s.pocket q).state = .measuring) (hf : d.fallback = .classifyLast) : s.leaveDecide q = s.classifyLast q d := by
  simp only [State.leaveDecide, hd, h, State.defaultMeasuring, hf]

/-- CLASSIFY-LAST with a class that holds the latest ACCEPTED deviation. -/
theorem State.classifyLast_of_isFirst (ha : (s.pocket q).latestAccepted = some a) (hv : a.deviation = some v) {k : Nat}
    (hk : d.isFirst (inClass v) k) : s.classifyLast q d =
      s.decide q ⟨some k, .fallback, some a.grade⟩ (d.classAt k).chute (countFallback ∘ countClass k) := by
  simp only [State.classifyLast, ha, hv, Option.getD_some, firstClass_eq_some_iff.mpr hk]

/-- CLASSIFY-LAST with no class that holds it. -/
theorem State.classifyLast_of_noClass (ha : (s.pocket q).latestAccepted = some a) (hv : a.deviation = some v)
    (hnone : ∀ k, 1 ≤ k → k ≤ d.classes.length → inClass v (d.classAt k) = false) : s.classifyLast q d =
      s.decide q ⟨none, .fallback, some a.grade⟩ d.rejectChute (countFallback ∘ countNoClass) := by
  simp only [State.classifyLast, ha, hv, Option.getD_some, firstClass_eq_none_iff.mpr hnone]

end

/-- What a decision committed to a chute that can take the pocket leaves of the pocket and of its lot's counters (R121, R142). -/
theorem State.decide_committed {t : State} {dec : Decision} {c : Nat} {count : LotCounters → LotCounters}
    (ht : t = s.decide q dec c count) (hq : q < s.track.pockets.length) (hi : (s.pocket q).slot = some i)
    (hcan : s.canTake c (s.track.positionOf q) = true) :
    t.pocket q = { s.pocket q with
      state := .decided, decision := some dec, target := some c, chute := some c, overflow := false } ∧
      (t.slot i).cnt = count (s.slot i).cnt := by
  obtain ⟨hpocket, -, hcnt⟩ := State.decide_takes (dec := dec) (count := count) hq hi hcan
  rw [ht]
  exact ⟨hpocket, hcnt⟩

end

/-- Settles O32: each default is a decision whose target, the slot's or the class's chute, takes the pocket at once. -/
theorem defaultsAtDecide : Obligations.DefaultsAtDecide := by
  unfold Obligations.DefaultsAtDecide
  intro s q i d hq hi hd hretest hreject t ht
  have hdef : s.definitionOf (s.pocket q) = some d := by simp only [State.definitionOf, hi, hd]
  refine ⟨fun h => ?loaded, fun h x hx => ?referred, fun h hf => ?retest, fun xs a ys v h hf hlist ha hys hv => ?classify,
    fun h => ?settled⟩
  case loaded => exact State.decide_committed (ht.trans (State.leaveDecide_of_loaded hdef h)) hq hi hretest
  case referred =>
    obtain ⟨hpocket, hcnt⟩ := State.decide_committed (ht.trans (State.leaveDecide_of_referred hdef h hx)) hq hi hreject
    refine ⟨hpocket, hcnt.trans ?_⟩
    cases i <;> rfl
  case retest => exact State.decide_committed (ht.trans (State.leaveDecide_of_retest hdef h hf)) hq hi hretest
  case classify =>
    have hlatest : (s.pocket q).latestAccepted = some a := Pocket.latestAccepted_of_append hlist ha hys
    rw [State.leaveDecide_of_classifyLast hdef h hf] at ht
    refine ⟨fun k h1 hl hlo hhi hbefore hcan => ?_, fun hnone => ?_⟩
    · have hfirst : d.isFirst (inClass v) k :=
        ⟨h1, hl, inClass_iff.mpr ⟨hlo, hhi⟩, fun j hj hjk => inClass_eq_false_iff.mpr (hbefore j hj hjk)⟩
      exact State.decide_committed (ht.trans (State.classifyLast_of_isFirst hlatest hv hfirst)) hq hi hcan
    · have hout : ∀ k, 1 ≤ k → k ≤ d.classes.length → inClass v (d.classAt k) = false :=
        fun k h1 hl => inClass_eq_false_iff.mpr (hnone k h1 hl)
      exact State.decide_committed (ht.trans (State.classifyLast_of_noClass hlatest hv hout)) hq hi hreject
  case settled => exact ht.trans (State.leaveDecide_of_settled h)

end Sys2Proof.Machine
end


-- ==== Sys2Proof/Proofs/ChuteAccounts.lean ====
section
/-! PROOFS. The accounts of a chute: what each update of its entry makes of a balanced account (R137, R139, R140, R142, R145,
R148 to R150), and the pockets that count for it. -/

namespace Sys2Proof.Machine

/-! ### One entry -/

/-- A chute's entry is balanced for so many pockets promised to it and so many parts travelling to it (R136, R152, R153). -/
def Chute.Balanced (promised travelling : Nat) (e : Chute) : Prop :=
  e.inFlight = promised ∧ travelling ≤ e.fill + e.oldBox ∧ (∀ g ∈ e.cfg, e.taken ≤ g.capacity) ∧
    (e.cfg = none → e.taken = 0 ∧ e.jet = none) ∧ (e.pulsing = true → 1 ≤ travelling)

theorem chuteInv_iff (s : State) (c : Nat) :
    ChuteInv s c ↔ (s.chute c).Balanced (s.promised c) (s.travelling c) := Iff.rfl

theorem Chute.pulsing_iff (e : Chute) : e.pulsing = true ↔ e.jet ≠ none := Option.isSome_iff_ne_none

/-- An entry with the same configuration and places, whose jet pulses only where it did. -/
def Chute.SamePlaces (e e' : Chute) : Prop :=
  e'.cfg = e.cfg ∧ e'.fill = e.fill ∧ e'.inFlight = e.inFlight ∧ e'.oldBox = e.oldBox ∧ (e.jet = none → e'.jet = none)

theorem Chute.SamePlaces.refl (e : Chute) : e.SamePlaces e := ⟨rfl, rfl, rfl, rfl, id⟩

section
variable {e : Chute} {n m : Nat}

theorem Chute.Balanced.same {e' : Chute} (h : e.Balanced n m) (hs : e.SamePlaces e') : e'.Balanced n m := by
  obtain ⟨hcfg, hfill, hflight, hold, hjet⟩ := hs
  obtain ⟨hn, hm, hcap, hnone, hpulse⟩ := h
  unfold Chute.Balanced Chute.taken
  rw [hcfg, hfill, hflight, hold]
  exact ⟨hn, hm, hcap, fun hg => ⟨(hnone hg).1, hjet (hnone hg).2⟩,
    fun hp => hpulse ((e.pulsing_iff).mpr fun hoff => (e'.pulsing_iff).mp hp (hjet hoff))⟩

/-- An entry without places, its jet OFF, is balanced where no pocket counts for the chute. -/
theorem Chute.balanced_zero (hf : e.fill = 0) (hi : e.inFlight = 0) (ho : e.oldBox = 0) (hj : e.jet = none) :
    e.Balanced 0 0 := by
  have htaken : e.taken = 0 := by simp [Chute.taken, hf, hi, ho]
  exact ⟨hi, Nat.zero_le _, fun g _ => by omega, fun _ => ⟨htaken, hj⟩, fun hp => absurd hj ((e.pulsing_iff).mp hp)⟩

/-- A place promised to one more pocket, where the chute is configured and not FULL (R142). -/
theorem Chute.Balanced.promise (h : e.Balanced n m) {g : ChuteCfg} (hg : e.cfg = some g) (hroom : e.taken ≠ g.capacity) :
    ({ e with inFlight := e.inFlight + 1 } : Chute).Balanced (n + 1) m := by
  obtain ⟨hn, hm, hcap, -, hpulse⟩ := h
  refine ⟨congrArg (· + 1) hn, hm, fun g' hg' => ?_, fun hnone => ?_, hpulse⟩
  · obtain rfl : g = g' := Option.some.inj (hg.symm.trans hg')
    have hle := hcap g hg
    simp only [Chute.taken] at hle hroom ⊢
    omega
  · exact nomatch hg.symm.trans hnone

/-- A promised place filled by a firing, after which the jet pulses for a travelling part (R145). -/
theorem Chute.Balanced.fire (h : e.Balanced (n + 1) m) {g : ChuteCfg} (hg : e.cfg = some g) (pulse : Nat) :
    (fired pulse e).Balanced n (m + 1) := by
  obtain ⟨hn, hm, hcap, -, -⟩ := h
  refine ⟨by simp [fired, hn], by simp only [fired]; omega, fun g' hg' => ?_, fun hnone => ?_, fun _ => by omega⟩
  · have hle := hcap g' hg'
    simp only [Chute.taken, fired] at hle ⊢
    omega
  · exact nomatch hg.symm.trans hnone

/-- With the jet OFF, the finish of a promised pocket, of a travelling one, or of neither (R149). -/
theorem Chute.Balanced.settle {i j : Nat} (h : e.Balanced (n + i) (m + j)) (hi : i ≤ 1) (hj : j ≤ 1) (hoff : e.jet = none) :
    ({ e with inFlight := e.inFlight - i, oldBox := e.oldBox - j } : Chute).Balanced n m := by
  obtain ⟨hn, hm, hcap, hnone, -⟩ := h
  refine ⟨by simp [hn], by dsimp only; omega, fun g hg => ?_, fun hx => ?_, fun hp => absurd hoff ((Chute.pulsing_iff _).mp hp)⟩
  · have hle := hcap g hg
    simp only [Chute.taken] at hle ⊢
    omega
  · have hz := (hnone hx).1
    simp only [Chute.taken] at hz ⊢
    exact ⟨by omega, hoff⟩

/-- With the jet OFF, a travelling part that was missed is promised its place again (R148). -/
theorem Chute.Balanced.miss (h : e.Balanced n (m + 1)) (hoff : e.jet = none) : (missedPlace e).Balanced (n + 1) m := by
  obtain ⟨hn, hm, hcap, hnone, -⟩ := h
  have htaken : (missedPlace e).taken = e.taken := by
    unfold missedPlace
    split <;> simp only [Chute.taken] <;> omega
  obtain ⟨hflight, hold, hfill, -, -, hcfg⟩ := missedPlace_fields e
  have hjet := (missedPlace_jet e).trans hoff
  refine ⟨by omega, by split at hfill <;> omega, fun g hg => ?_, fun hx => ?_, fun hp => absurd hjet ((Chute.pulsing_iff _).mp hp)⟩
  · rw [htaken]; exact hcap g (hcfg ▸ hg)
  · rw [htaken]; exact ⟨(hnone (hcfg ▸ hx)).1, hjet⟩

theorem configureBusy_eq_false_iff {f : ChuteFields} : configureBusy f e = false ↔
    ∀ g, e.cfg = some g → e.taken ≤ f.capacity ∧ (f.ejectPos = g.ejectPos ∨ e.inFlight = 0) := by
  unfold configureBusy
  cases e.cfg with
  | none => simp
  | some g => simp [Nat.pos_iff_ne_zero]; tauto

/-- A CONFIGURE that is not BUSY leaves room for the places taken (R139). -/
theorem Chute.Balanced.configure (h : e.Balanced n m) {f : ChuteFields} (hb : configureBusy f e = false) :
    (configuredEntry f e).Balanced n m := by
  obtain ⟨hn, hm, -, hnone, hpulse⟩ := h
  unfold configuredEntry
  cases hg : e.cfg with
  | none =>
    obtain ⟨hz, hj⟩ := hnone hg
    simp only [Chute.taken] at hz
    obtain rfl : n = 0 := by omega
    obtain rfl : m = 0 := by omega
    exact Chute.balanced_zero (e := { e with cfg := some (cfgOf f), fill := 0, inFlight := 0, oldBox := 0, jet := none })
      rfl rfl rfl rfl
  | some g =>
    refine ⟨hn, hm, fun g' hg' => ?_, fun hx => (nomatch hx), hpulse⟩
    obtain rfl : cfgOf f = g' := Option.some.inj hg'
    exact (configureBusy_eq_false_iff.mp hb g hg).1

/-- A box exchanged: the parts travelling go to the box that left, but for one that a jet IN PULSE is blowing (R150). -/
theorem Chute.Balanced.exchange (h : e.Balanced n m) (hg : e.cfg ≠ none) : (exchanged m e).Balanced n m := by
  obtain ⟨hn, hm, hcap, -, hpulse⟩ := h
  unfold exchanged
  split
  · next hp =>
    have h1 := hpulse hp
    refine ⟨hn, by dsimp only; omega, fun g hx => ?_, fun hx => absurd hx hg, hpulse⟩
    have hle := hcap g hx
    simp only [Chute.taken] at hle ⊢
    omega
  · refine ⟨hn, by dsimp only; omega, fun g hx => ?_, fun hx => absurd hx hg, hpulse⟩
    have hle := hcap g hx
    simp only [Chute.taken] at hle ⊢
    omega

end

/-! ### The pockets that count for a chute -/

theorem Pocket.counts_of_decided {p : Pocket} (h : p.state = .decided) (c : Nat) :
    (p.promisedTo c = true ↔ p.chute = some c) ∧ p.travelsTo c = false := by
  simp [Pocket.promisedTo, Pocket.travelsTo, h]

theorem Pocket.counts_of_ejected {p : Pocket} (h : p.state = .ejected) (c : Nat) :
    p.promisedTo c = false ∧ (p.travelsTo c = true ↔ p.chute = some c) := by
  simp [Pocket.promisedTo, Pocket.travelsTo, h]

/-- Neither DECIDED nor EJECTED: a pocket that holds a place in no chute. -/
def Pocket.Placeless (p : Pocket) : Prop := p.state ≠ .decided ∧ p.state ≠ .ejected

theorem Pocket.Placeless.counts {p : Pocket} (h : p.Placeless) (c : Nat) :
    p.promisedTo c = false ∧ p.travelsTo c = false := by
  simp [Pocket.promisedTo, Pocket.travelsTo, h.1, h.2]

/-- The record counts for each chute as it did. -/
def Pocket.SamePlace (p p' : Pocket) : Prop := ∀ c, p'.promisedTo c = p.promisedTo c ∧ p'.travelsTo c = p.travelsTo c

theorem Pocket.SamePlace.of_state {p p' : Pocket} (hs : p'.state = p.state) (hc : p'.chute = p.chute) : p.SamePlace p' :=
  fun c => by simp [Pocket.promisedTo, Pocket.travelsTo, hs, hc]

theorem Pocket.SamePlace.of_placeless {p p' : Pocket} (h : p.Placeless) (h' : p'.Placeless) : p.SamePlace p' := fun c =>
  ⟨(h'.counts c).1.trans (h.counts c).1.symm, (h'.counts c).2.trans (h.counts c).2.symm⟩

section
variable {s t : State} {q : Nat} {f : Pocket → Pocket}

/-- One record updated changes a count over the table by that record alone. -/
theorem State.countP_updated (ht : t.track.pockets = (s.modPocket q f).track.pockets) (hq : q < s.track.pockets.length)
    (P : Pocket → Bool) : t.track.pockets.countP P + (if P (s.pocket q) = true then 1 else 0) =
      s.track.pockets.countP P + if P (f (s.pocket q)) = true then 1 else 0 := by
  have hset : (s.modPocket q f).track.pockets = (s.modPocket q fun _ => f (s.pocket q)).track.pockets := by
    refine List.ext_getElem? fun n => ?_
    simp only [State.modPocket, State.modTrack_track, List.getElem?_modify]
    split
    · next hn => simp [← hn, State.pocket, List.getD_eq_getElem?_getD, List.getElem?_eq_getElem hq]
    · rfl
  have h := State.countP_replaced (ht.trans hset) hq P
  split at h
  · next hP =>
    have := State.countP_pos hq hP
    rw [h, if_pos hP]; omega
  · next hP => rw [h, if_neg hP]; omega

/-- What one record updated makes of the pockets that count for chute c. -/
theorem State.counts_updated (ht : t.track.pockets = (s.modPocket q f).track.pockets) (hq : q < s.track.pockets.length)
    (c : Nat) : (t.promised c + (if (s.pocket q).promisedTo c = true then 1 else 0) =
        s.promised c + if (f (s.pocket q)).promisedTo c = true then 1 else 0) ∧
      t.travelling c + (if (s.pocket q).travelsTo c = true then 1 else 0) =
        s.travelling c + if (f (s.pocket q)).travelsTo c = true then 1 else 0 :=
  ⟨State.countP_updated ht hq _, State.countP_updated ht hq _⟩

end

/-! ### The accounts of two states -/

/-- Chute c's entry keeps its places, and the pockets that count for it are as many. -/
structure SameAccount (c : Nat) (s t : State) : Prop where
  entry : (s.chute c).SamePlaces (t.chute c)
  promised : t.promised c = s.promised c
  travelling : t.travelling c = s.travelling c

/-- The accounts of the chutes are kept between s and t. -/
def KeepsChutes (s t : State) : Prop := ChutesInv s → ChutesInv t

theorem KeepsChutes.refl (s : State) : KeepsChutes s s := id

theorem KeepsChutes.trans {s t u : State} (h : KeepsChutes s t) (k : KeepsChutes t u) : KeepsChutes s u := k ∘ h

theorem KeepsChutes.ite {c : Prop} [Decidable c] {s t u : State} (h : KeepsChutes s t) (k : KeepsChutes s u) :
    KeepsChutes s (if c then t else u) := by
  split
  · exact h
  · exact k

theorem KeepsChutes.foldl {α : Type} {f : State → α → State} (h : ∀ s a, KeepsChutes s (f s a)) (xs : List α) (s : State) :
    KeepsChutes s (xs.foldl f s) := by
  induction xs generalizing s with
  | nil => exact .refl s
  | cons x xs ih => exact (h s x).trans (ih (f s x))

section
variable {s t : State}

theorem SameAccount.chuteInv {c : Nat} (h : SameAccount c s t) (hs : ChuteInv s c) : ChuteInv t c := by
  rw [chuteInv_iff, h.promised, h.travelling]
  exact Chute.Balanced.same hs h.entry

theorem KeepsChutes.of_same (h : ∀ c, SameAccount c s t) : KeepsChutes s t := fun hs c h1 h2 => (h c).chuteInv (hs c h1 h2)

/-- One chute's account changes and is balanced again; the others stand. -/
theorem ChutesInv.change (h : ChutesInv s) (c : Nat) (hne : ∀ x, x ≠ c → SameAccount x s t)
    (hc : 1 ≤ c → c ≤ 20 → ChuteInv s c → ChuteInv t c) : ChutesInv t := fun x h1 h2 => by
  by_cases hx : x = c
  · subst hx; exact hc h1 h2 (h x h1 h2)
  · exact (hne x hx).chuteInv (h x h1 h2)

theorem KeepsChutes.of_chutes (ht : t.track = s.track) (hc : ∀ c, (s.chute c).SamePlaces (t.chute c)) : KeepsChutes s t :=
  .of_same fun c => ⟨hc c, by rw [State.promised, ht, State.promised], by rw [State.travelling, ht, State.travelling]⟩

/-- An operation that writes neither the track nor the chutes. -/
theorem KeepsChutes.of_only {l : List Block} (h : Only l s t) (hl : ∀ b ∈ [Block.track, .chutes], b ∉ l) : KeepsChutes s t :=
  .of_chutes (h .track (hl _ (by decide))) fun c => by
    rw [State.chute_congr (h .chutes (hl _ (by decide)))]
    exact .refl _

/-- Every pocket counts as it did. -/
theorem KeepsChutes.of_pockets (hl : t.track.pockets.length = s.track.pockets.length) (hc : t.chutes = s.chutes)
    (hp : ∀ q, (s.pocket q).SamePlace (t.pocket q)) : KeepsChutes s t :=
  .of_same fun c => ⟨by rw [State.chute_congr hc]; exact .refl _, State.countP_congr hl _ fun q => (hp q c).1,
    State.countP_congr hl _ fun q => (hp q c).2⟩

/-- One pocket's record is updated, and counts as it did. -/
theorem KeepsChutes.of_pocket {q : Nat} {f : Pocket → Pocket} (ht : t.track.pockets = (s.modPocket q f).track.pockets)
    (hc : t.chutes = s.chutes) (hf : (s.pocket q).SamePlace (f (s.pocket q))) : KeepsChutes s t := by
  refine .of_pockets (by rw [ht, State.modPocket_length]) hc fun r => ?_
  have hr : t.pocket r = (s.modPocket q f).pocket r := by rw [State.pocket, State.pocket, ht]
  rw [hr]
  obtain h | ⟨rfl, h⟩ := s.modPocket_cases q r f <;> rw [h]
  · exact fun _ => ⟨rfl, rfl⟩
  · exact hf

end

end Sys2Proof.Machine
end


-- ==== Sys2Proof/Proofs/ChuteAccountsOperations.lean ====
section
/-! PROOFS. The accounts of the chutes through commits, decisions, firings, finishes, misses and loads, and through all that
reaches them: ends of jobs, faults, frames and the settle (R121 to R126, R142 to R149). -/

namespace Sys2Proof.Machine

section
variable (s : State)

/-! ### Updates that leave the accounts alone -/

theorem State.modLine_keepsChutes (f : LineCtl → LineCtl) : KeepsChutes s (s.modLine f) := .of_only (s.modLine_only f) (by decide)

theorem State.modChan_keepsChutes (ch : Chan) (f : Channel → Channel) : KeepsChutes s (s.modChan ch f) :=
  .of_only (s.modChan_only ch f) (by decide)

theorem State.raise_keepsChutes (k : EventKind) (d : Detail) : KeepsChutes s (s.raise k d) :=
  .of_only (s.raise_only k d) (by decide)

theorem State.bumpLotOf_keepsChutes (q : Nat) (f : LotCounters → LotCounters) : KeepsChutes s (s.bumpLotOf q f) :=
  .of_only (s.bumpLotOf_only q f) (by decide)

theorem State.offer_keepsChutes : KeepsChutes s s.offer := .of_only s.offer_only (by decide)

theorem State.transmit_keepsChutes : KeepsChutes s s.transmit := .of_only s.transmit_only (by decide)

/-- An update of one record that keeps its state and its chute. -/
theorem State.modPocket_keepsChutes (q : Nat) (f : Pocket → Pocket)
    (hf : (f (s.pocket q)).state = (s.pocket q).state ∧ (f (s.pocket q)).chute = (s.pocket q).chute) :
    KeepsChutes s (s.modPocket q f) :=
  .of_pocket rfl rfl (.of_state hf.1 hf.2)

/-! ### Ends of jobs and faults (R45, R70, R82, R147) -/

theorem State.recordAttempt_keepsChutes (q : Nat) (a : Attempt) : KeepsChutes s (s.recordAttempt q a) := by
  obtain ⟨r, e, h⟩ := (s.pocket q).addAttempt_eq a
  exact (s.modPocket_keepsChutes q (Pocket.addAttempt a) (by rw [h]; exact ⟨rfl, rfl⟩)).trans
    (State.modChan_keepsChutes _ _ _)

theorem State.endJob_keepsChutes (ch : Chan) : KeepsChutes s (s.endJob ch) := .of_only (s.endJob_only ch) (by decide)

theorem State.abortJob_keepsChutes (ch : Chan) (o : JobOutcome) : KeepsChutes s (s.abortJob ch o) := by
  unfold State.abortJob
  split
  · exact .refl s
  · dsimp only
    split
    · exact (s.endJob_keepsChutes ch).trans (State.recordAttempt_keepsChutes _ _ _)
    · exact (s.endJob_keepsChutes ch).trans (State.modChan_keepsChutes _ _ _)

theorem State.cutDwell_keepsChutes : KeepsChutes s s.cutDwell :=
  ((KeepsChutes.of_only (s.modSched_only _) (by decide)).trans (State.abortJob_keepsChutes _ _ _)).trans
    (State.abortJob_keepsChutes _ _ _)

theorem State.cutJets_keepsChutes : KeepsChutes s s.cutJets :=
  .of_chutes (s.cutJets_only .track (by decide)) fun c => by
    rw [State.cutJets_chute]
    exact ⟨rfl, rfl, rfl, rfl, fun _ => rfl⟩

theorem State.raiseFault_keepsChutes (k : FaultKind) (d : Detail) : KeepsChutes s (s.raiseFault k d) := by
  have entry : KeepsChutes s (s.faultEntry k d) :=
    (((s.modLine_keepsChutes _).trans (State.cutDwell_keepsChutes _)).trans (State.cutJets_keepsChutes _)).trans
      (State.raise_keepsChutes _ _ _)
  unfold State.raiseFault
  split
  · exact entry
  · exact entry
  · exact entry
  · exact entry
  · exact (s.raise_keepsChutes _ _).trans (State.modLine_keepsChutes _ _)
  · exact s.raise_keepsChutes _ _

theorem State.enterSuspect_keepsChutes (ch : Chan) : KeepsChutes s (s.enterSuspect ch) :=
  (((s.modChan_keepsChutes ch _).trans (State.raise_keepsChutes _ _ _)).trans
    (.of_only (State.modSched_only _ _) (by decide))).trans (.ite (State.raiseFault_keepsChutes _ _ _) (.refl _))

theorem State.judgeSource_keepsChutes (ch : Chan) (faulted : Bool) : KeepsChutes s (s.judgeSource ch faulted) :=
  .ite ((s.modChan_keepsChutes ch _).trans (State.enterSuspect_keepsChutes _ _)) (s.modChan_keepsChutes ch _)

end

/-! ### Commits and decisions (R121 to R144) -/

/-- Pocket q is one of the table and holds a place in no chute. -/
def State.Unplaced (s : State) (q : Nat) : Prop := q < s.track.pockets.length ∧ (s.pocket q).Placeless

section
variable {s t : State} {q : Nat}

/-- An occupied pocket that is neither DECIDED nor EJECTED. -/
theorem State.unplaced_of_state {x : PocketState} (h : (s.pocket q).state = x)
    (hx : x ≠ .empty ∧ x ≠ .decided ∧ x ≠ .ejected := by decide) : s.Unplaced q := by
  subst h
  exact ⟨State.lt_of_occupied ((Pocket.occupied_iff _).mpr hx.1), hx.2⟩

theorem State.Unplaced.of_track (h : s.Unplaced q) (ht : t.track = s.track) : t.Unplaced q := by
  rw [State.Unplaced, State.pocket_congr ht, ht]
  exact h

theorem State.Unplaced.modPocket (h : s.Unplaced q) {f : Pocket → Pocket}
    (hf : (f (s.pocket q)).state = (s.pocket q).state) : (s.modPocket q f).Unplaced q := by
  rw [State.Unplaced, State.modPocket_same h.1, State.modPocket_length, Pocket.Placeless, hf]
  exact h

/-- A place promised: one more pocket counts for the chute, and one more place is in flight (R142). -/
theorem State.Unplaced.commitTo (h : s.Unplaced q) {c : Nat} (hc : s.canTake c (s.track.positionOf q) = true) (o : Bool) :
    KeepsChutes s (s.commitTo q c o) := by
  intro hs
  obtain ⟨hq, hplace⟩ := h
  obtain ⟨g, hg, hroom, -⟩ := (s.canTake_iff c _).mp hc
  obtain ⟨h1, h2⟩ := State.chute_configured hg
  have ht : (s.commitTo q c o).track.pockets =
      (s.modPocket q fun p => { p with state := .decided, chute := some c, overflow := o }).track.pockets :=
    congrArg Track.pockets (State.account_only _ _ _ .track (by decide))
  have hcounts (x : Nat) : (s.commitTo q c o).promised x = s.promised x + (if x = c then 1 else 0) ∧
      (s.commitTo q c o).travelling x = s.travelling x := by
    have hnew := Pocket.counts_of_decided (p := { s.pocket q with state := .decided, chute := some c, overflow := o }) rfl x
    simpa [hplace.counts x, hnew, eq_comm (a := c)] using State.counts_updated ht hq x
  refine hs.change c (fun x hx => ⟨?_, by rw [(hcounts x).1, if_neg hx]; rfl, (hcounts x).2⟩) fun _ _ hinv => ?_
  · rw [State.commitTo_chute_ne q hx]
    exact .refl _
  · rw [chuteInv_iff, (hcounts c).1, if_pos rfl, (hcounts c).2, State.commitTo_chute q h1 h2]
    exact Chute.Balanced.promise hinv hg hroom

theorem State.Unplaced.commit (h : s.Unplaced q) (c : Nat) : KeepsChutes s (s.commit q c) := by
  rcases s.commit_cases q c with ⟨hc, e⟩ | ⟨a, -, -, ha, e⟩ | ⟨-, e⟩ <;> rw [e]
  · exact h.commitTo hc false
  · exact (h.commitTo ha true).trans (State.bumpLotOf_keepsChutes _ _ _)
  · have hold : KeepsChutes s (s.modPocket q fun p => { p with state := .held, chute := none, overflow := false }) :=
      .of_pocket rfl rfl (.of_placeless h.2 ⟨by simp, by simp⟩)
    exact (hold.trans (State.raise_keepsChutes _ _ _)).trans (.of_only (State.lineBlocked_only _) (by decide))

theorem State.Unplaced.decide (h : s.Unplaced q) (dec : Decision) (c : Nat) (f : LotCounters → LotCounters) :
    KeepsChutes s (s.decide q dec c f) := by
  have hset := h.modPocket (f := fun p => { p with decision := some dec, target := some c }) rfl
  exact ((s.modPocket_keepsChutes q _ ⟨rfl, rfl⟩).trans (State.bumpLotOf_keepsChutes _ _ _)).trans
    ((hset.of_track (State.bumpLotOf_only _ q f .track (by decide))).commit c)

theorem State.Unplaced.answerReferral (h : s.Unplaced q) (c : Nat) (src : Source) (f : LotCounters → LotCounters) :
    KeepsChutes s (s.answerReferral q c src f) := by
  have hset := h.modPocket (f := fun p => { p with decision := resource src p.decision, target := some c }) rfl
  unfold State.answerReferral
  exact (((s.modPocket_keepsChutes q _ ⟨rfl, rfl⟩).trans (.of_only (State.modReport_only _ _) (by decide))).trans
    (State.bumpLotOf_keepsChutes _ _ _)).trans
      (((hset.of_track (State.clearLive_track _ _ _)).of_track (State.bumpLotOf_only _ q f .track (by decide))).commit c)

theorem State.Unplaced.refer (h : s.Unplaced q) (dec : Decision) (g : Nat) (d : Int) (f : LotCounters → LotCounters) :
    KeepsChutes s (s.refer q dec g d f) := by
  have hset : KeepsChutes s (s.modPocket q fun p => { p with state := .referred, decision := some dec }) :=
    .of_pocket rfl rfl (.of_placeless h.2 ⟨by simp, by simp⟩)
  exact ((hset.trans (State.bumpLotOf_keepsChutes _ _ _)).trans (.of_only (State.handRefer_only _ _) (by decide))).trans
    (State.bumpLotOf_keepsChutes _ _ _)

theorem State.Unplaced.escalate (h : s.Unplaced q) (g : Nat) : KeepsChutes s (s.escalate q g) :=
  .of_pocket rfl rfl (.of_placeless h.2 ⟨by simp, by simp⟩)

section
variable (s : State)

theorem State.judgeAccepted_keepsChutes (q g : Nat) (d : Int) (m : Marks) : KeepsChutes s (s.judgeAccepted q g d m) := by
  unfold State.judgeAccepted
  dsimp only
  split
  · split
    · next hj =>
      have h : s.Unplaced q := by
        simp only [Pocket.judged, Bool.and_eq_true, Bool.or_eq_true, beq_iff_eq] at hj
        obtain ⟨hst | hst, -⟩ := hj
        · exact State.unplaced_of_state hst
        · exact State.unplaced_of_state hst
      unfold State.applyJudgement
      split
      · exact h.decide _ _ _
      · exact .ite (h.refer _ _ _ _) (h.decide _ _ _)
      · exact h.escalate g
    · exact .refl s
  · exact .refl s

/-- The pocket leaving DECIDE takes its default (R131 to R134). -/
theorem State.leaveDecide_keepsChutes (q : Nat) : KeepsChutes s (s.leaveDecide q) := by
  unfold State.leaveDecide
  split
  · exact .refl s
  · split
    · next hst => exact (State.unplaced_of_state hst).answerReferral _ _ _
    · next hst => exact (State.unplaced_of_state hst).decide _ _ _
    · next hst =>
      have h : s.Unplaced q := State.unplaced_of_state hst
      unfold State.defaultMeasuring State.classifyLast
      split
      · split
        · exact .refl s
        · split
          · exact h.decide _ _ _
          · exact h.decide _ _ _
      · exact h.decide _ _ _
    all_goals exact .refl s

theorem State.retryPocket_keepsChutes (q : Nat) : KeepsChutes s (s.retryPocket q) := by
  unfold State.retryPocket
  split
  · next hst _ => exact (State.unplaced_of_state hst).commit _
  · exact .refl s

theorem State.retryHeld_keepsChutes : KeepsChutes s s.retryHeld := .foldl State.retryPocket_keepsChutes _ s

/-! ### Firings (R145) -/

/-- The record of a pocket that a jet has fired for (R145). -/
def Pocket.shot (p : Pocket) : Pocket := { p with state := .ejected, jetFired := true }

/-- A place in flight becomes one of the fill, and the pocket that was promised it travels (R145). -/
theorem State.fireChute_keepsChutes (c : Nat) : KeepsChutes s (s.fireChute c) := by
  by_cases hno : ∀ g, (s.chute c).cfg = some g → (s.pocket (s.track.pocketAt g.ejectPos)).firesFor c = false
  · rw [State.fireChute_passed hno]
    exact .refl s
  push Not at hno
  obtain ⟨g, hg, hfires⟩ := hno
  have hfires : (s.pocket (s.track.pocketAt g.ejectPos)).firesFor c = true := by simpa using hfires
  obtain ⟨hst, hch, -⟩ := Pocket.firesFor_iff.mp hfires
  generalize hq : s.track.pocketAt g.ejectPos = q at hst hch
  have hlt : q < s.track.pockets.length := State.lt_of_occupied ((Pocket.occupied_iff _).mpr (by rw [hst]; decide))
  have ht : (s.fireChute c).track.pockets = (s.modPocket q Pocket.shot).track.pockets := by
    rw [State.fireChute_fired hg hfires, hq]
    exact congrArg Track.pockets (State.modPocket_congr (s.account_only c _ .track (by decide)) _ _)
  have hcounts (x : Nat) : (s.fireChute c).promised x + (if x = c then 1 else 0) = s.promised x ∧
      (s.fireChute c).travelling x = s.travelling x + if x = c then 1 else 0 := by
    have hnew := Pocket.counts_of_ejected (p := (s.pocket q).shot) rfl x
    have hsame : (s.pocket q).shot.chute = some c := hch
    simpa [Pocket.counts_of_decided hst x, hnew, hsame, hch, eq_comm (a := c)] using State.counts_updated ht hlt x
  intro hs
  refine hs.change c (fun x hx => ⟨?_, ?_, by rw [(hcounts x).2, if_neg hx]; rfl⟩) fun _ _ hinv => ?_
  · rw [State.fireChute_chute_ne hx]
    exact .refl _
  · rw [← (hcounts x).1, if_neg hx]; rfl
  · rw [chuteInv_iff, ← (hcounts c).1, if_pos rfl] at hinv
    rw [chuteInv_iff, (hcounts c).2, if_pos rfl, State.fireChute_chute hg hfires]
    exact hinv.fire hg _

/-! ### Completions and frames (R53 to R69, R102) -/

theorem State.completeStation_keepsChutes (ch : Chan) (i q g : Nat) (r : StationResult) :
    KeepsChutes s (s.completeStation ch i q g r) := by
  have h : KeepsChutes s ((s.judgeSource ch (r == .sourceFault)).recordAttempt q (resultAttempt i ch g r)) :=
    (s.judgeSource_keepsChutes _ _).trans (State.recordAttempt_keepsChutes _ _ _)
  unfold State.completeStation State.handResult
  split
  · exact h.trans (State.judgeAccepted_keepsChutes _ _ _ _ _)
  · exact h

theorem State.completeCheck_keepsChutes (ch : Chan) (r : Nat) (result : Option Int) :
    KeepsChutes s (s.completeCheck ch r result) := by
  unfold State.completeCheck
  split
  · exact (s.modChan_keepsChutes ch _).trans (State.judgeSource_keepsChutes _ _ _)
  · have h := (s.modChan_keepsChutes ch fun c => { c with cnt := countCheck c.cnt }).trans
      (State.judgeSource_keepsChutes _ ch false)
    exact .ite (h.trans ((KeepsChutes.of_only (State.modCal_only _ _) (by decide)).trans
      (State.modChan_keepsChutes _ _ _))) (h.trans (State.enterSuspect_keepsChutes _ _))

theorem State.completeJob_keepsChutes (ch : Chan) (j : Job) : KeepsChutes s (s.completeJob ch j) := by
  unfold State.completeJob
  dsimp only
  split
  · exact ((s.endJob_keepsChutes ch).trans (State.completeStation_keepsChutes _ _ _ _ _ _)).trans (State.offer_keepsChutes _)
  · exact ((s.endJob_keepsChutes ch).trans (State.completeCheck_keepsChutes _ _ _ _)).trans (State.offer_keepsChutes _)

theorem State.abortOffer_keepsChutes (ch : Chan) (o : JobOutcome) : KeepsChutes s (s.abortJob ch o).offer :=
  (s.abortJob_keepsChutes ch o).trans (State.offer_keepsChutes _)

theorem State.sampleError_keepsChutes (ch : Chan) (j : Job) : KeepsChutes s (s.sampleError ch j) :=
  .ite (s.abortOffer_keepsChutes ch _) (s.modChan_keepsChutes ch _)

theorem State.goodSample_keepsChutes (ch : Chan) (positive : Bool) (f : Sample) (j : Job) :
    KeepsChutes s (s.goodSample ch positive f j) :=
  .ite (.ite (.ite (s.modChan_keepsChutes ch _) (s.completeJob_keepsChutes ch _)) (s.modChan_keepsChutes ch _))
    (s.abortOffer_keepsChutes ch _)

theorem State.useFrame_keepsChutes (ch : Chan) (err : Option FrameError) (f : Taken) :
    KeepsChutes s (s.useFrame ch err f) := by
  unfold State.useFrame
  split
  · exact .refl s
  · split
    · exact .refl s
    · exact .refl s
    · exact s.modChan_keepsChutes ch _
    · exact s.modChan_keepsChutes ch _
    · split
      · exact s.goodSample_keepsChutes ch _ _ _
      · exact s.sampleError_keepsChutes ch _
    · split
      · exact s.goodSample_keepsChutes ch _ _ _
      · exact s.sampleError_keepsChutes ch _

theorem State.countGood_keepsChutes (ch : Chan) (err : Option FrameError) : KeepsChutes s (s.countGood ch err) :=
  .ite (s.modChan_keepsChutes ch _)
    (.ite ((s.modChan_keepsChutes ch _).trans (State.offer_keepsChutes _)) (s.modChan_keepsChutes ch _))

theorem State.takeFrame_keepsChutes (ch : Chan) (f : Taken) : KeepsChutes s (s.takeFrame ch f) := by
  unfold State.takeFrame
  dsimp only
  split
  · exact (s.modChan_keepsChutes ch _).trans (State.useFrame_keepsChutes _ _ _ _)
  · exact (s.modChan_keepsChutes ch _).trans (State.countGood_keepsChutes _ _ _)
  · exact s.modChan_keepsChutes ch _

theorem State.linkSymbol_keepsChutes (ch : Chan) (y : LinkSymbol) : KeepsChutes s (s.linkSymbol ch y) := by
  unfold State.linkSymbol
  dsimp only
  split
  · exact (s.modChan_keepsChutes ch _).trans (State.takeFrame_keepsChutes _ _ _)
  · exact s.modChan_keepsChutes ch _

theorem State.stallJob_keepsChutes (ch : Chan) : KeepsChutes s (s.stallJob ch) :=
  .ite (s.abortOffer_keepsChutes ch _) (.refl s)

/-! ### The settle (R33, R144, R145) -/

theorem State.judgeLoadOk_keepsChutes : KeepsChutes s s.judgeLoadOk :=
  .ite ((s.modLine_keepsChutes _).trans (.of_pockets rfl rfl fun _ _ => ⟨rfl, rfl⟩)) (.refl s)

theorem State.workedSettle_keepsChutes : KeepsChutes s s.workedSettle :=
  (((((s.modLine_keepsChutes openDwell).trans (State.retryHeld_keepsChutes _)).trans (State.judgeLoadOk_keepsChutes _)).trans
    (.of_only (State.modSched_only _ _) (by decide))).trans (.foldl State.fireChute_keepsChutes _ _)).trans
      (State.offer_keepsChutes _)

theorem State.settle_keepsChutes : KeepsChutes s s.settle := by
  have falls : KeepsChutes s s.motionFalls :=
    (KeepsChutes.of_only (s.modPins_only _) (by decide)).trans (State.modLine_keepsChutes _ _)
  unfold State.settle
  dsimp only
  split
  · exact falls.trans (State.workedSettle_keepsChutes _)
  · exact falls.trans (State.workedSettle_keepsChutes _)
  all_goals exact (falls.trans (State.modLine_keepsChutes _ _)).trans (State.retryHeld_keepsChutes _)

end

/-! ### Finishes, misses and loads, with every jet OFF (R15, R19, R22, R148, R149) -/

/-- What the settlement of a pocket's account leaves at any chute, one that is not of the table too (R149). -/
theorem State.settleAccounts_chute_any (s : State) (q c : Nat) :
    (s.settleAccounts q).chute c = { s.chute c with
      inFlight := (s.chute c).inFlight - if (s.pocket q).promisedTo c then 1 else 0
      oldBox := (s.chute c).oldBox - if (s.pocket q).travelsTo c then 1 else 0 } := by
  by_cases hc : 1 ≤ c ∧ c ≤ s.chutes.length
  · exact State.settleAccounts_chute hc.1 hc.2 q
  · rw [State.chute_outside hc, State.chute_outside (by rwa [State.settleAccounts_chutes_length])]
    simp [Chute.powerOn]

/-- A finish takes from its chute's account what the pocket held there (R22, R149). -/
theorem ChutesInv.finish (h : ChutesInv s) (hoff : s.jetsOff) (ho : (s.pocket q).occupied = true) (o : Finish) :
    ChutesInv (s.finish q o) := by
  intro c h1 h2
  have ht := congrArg Track.pockets (s.finish_track q o)
  have hq := State.lt_of_occupied ho
  obtain ⟨hpromised, htravelling⟩ : (s.finish q o).promised c + (if (s.pocket q).promisedTo c then 1 else 0) = s.promised c ∧
      (s.finish q o).travelling c + (if (s.pocket q).travelsTo c then 1 else 0) = s.travelling c :=
    State.counts_updated ht hq c
  have hinv := h c h1 h2
  rw [chuteInv_iff, ← hpromised, ← htravelling] at hinv
  rw [chuteInv_iff, State.chute_congr (s.finish_chutes q o), State.settleAccounts_chute_any]
  exact hinv.settle (by split <;> omega) (by split <;> omega) ((s.jetsOff_iff_chute).mp hoff c)

/-- A missed part's place goes back to those in flight, and its pocket is promised it again (R20, R148). -/
theorem ChutesInv.missAt (h : ChutesInv s) (hoff : s.jetsOff) (hst : (s.pocket q).state = .ejected) :
    ChutesInv (s.missAt q ((s.pocket q).chute.getD 0)) := by
  have hq : q < s.track.pockets.length := State.lt_of_occupied ((Pocket.occupied_iff _).mpr (by rw [hst]; decide))
  generalize hc : (s.pocket q).chute.getD 0 = c
  have ht : (s.missAt q c).track.pockets = (s.modPocket q Pocket.missed).track.pockets :=
    congrArg Track.pockets (State.account_only _ _ _ .track (by decide))
  have hch (x : Nat) (hx : 1 ≤ x) : (s.pocket q).chute = some x ↔ x = c := by
    cases hp : (s.pocket q).chute with
    | none => rw [hp, Option.getD_none] at hc; simp; omega
    | some y => rw [hp, Option.getD_some] at hc; simp [hc, eq_comm]
  have hcounts (x : Nat) (hx : 1 ≤ x) : (s.missAt q c).promised x = s.promised x + (if x = c then 1 else 0) ∧
      (s.missAt q c).travelling x + (if x = c then 1 else 0) = s.travelling x := by
    have hnew := Pocket.counts_of_decided (p := (s.pocket q).missed) rfl x
    have hsame : (s.pocket q).missed.chute = (s.pocket q).chute := rfl
    simpa [Pocket.counts_of_ejected hst x, hnew, hsame, hch x hx] using State.counts_updated ht hq x
  intro x h1 h2
  have hinv := h x h1 h2
  rw [chuteInv_iff, ← (hcounts x h1).2] at hinv
  rw [chuteInv_iff, (hcounts x h1).1]
  by_cases hx : x = c
  · subst hx
    rw [if_pos rfl] at hinv ⊢
    have hin : 1 ≤ x ∧ x ≤ s.chutes.length := by
      by_contra hout
      obtain ⟨-, hcover, -⟩ := hinv
      rw [State.chute_outside hout] at hcover
      simp [Chute.powerOn] at hcover
    rw [State.missAt_chute_same hin.1 hin.2]
    exact hinv.miss ((s.jetsOff_iff_chute).mp hoff x)
  · rw [if_neg hx] at hinv ⊢
    rw [State.missAt_chute_ne hx]
    exact hinv

theorem ChutesInv.handleCheck (h : ChutesInv s) (hoff : s.jetsOff) (q : Nat) (sensed : Bool) :
    ChutesInv (s.handleCheck q sensed) := by
  have lost (ho : (s.pocket q).occupied = true) : ChutesInv ((s.raise .partLost (.pocket q)).finish q .lost) :=
    (s.raise_keepsChutes _ _ h).finish hoff ho .lost
  have lap : ChutesInv (s.modPocket q Pocket.secondLap) := s.modPocket_keepsChutes q _ ⟨rfl, rfl⟩ h
  unfold State.handleCheck
  split
  · exact s.raiseFault_keepsChutes _ _ h
  · exact h
  · next hst => exact h.finish hoff ((Pocket.occupied_iff _).mpr (by rw [hst]; decide)) .sorted
  · next hst =>
    have hmiss := h.missAt hoff hst
    rw [State.ejectMiss_eq]
    split
    · exact hmiss
    · exact State.raiseFault_keepsChutes _ _ _ hmiss
  · next hst => exact lost ((Pocket.occupied_iff _).mpr (by rw [hst]; decide))
  · exact lap
  · next hst => exact lost ((Pocket.occupied_iff _).mpr (by rw [hst]; decide))
  · exact lap
  all_goals exact h

/-- A load writes the record of an EMPTY pocket (R15). -/
theorem State.handleLoad_keepsChutes (s : State) (q : Nat) (sensed : Bool) : KeepsChutes s (s.handleLoad q sensed) := by
  have hask : KeepsChutes s (s.askSlot q) := .of_only (s.askSlot_only q) (by decide)
  unfold State.handleLoad
  split
  · exact .refl s
  · next ho =>
    split
    · unfold State.load
      dsimp only
      split
      · next i _ =>
        refine hask.trans (.of_pocket (q := q) (f := fun _ => loadedPocket (s.askSlot q).track.loadSerial i
          ((((s.askSlot q).slot i).definition.map LotDef.retryLimit).getD 0))
          (by rw [State.loadInto_track]) (State.loadInto_only _ _ _ .chutes (by decide))
          (.of_placeless ?_ ⟨by simp [loadedPocket], by simp [loadedPocket]⟩))
        have hst : ((s.askSlot q).pocket q).state = .empty := by
          rw [State.pocket_congr (s.askSlot_only q .track (by decide))]
          exact (Pocket.unoccupied_iff _).mp (by simpa using ho)
        rw [Pocket.Placeless, hst]
        decide
      · exact hask.trans (State.raiseFault_keepsChutes _ _ _)
    · exact .of_only (s.modLineCnt_only _) (by decide)
    · exact s.raiseFault_keepsChutes _ _
    · exact .refl s

/-- Pockets purged in turn, with every jet OFF (R23). -/
theorem ChutesInv.purgePockets (h : ChutesInv s) (hoff : s.jetsOff) (l : List Nat) :
    ChutesInv (l.foldl State.purgePocket s) := by
  induction l generalizing s with
  | nil => exact h
  | cons q l ih =>
    rw [List.foldl_cons, State.purgePocket]
    split
    · next ho => exact ih (h.finish hoff ho .purged) ((State.finish_passes (Q := fun _ => True) trivial s .purged).jets hoff)
    · exact ih h hoff

end

end Sys2Proof.Machine
end


-- ==== Sys2Proof/Proofs/ChuteAccountsRequests.lean ====
section
/-! PROOFS. The accounts of the chutes over every request: CHUTE.SET, BOX.EXCHANGED, TRACK.SET, LINE.RESET, POCKET.PURGE and
VERDICT write them or the pockets that count (R139, R140, R150). -/

namespace Sys2Proof.Machine

/-! ### What bars the removal of a chute (R140) -/

theorem LotDef.names_iff {d : LotDef} {c : Nat} :
    d.names c = true ↔ d.rejectChute = c ∨ d.retestChute = c ∨ ∃ k ∈ d.classes, k.chute = c := by
  simp [LotDef.names, or_assoc]

theorem LotSlot.names_iff {sl : LotSlot} {c : Nat} : sl.names c = true ↔ ∃ d, sl.state ≠ .free ∧ sl.definition = some d ∧
    (d.rejectChute = c ∨ d.retestChute = c ∨ ∃ k ∈ d.classes, k.chute = c) := by
  unfold LotSlot.names
  cases sl.definition <;> simp [LotDef.names_iff]

theorem mem_chuteNumbers {x : Nat} : x ∈ chuteNumbers ↔ 1 ≤ x ∧ x ≤ 20 := by
  simp only [chuteNumbers, List.mem_map, List.mem_range]
  exact ⟨fun ⟨n, hn, he⟩ => by omega, fun h => ⟨x - 1, by omega, by omega⟩⟩

theorem SlotId.exists_iff {P : SlotId → Prop} : (∃ i, P i) ↔ P .s0 ∨ P .s1 :=
  ⟨fun ⟨i, h⟩ => match i, h with | .s0, h => .inl h | .s1, h => .inr h, fun h => h.elim (⟨_, ·⟩) (⟨_, ·⟩)⟩

theorem State.removeBusy_iff (s : State) (c : Nat) : s.removeBusy c = true ↔ s.removalBarred c := by
  unfold State.removeBusy State.removalBarred
  simp only [SlotId.exists_iff, Bool.or_eq_true, LotSlot.names_iff, List.any_eq_true, mem_chuteNumbers, Bool.and_eq_true,
    bne_iff_ne, Option.any_eq_true, beq_iff_eq, Pocket.occupied_iff, decide_eq_true_eq, or_assoc, and_assoc, exists_and_left,
    State.slot]

/-! ### The entries written by CHUTE.SET and BOX.EXCHANGED (R139, R140, R150) -/

section
variable {s : State}

/-- One entry written: the accounts hold where it is balanced. -/
theorem ChutesInv.modChute (h : ChutesInv s) (c : Nat) {f : Chute → Chute}
    (hf : ChuteInv s c → (f (s.chute c)).Balanced (s.promised c) (s.travelling c)) : ChutesInv (s.modChute c f) := by
  have ht : (s.modChute c f).track = s.track := s.modChute_only c f .track (by decide)
  have hp (x : Nat) : (s.modChute c f).promised x = s.promised x := by rw [State.promised, ht, State.promised]
  have hv (x : Nat) : (s.modChute c f).travelling x = s.travelling x := by rw [State.travelling, ht, State.travelling]
  refine h.change c (fun x hx => ⟨?_, hp x, hv x⟩) fun _ _ hinv => ?_
  · rw [State.modChute_ne hx]
    exact .refl _
  · rw [chuteInv_iff, hp, hv]
    obtain e | ⟨-, e⟩ := s.modChute_cases c c f <;> rw [e]
    · exact hinv
    · exact hf hinv

theorem ChutesInv.account (h : ChutesInv s) (c : Nat) {f : Chute → Chute}
    (hf : ChuteInv s c → (f (s.chute c)).Balanced (s.promised c) (s.travelling c)) : ChutesInv (s.account c f) :=
  KeepsChutes.of_chutes ((s.account_only c f .track (by decide)).trans (s.modChute_only c f .track (by decide)).symm)
    (fun x => by rw [State.chute_congr (s.account_chutes c f)]; exact .refl _) (h.modChute c hf)

/-- Nothing is promised to a chute that no occupied pocket names, and nothing travels to it. -/
theorem State.no_places {c : Nat} (h : ∀ p ∈ s.track.pockets, p.state ≠ .empty → p.chute ≠ some c) :
    s.promised c = 0 ∧ s.travelling c = 0 := by
  have hno {st : PocketState} (hst : st ≠ .empty) :
      s.track.pockets.countP (fun p => p.state == st && p.chute == some c) = 0 := by
    refine List.countP_eq_zero.mpr fun p hp hx => ?_
    rw [Bool.and_eq_true, beq_iff_eq, beq_iff_eq] at hx
    exact h p hp (hx.1 ▸ hst) hx.2
  exact ⟨hno (by decide), hno (by decide)⟩

/-- A chute that may be removed has no pocket promised to it and no part travelling to it (R140). -/
theorem State.no_places_of_not_barred {c : Nat} (h : ¬s.removalBarred c) : s.promised c = 0 ∧ s.travelling c = 0 :=
  State.no_places fun p hp hst hc => h (.inr (.inr (.inl ⟨p, hp, hst, .inr hc⟩)))

/-- A chute removed: it had no place in flight and no old-box count (R140). -/
theorem ChutesInv.removeChute (h : ChutesInv s) (c : Nat) : ChutesInv (s.removeChute c).2 := by
  unfold State.removeChute
  split
  · split
    · exact h
    · next hb =>
      obtain ⟨hp, hv⟩ := State.no_places_of_not_barred (mt (s.removeBusy_iff c).mpr hb)
      refine h.account c fun _ => ?_
      rw [hp, hv]
      exact Chute.balanced_zero rfl rfl rfl rfl
  · exact h

theorem ChutesInv.configureChute (h : ChutesInv s) (c : Nat) (f : ChuteFields) : ChutesInv (s.configureChute c f).2 := by
  unfold State.configureChute
  split
  · exact h
  · next hb => exact h.account c fun hinv => Chute.Balanced.configure hinv (Bool.eq_false_of_not_eq_true hb)

theorem ChutesInv.chuteSet (h : ChutesInv s) (c a : Nat) (f : ChuteFields) : ChutesInv (s.chuteSet c a f).2 := by
  unfold State.chuteSet
  split
  · exact h
  · split
    · split
      · exact h
      · split
        · exact h.removeChute c
        · exact h.configureChute c f
    · exact h

theorem ChutesInv.boxExchanged (h : ChutesInv s) (c : Nat) : ChutesInv (s.boxExchanged c).2 := by
  unfold State.boxExchanged
  split
  · next hok =>
    obtain ⟨-, -, hcfg⟩ := (s.chuteOk_iff c).mp hok
    exact h.account c fun hinv => Chute.Balanced.exchange hinv hcfg
  · exact h

end

/-! ### Tables emptied (R4, R24, R28) -/

/-- No pocket is DECIDED or EJECTED: a chute without places, its jet OFF, is balanced. -/
theorem ChutesInv.of_cleared {s : State} (hp : ∀ p ∈ s.track.pockets, p.state = .empty)
    (hc : ∀ c, (s.chute c).fill = 0 ∧ (s.chute c).inFlight = 0 ∧ (s.chute c).oldBox = 0 ∧ (s.chute c).jet = none) :
    ChutesInv s := fun c _ _ => by
  obtain ⟨hpromised, htravelling⟩ := State.no_places (c := c) fun p h hst => absurd (hp p h) hst
  obtain ⟨hf, hi, ho, hj⟩ := hc c
  rw [chuteInv_iff, hpromised, htravelling]
  exact Chute.balanced_zero hf hi ho hj

/-- The chutes of a state whose every entry was written by f. -/
theorem State.chute_mapped {s t : State} {f : Chute → Chute} (ht : t.chutes = s.chutes.map f) (c : Nat) :
    t.chute c = f (s.chute c) ∨ t.chute c = .powerOn := by
  by_cases hc : 1 ≤ c ∧ c ≤ t.chutes.length
  · have hl : c - 1 < s.chutes.length := by rw [ht, List.length_map] at hc; omega
    simp [State.chute, ht, Nat.ne_of_gt hc.1, List.getD_eq_getElem?_getD, List.getElem?_eq_getElem hl]
  · exact .inr (State.chute_outside hc)

section
variable {s : State}

theorem ChutesInv.trackSet (h : ChutesInv s) (r : TrackSetReq) : ChutesInv (s.trackSet r).2 := by
  rcases s.trackSet_cases r with e | ⟨-, -, e⟩ <;> rw [e]
  · exact h
  · refine .of_cleared (fun p hp => ?_) fun c => ?_
    · rw [List.eq_of_mem_replicate hp]; rfl
    · obtain e | e := State.chute_mapped (s := s) (t := (s.modTrack (Track.install r)).modChutes fun l => l.map Chute.cleared) rfl c
        <;> rw [e] <;> exact ⟨rfl, rfl, rfl, rfl⟩

theorem State.resetAll_chutesInv (s : State) : ChutesInv s.resetAll := by
  refine .of_cleared (fun p hp => ?_) fun c => ?_
  · obtain ⟨-, -, rfl⟩ := List.mem_map.mp hp
    rfl
  · obtain e | e := State.chute_mapped (s := s) (t := s.resetAll) rfl c <;> rw [e] <;> exact ⟨rfl, rfl, rfl, rfl⟩

/-- A purge is taken with the line at rest, when no jet pulses (R23, R44). -/
theorem ChutesInv.pocketPurge (h : ChutesInv s) (hline : LineKept s) (n : Nat) : ChutesInv (s.pocketPurge n).2 := by
  rcases s.pocketPurge_cases n with e | ⟨hs, e⟩ <;> rw [e]
  · exact h
  · have hstill : s.line.phase ≠ .working := hline.still (by rcases hs with hs | hs <;> rw [hs] <;> rfl)
    obtain ⟨hoff, -⟩ := (s.dwellDone_iff).mp (hline.2.1 hstill)
    exact h.purgePockets hoff _

end

/-! ### The other requests -/

section
variable (s : State)

theorem State.enterRun_keepsChutes (target : LineState) : KeepsChutes s (s.enterRun target) := by
  have h (f : LineCtl → LineCtl) (c : Prop) [Decidable c] :
      KeepsChutes s (if c then (s.modLine f).retryHeld else s.modLine f) :=
    .ite ((s.modLine_keepsChutes f).trans (State.retryHeld_keepsChutes _)) (s.modLine_keepsChutes f)
  have ready (u : State) : KeepsChutes u u.readyAtRest :=
    .ite ((u.modLine_keepsChutes _).trans (State.judgeLoadOk_keepsChutes _)) (.refl u)
  exact .ite (h _ _) ((h _ _).trans (ready _))

theorem State.lineRequests_keepChutes : (∀ b m t, KeepsChutes s (s.lineStart b m t).2) ∧ KeepsChutes s s.lineStop.2 ∧
    KeepsChutes s s.lineDrain.2 ∧ KeepsChutes s s.lineResume.2 ∧ KeepsChutes s s.lineClear.2 := by
  have stopping : KeepsChutes s s.enterStopping := .of_only s.enterStopping_only (by decide)
  refine ⟨fun b m t => ?_, ?_, ?_, ?_, ?_⟩
  · unfold State.lineStart
    split
    · split
      · split
        · exact .refl s
        · exact (s.modLine_keepsChutes _).trans (State.enterRun_keepsChutes _ _)
      · exact .refl s
    · exact .refl s
  · unfold State.lineStop
    split
    · exact stopping
    · exact stopping
    all_goals exact .refl s
  · unfold State.lineDrain
    split
    · exact s.modLine_keepsChutes fun l => { l with state := .drain, loadOk := false }
    · split
      · exact .refl s
      · exact s.enterRun_keepsChutes _
    all_goals exact .refl s
  · unfold State.lineResume
    split
    · split
      · exact .refl s
      · exact s.enterRun_keepsChutes _
    · exact .refl s
  · unfold State.lineClear
    split
    · exact s.modLine_keepsChutes _
    · split
      · exact (s.modLine_keepsChutes _).trans (.of_pockets rfl rfl fun _ _ => ⟨rfl, rfl⟩)
      · exact .refl s
    all_goals exact .refl s

theorem State.channelRequests_keepChutes : (∀ r, KeepsChutes s (s.chanSet r).2) ∧
    (∀ n, KeepsChutes s (s.chanReset n).2) ∧ ∀ n, KeepsChutes s (s.chanRestore n).2 := by
  refine ⟨fun r => ?_, fun n => ?_, fun n => ?_⟩
  · unfold State.chanSet
    split
    · split
      · exact ((s.modChan_keepsChutes _ _).trans (.of_only (State.modShared_only _ _) (by decide))).trans
          (.of_only (State.modCal_only _ _) (by decide))
      · exact .refl s
      · exact .refl s
    · exact .refl s
  · unfold State.chanReset
    split
    · exact .refl s
    · split
      · exact .refl s
      · exact (s.modChan_keepsChutes _ _).trans (State.stallJob_keepsChutes _ _)
      · exact s.modChan_keepsChutes _ _
  · unfold State.chanRestore
    split
    · exact .refl s
    · split
      · exact .refl s
      · exact .refl s
      · exact ((s.modChan_keepsChutes _ _).trans (.of_only (State.modCal_only _ _) (by decide))).trans
          (State.offer_keepsChutes _)

/-- A verdict decides the REFERRED pocket it finds; a late one is counted (R127 to R130). -/
theorem State.verdict_keepsChutes (n c : Nat) : KeepsChutes s (s.verdict n c).2 := by
  unfold State.verdict
  split
  · exact .refl s
  · split
    · exact .refl s
    · split
      · next q hq =>
        obtain ⟨hl, hfound, -⟩ := List.findIdx?_eq_some_iff_getElem.mp hq
        rw [Bool.and_eq_true, beq_iff_eq] at hfound
        have hst : (s.pocket q).state = .referred := by rw [State.pocket, List.getD_eq_getElem _ _ hl, hfound.1]
        exact (State.unplaced_of_state hst).answerReferral _ _ _
      · unfold State.lateVerdict
        dsimp only
        split
        · exact .ite (s.bumpLotOf_keepsChutes _ _) (.refl s)
        · exact .refl s

theorem State.clearGroup_keepsChutes (g : Group) : KeepsChutes s (s.clearGroup g) := by
  cases g with
  | line => exact .of_only (s.modLineCnt_only _) (by decide)
  | lot i => exact .of_only (s.modSlot_only i _) (by cases i <;> decide)
  | chute c => exact fun h => h.modChute c fun hinv => Chute.Balanced.same hinv ⟨rfl, rfl, rfl, rfl, id⟩
  | chan ch => exact s.modChan_keepsChutes ch _
  | link => exact .of_only (s.modLinkCnt_only _) (by decide)

theorem State.countRead_keepsChutes (g i c : Nat) : KeepsChutes s (s.countRead g i c).2 := by
  unfold State.countRead
  split
  · exact .refl s
  · exact .ite (s.clearGroup_keepsChutes _) (.refl s)
  · exact .refl s

theorem State.eventMask_keepsChutes (m : Nat) : KeepsChutes s (s.eventMask m).2 := by
  unfold State.eventMask
  split
  · exact .of_only (s.modReport_only _) (by decide)
  · exact .refl s

end

section
variable {s t : State}

theorem ChutesInv.owner (h : ChutesInv s) (hline : LineKept s) (r : Request) : ChutesInv (s.owner r).2 := by
  obtain ⟨hident, htrack, hchan, hlot, hpocket, hcal⟩ := s.reads_state
  obtain ⟨hload, harm, hfree⟩ := s.lot_only
  obtain ⟨hset, hreset, hrestore⟩ := s.channelRequests_keepChutes
  obtain ⟨hstart, hstop, hdrain, hresume, hclear⟩ := s.lineRequests_keepChutes
  have same {u : State} (hu : u = s) : ChutesInv u := hu ▸ h
  have only {l : List Block} {u : State} (hu : Only l s u) (hl : ∀ b ∈ [Block.track, .chutes], b ∉ l) : ChutesInv u :=
    KeepsChutes.of_only hu hl h
  cases r with
  | ident => exact same hident
  | trackRead => exact same htrack
  | chanRead c => exact same (hchan c)
  | lotRead i => exact same (hlot i)
  | pocketRead q => exact same (hpocket q)
  | calRead => exact same hcal
  | calWrite _ => exact h
  | trackSet r => exact h.trackSet r
  | lineReset => exact s.resetAll_chutesInv
  | pocketPurge n => exact h.pocketPurge hline n
  | chuteSet c a f => exact h.chuteSet c a f
  | chanSet r => exact hset r h
  | chanReset c => exact hreset c h
  | chanRestore c => exact hrestore c h
  | lotLoad r => exact only (hload r) (by decide)
  | lotArm i => exact only (harm i) (by decide)
  | lotFree i => exact only (hfree i) (by decide)
  | lineStart b m t => exact hstart b m t h
  | lineStop => exact hstop h
  | lineDrain => exact hdrain h
  | lineResume => exact hresume h
  | lineClear => exact hclear h
  | verdict n c => exact s.verdict_keepsChutes n c h
  | boxExchanged c => exact h.boxExchanged c
  | tempSet v => exact only (s.modTemp_only _) (by decide)
  | countRead g i c => exact s.countRead_keepsChutes g i c h
  | eventMask m => exact s.eventMask_keepsChutes m h

/-- A command that hands a request over. -/
theorem HandsOver.chutesInv (h : HandsOver s t) (hs : ChutesInv s) (hline : LineKept s) : ChutesInv t := by
  obtain ⟨calen, buffer, v, hv, honly⟩ := h
  have hoffer : ChutesInv (s.offering calen buffer) := hs
  have hv' : ChutesInv v := by
    rcases hv with rfl | ⟨r, rfl⟩
    · exact hoffer
    · exact hoffer.owner hline r
  exact KeepsChutes.of_only honly (by decide) hv'

end

end Sys2Proof.Machine
end


-- ==== Sys2Proof/Proofs/ChuteAccountsKept.lean ====
section
/-! PROOFS. The accounts of the chutes over index starts, time and power-on, and so over every step (R136, R152, R153). -/

namespace Sys2Proof.Machine

section
variable {s t : State}

/-! ### The index start: every jet is OFF and every job cut before the pockets are handled (R31, R44) -/

theorem State.cutShort_keepsChutes (s : State) (ls cs : Bool) : KeepsChutes s (s.cutShort ls cs) :=
  ((KeepsChutes.of_only (s.indexLineWork_only ls cs) (by decide)).trans (State.cutDwell_keepsChutes _)).trans
    (State.cutJets_keepsChutes _)

theorem ChutesInv.handleBoth (h : ChutesInv s) (hoff : s.jetsOff) (hrest : s.atRest) (ls cs : Bool) :
    ChutesInv (s.handleBoth ls cs) := by
  have chosen (u : State) : KeepsChutes u u.chosen := .of_only (u.modChoices_only _) (by decide)
  have loadFirst (q r : Nat) : ChutesInv ((s.handleLoad q ls).handleCheck r cs) :=
    (s.handleLoad_keepsChutes q ls h).handleCheck
      ((State.handleLoad_passes (Q := fun _ => True) trivial hrest ls).jets hoff) r cs
  unfold State.handleBoth
  dsimp only
  split
  · split
    · exact chosen _ (loadFirst _ _)
    · exact chosen _ (State.handleLoad_keepsChutes _ _ _ (h.handleCheck hoff _ cs))
  · exact loadFirst _ _

theorem ChutesInv.trackIndex (h : ChutesInv s) (hoff : s.jetsOff) (hrest : s.atRest) (ls cs : Bool) :
    ChutesInv (s.trackIndex ls cs) := by
  have advance (u : State) : KeepsChutes u (u.modTrack Track.advance) := .of_pockets rfl rfl fun _ _ => ⟨rfl, rfl⟩
  unfold State.trackIndex
  split
  · exact advance s h
  · exact advance _ (State.leaveDecide_keepsChutes _ _ (h.handleBoth hoff hrest ls cs))

theorem ChutesInv.indexStart (h : ChutesInv s) (ls cs : Bool) : ChutesInv (s.indexStart ls cs) := by
  have htrack : ChutesInv ((s.cutShort ls cs).trackIndex ls cs) :=
    (s.cutShort_keepsChutes ls cs h).trackIndex (s.cutShort_jetsOff ls cs) (s.cutShort_rests ls cs) ls cs
  rw [State.indexStart_eq]
  exact KeepsChutes.of_only (State.judgeDrained_only _) (by decide) (KeepsChutes.of_only (State.modCal_only _ _) (by decide) htrack)

/-! ### Time, power-on and the commands of the part itself -/

theorem State.tick_keepsChutes (s : State) : KeepsChutes s s.tick := by
  refine .of_chutes rfl fun c => ?_
  by_cases hc : 1 ≤ c ∧ c ≤ s.chutes.length
  · have he : s.tick.chute c = (s.chute c).tick := by
      have hl : c - 1 < s.chutes.length := by omega
      simp [State.chute, State.tick, Nat.ne_of_gt hc.1, List.getD_eq_getElem?_getD, List.getElem?_eq_getElem hl]
    rw [he]
    exact ⟨rfl, rfl, rfl, rfl, fun hj => congrArg tickTimer hj⟩
  · rw [State.chute_outside hc, State.chute_outside (by rwa [State.tick, List.length_map])]
    exact .refl _

theorem State.idle_keepsChutes (s : State) : KeepsChutes s s.idle := by
  unfold State.idle
  split
  · exact s.tick_keepsChutes
  · exact .of_chutes rfl fun _ => .refl _
  · exact .of_chutes rfl fun _ => .refl _

theorem State.poweredOn_chutesInv (pins : Pins) (stored : StoredCal) (valid : Bool) (n : Nat) (l : List Instr) :
    ChutesInv (State.poweredOn pins stored valid n l) := by
  refine .of_cleared (fun p hp => (nomatch hp)) fun c => ?_
  have he : (State.poweredOn pins stored valid n l).chute c = .powerOn := by
    unfold State.chute
    rw [show (State.poweredOn pins stored valid n l).chutes = List.replicate 20 .powerOn from rfl,
      List.getD_eq_getElem?_getD, List.getElem?_replicate]
    repeat' split
    all_goals rfl
  rw [he]
  exact ⟨rfl, rfl, rfl, rfl⟩

/-- A jet that turns OFF leaves the places as they were (R146). -/
theorem ChutesInv.jetCompletion (h : ChutesInv s) (c : Nat) :
    ChutesInv (s.modChute c fun e => { e with jet := none }).judgeDwell :=
  KeepsChutes.of_only (State.judgeDwell_only _) (by decide)
    (h.modChute c fun hinv => Chute.Balanced.same hinv ⟨rfl, rfl, rfl, rfl, fun _ => rfl⟩)

/-- The commands of the part itself and of its lines. -/
theorem exec_keepsChutes {c : Instr} (hc : c.request = none) (hr : ∀ b, c ≠ .requestTaken b) (he : exec c s = .next t) :
    KeepsChutes s t := by
  have offered {u : State} (h : KeepsChutes s u) : KeepsChutes s u.transmit := h.trans u.transmit_keepsChutes
  have given : KeepsChutes s s.giveUp :=
    (KeepsChutes.of_only (s.setReceiver_only _) (by decide)).trans (.of_only (State.modLinkCnt_only _ _) (by decide))
  cases c <;> simp only [Instr.request, reduceCtorEq] at hc
  case requestTaken b => exact absurd rfl (hr b)
  all_goals obtain rfl := Host.Outcome.next.inj he
  case powerOnReset m a b => exact fun _ => State.poweredOn_chutesInv _ _ _ _ _
  case indexStart ls cs =>
    split
    · exact offered (.refl s)
    · exact offered fun h => h.indexStart ls cs
  case settle => exact .ite (offered s.settle_keepsChutes) (offered (.refl s))
  case frameTaken ch symbols => exact offered (.foldl (fun u y => u.linkSymbol_keepsChutes ch y) symbols s)
  case watchdogExpiry ch =>
    exact .ite (offered (((s.modChan_keepsChutes _ _).trans (State.raise_keepsChutes _ _ _)).trans
      (State.stallJob_keepsChutes _ _))) (offered (.refl s))
  case relaySettleExpiry ch => exact .ite (offered (s.modChan_keepsChutes _ _)) (offered (.refl s))
  case dwellBudgetExpiry =>
    exact .ite (offered (((s.modLine_keepsChutes _).trans (State.cutDwell_keepsChutes _)).trans
      (.of_only (State.judgeDwell_only _) (by decide)))) (offered (.refl s))
  case motionTimerExpiry =>
    exact .ite (offered ((s.modLine_keepsChutes _).trans (State.raiseFault_keepsChutes _ _ _))) (offered (.refl s))
  case stallTimerExpiry =>
    exact .ite (offered (((s.modLine_keepsChutes _).trans (State.raise_keepsChutes _ _ _)).trans
      (.of_only (State.modLineCnt_only _ _) (by decide)))) (offered (.refl s))
  case jetCompletion c => exact .ite (offered fun h => h.jetCompletion c) (offered (.refl s))
  case stalenessExpiry =>
    exact .ite (offered ((KeepsChutes.of_only (s.modTemp_only _) (by decide)).trans (State.raise_keepsChutes _ _ _)))
      (offered (.refl s))
  case linkFrameReceived bytes => exact offered (.of_only (Only.foldl State.linkByte_only bytes s) (by decide))
  case gapExpiry =>
    split
    · exact offered given
    · exact offered (.refl s)
  case huntingPause =>
    split
    · exact offered given
    · exact offered (.refl s)
    · exact offered (.refl s)
  case transmitEnd => exact .of_only s.frameSent_only (by decide)
  case calWriteCompletion =>
    split
    · exact offered (((KeepsChutes.of_only (s.modCal_only _) (by decide)).trans
        (.of_only (State.modLink_only _ _) (by decide))).trans (.of_only (State.place_only _ _) (by decide)))
    · exact offered (.refl s)

/-! ### Every step -/

theorem ChutesInv.exec (h : ChutesInv s) (hline : LineKept s) {c : Instr} (he : exec c s = .next t) : ChutesInv t := by
  cases hr : c.request with
  | some x => exact (exec_request_handsOver hr he).chutesInv h hline
  | none =>
    by_cases hb : ∃ b, c = .requestTaken b
    · obtain ⟨b, rfl⟩ := hb
      exact (exec_requestTaken_handsOver he).chutesInv h hline
    · push Not at hb
      exact exec_keepsChutes hr hb he h

/-- Settles O10: every operation keeps each chute's entry balanced with the pockets that count for it; a finish and a miss
come with every jet OFF, by the line invariants. -/
theorem chuteAccountsKept : Obligations.ChuteAccountsKept := by
  unfold Obligations.ChuteAccountsKept
  intro s t _ hline hdwell hchutes hstep
  rcases step_cases hstep with rfl | ⟨c, rest, -, he⟩
  · exact s.idle_keepsChutes hchutes
  · exact ChutesInv.exec (s := { s with pending := rest }) hchutes ⟨hline, hdwell⟩ he

end

end Sys2Proof.Machine
end


-- ==== Sys2Proof/Proofs/ChuteEntries.lean ====
section
/-! PROOFS. One chute's entry written: the table, and the event of its new state (R137). -/

namespace Sys2Proof.Machine

/-! ### A chute's entry written -/

/-- The state with chute c's entry replaced. -/
def State.withChute (c : Nat) (e : Chute) (s : State) : State := { s with chutes := s.chutes.set (c - 1) e }

section
variable {s : State} {c : Nat} {f : Chute → Chute}

theorem State.modChute_eq_withChute (h1 : 1 ≤ c) (h2 : c ≤ s.chutes.length) :
    s.modChute c f = s.withChute c (f (s.chute c)) := by
  have hl : c - 1 < s.chutes.length := by omega
  have hmodify : s.chutes.modify (c - 1) f = s.chutes.set (c - 1) (f (s.chute c)) := by
    simp [List.modify_eq_set_getElem?, State.chute, Nat.ne_of_gt h1, List.getD_eq_getElem?_getD, List.getElem?_eq_getElem hl]
  rw [State.modChute, if_neg (Nat.ne_of_gt h1)]
  exact congrArg (fun l => { s with chutes := l }) hmodify

theorem State.withChute_chute (h1 : 1 ≤ c) (h2 : c ≤ s.chutes.length) (e : Chute) : (s.withChute c e).chute c = e := by
  rw [← State.modChute_eq_withChute (f := fun _ => e) h1 h2, State.modChute_same h1 h2]

/-- An entry written whose new state raises nothing (R137). -/
theorem State.account_quiet (h1 : 1 ≤ c) (h2 : c ≤ s.chutes.length)
    (h : chuteEvent (s.chute c).state (f (s.chute c)).state = none) : s.account c f = s.withChute c (f (s.chute c)) := by
  unfold State.account
  dsimp only
  rw [State.modChute_same h1 h2, h]
  exact State.modChute_eq_withChute h1 h2

/-- An entry written whose new state raises an event (R137). -/
theorem State.account_raises (h1 : 1 ≤ c) (h2 : c ≤ s.chutes.length) {k : EventKind}
    (h : chuteEvent (s.chute c).state (f (s.chute c)).state = some k) :
    s.account c f = (s.withChute c (f (s.chute c))).raise k (.chute c) := by
  unfold State.account
  dsimp only
  rw [State.modChute_same h1 h2, h]
  exact congrArg (State.raise k (.chute c)) (State.modChute_eq_withChute h1 h2)

end

/-- Within the capacity, no more places taken than before raise nothing (R137). -/
theorem chuteEvent_of_taken_le {e e' : Chute} {g : ChuteCfg} (hg : e.cfg = some g) (hg' : e'.cfg = some g)
    (hcap : e.taken ≤ g.capacity) (hle : e'.taken ≤ e.taken) : chuteEvent e.state e'.state = none := by
  rw [Chute.state_configured hg, Chute.state_configured hg']
  by_cases hfull : e.taken = g.capacity
  · simp only [hfull, if_true, chuteEvent]
    simp
  · have hroom : e'.taken ≠ g.capacity := by omega
    have hnear : g.near ≤ e'.taken ∧ e'.taken < g.capacity → g.near ≤ e.taken ∧ e.taken < g.capacity := by omega
    rw [if_neg hfull, if_neg hroom]
    by_cases hn : g.near ≤ e'.taken ∧ e'.taken < g.capacity
    · rw [if_pos hn, if_pos (hnear hn)]
      rfl
    · rw [if_neg hn]
      split <;> rfl

end Sys2Proof.Machine
end


-- ==== Sys2Proof/Proofs/BoxExchange.lean ====
section
/-! PROOFS. BOX.EXCHANGED: what the exchange makes of the chute's entry, and its reply (R150, R151). -/

namespace Sys2Proof.Machine

theorem exchanged_off {e : Chute} (h : e.jet = none) (m : Nat) : exchanged m e = { e with fill := 0, oldBox := m } := by
  simp [exchanged, Chute.pulsing, h]

theorem exchanged_pulsing {e : Chute} (h : e.jet ≠ none) (m : Nat) :
    exchanged m e = { e with fill := 1, oldBox := m - 1 } := if_pos ((Chute.pulsing_iff e).mpr h)

theorem removedCount_off {e : Chute} (h : e.jet = none) : removedCount e = e.fill := by
  simp [removedCount, Chute.pulsing, h]

theorem removedCount_pulsing {e : Chute} (h : e.jet ≠ none) : removedCount e = e.fill - 1 :=
  if_pos ((Chute.pulsing_iff e).mpr h)

theorem exchanged_cfg (m : Nat) (e : Chute) : (exchanged m e).cfg = e.cfg := by
  unfold exchanged
  split <;> rfl

/-- The parts travelling were covered by the box and its predecessor, so an exchange takes no place (R150, R153). -/
theorem Chute.Balanced.exchanged_taken_le {e : Chute} {n m : Nat} (h : e.Balanced n m) : (exchanged m e).taken ≤ e.taken := by
  obtain ⟨-, hcover, -, -, hpulse⟩ := h
  unfold exchanged
  split
  · next hp =>
    have h1 := hpulse hp
    simp only [Chute.taken]
    omega
  · simp only [Chute.taken]
    omega

section
variable {s : State} {c : Nat}

theorem State.boxExchanged_bad (h : c = 0 ∨ 20 < c ∨ (s.chute c).cfg = none) : s.boxExchanged c = (.bad 1, s) := by
  refine if_neg fun hok => ?_
  obtain ⟨h1, h20, hcfg⟩ := (s.chuteOk_iff c).mp hok
  rcases h with h | h | h
  · omega
  · omega
  · exact hcfg h

theorem State.boxExchanged_taken (h1 : 1 ≤ c) (h20 : c ≤ 20) (hlen : s.chutes.length = 20) (hcfg : (s.chute c).cfg ≠ none)
    (hinv : ChuteInv s c) {e : Chute} (he : exchanged (s.travelling c) (s.chute c) = e) : s.boxExchanged c =
      (.ok (le 1 c ++ le 2 (removedCount (s.chute c)) ++ le 2 e.fill ++ le 2 e.oldBox), s.withChute c e) := by
  have hc : c ≤ s.chutes.length := hlen.symm ▸ h20
  obtain ⟨g, hg⟩ := Option.ne_none_iff_exists'.mp hcfg
  have ⟨_, _, hcap, _⟩ := hinv
  have hquiet : chuteEvent (s.chute c).state (exchanged (s.travelling c) (s.chute c)).state = none :=
    chuteEvent_of_taken_le hg ((exchanged_cfg _ _).trans hg) (hcap g hg) (Chute.Balanced.exchanged_taken_le hinv)
  rw [State.boxExchanged, if_pos ((s.chuteOk_iff c).mpr ⟨h1, h20, hcfg⟩), State.account_quiet h1 hc hquiet, he]
  dsimp only
  rw [State.withChute_chute h1 hc]

end

theorem exec_boxExchanged (tag : Byte) (c : Nat) (s : State) :
    exec (.boxExchanged tag c) s = .next (s.ask tag (.boxExchanged c) (State.boxExchanged c)).transmit := rfl

/-- Settles O47: an exchange takes no place of the chute, so it raises nothing and answers with its entry alone. -/
theorem boxExchangeTaken : Obligations.BoxExchangeTaken := by
  unfold Obligations.BoxExchangeTaken
  intro tag c s hs
  simp only [exec_boxExchanged]
  refine ⟨fun h => State.ask_read hs tag _ (State.boxExchanged_bad h), fun e h1 h20 hlen hcfg hinv he => ?_⟩
  obtain rfl : e = s.travelling c := he
  refine ⟨fun hoff => ?_, fun hpulse => ?_⟩
  · have hown := State.boxExchanged_taken h1 h20 hlen hcfg hinv (exchanged_off hoff _)
    rw [removedCount_off hoff] at hown
    exact congrArg _ (State.ask_answer hs tag _ hown rfl)
  · have hown := State.boxExchanged_taken h1 h20 hlen hcfg hinv (exchanged_pulsing hpulse _)
    rw [removedCount_pulsing hpulse] at hown
    exact congrArg _ (State.ask_answer hs tag _ hown rfl)

end Sys2Proof.Machine
end


-- ==== Sys2Proof/Proofs/ChuteSet.lean ====
section
/-! PROOFS. CHUTE.SET: its fields in ordinal order, the refusals, the entry configured with its events, and the removal (R136 to
R140, R172). -/

namespace Sys2Proof.Machine

/-! ### The fields of a CONFIGURE in ordinal order (R138, R172) -/

section
variable (f : ChuteFields) (s : State) (c : Nat)

theorem chutePasses_one : chutePasses f s c 1 ↔ 1 ≤ c ∧ c ≤ 20 := by simp [chutePasses]

theorem chutePasses_two : chutePasses f s c 2 := by simp [chutePasses]

theorem chutePasses_three : chutePasses f s c 3 ↔ s.track.decidePos < f.ejectPos ∧ f.ejectPos < s.track.checkPos ∧
    ∀ x g, x ≠ c → 1 ≤ x → x ≤ 20 → (s.chute x).cfg = some g → g.ejectPos ≠ f.ejectPos := by simp [chutePasses]

theorem chutePasses_four : chutePasses f s c 4 ↔ 1 ≤ f.capacity ∧ f.capacity ≤ 65535 := by simp [chutePasses]

theorem chutePasses_five : chutePasses f s c 5 ↔ 1 ≤ f.near ∧ f.near ≤ f.capacity := by simp [chutePasses]

theorem chutePasses_six : chutePasses f s c 6 ↔ f.alternate = 0 ∨
    (1 ≤ f.alternate ∧ f.alternate ≤ 20 ∧ f.alternate ≠ c ∧ (s.chute f.alternate).cfg ≠ none) := by simp [chutePasses]

theorem chutePasses_seven : chutePasses f s c 7 ↔ 1 ≤ f.pulse ∧ f.pulse ≤ 100 := by simp [chutePasses]

theorem State.positionTaken_eq_false_iff (pos : Nat) : s.positionTaken c pos = false ↔
    ∀ x g, x ≠ c → 1 ≤ x → x ≤ 20 → (s.chute x).cfg = some g → g.ejectPos ≠ pos := by
  simp only [State.positionTaken, List.any_eq_false, mem_chuteNumbers, Bool.and_eq_true, bne_iff_ne, Option.any_eq_true,
    beq_iff_eq, not_and, not_exists, and_imp]
  exact ⟨fun h x g hne h1 h20 => h x h1 h20 hne g, fun h x h1 h20 hne g => h x g hne h1 h20⟩

theorem State.alternateOk_iff (a : Nat) : s.alternateOk c a = true ↔
    a = 0 ∨ (1 ≤ a ∧ a ≤ 20 ∧ a ≠ c ∧ (s.chute a).cfg ≠ none) := by
  simp [State.alternateOk, within, State.configured, Option.isSome_iff_ne_none, and_assoc]

/-- The fields of a CONFIGURE, each with its ordinal and its judgement (R138). -/
def chuteConfigureFields : List (Nat × Bool) :=
  [(1, within 1 20 c), (2, within 0 1 0),
    (3, s.track.decidePos < f.ejectPos && f.ejectPos < s.track.checkPos && !s.positionTaken c f.ejectPos),
    (4, within 1 65535 f.capacity), (5, within 1 f.capacity f.near), (6, s.alternateOk c f.alternate),
    (7, within 1 100 f.pulse)]

/-- What each judged field says is what R138 asks of its ordinal. -/
theorem chuteConfigureFields_pass : ∀ e ∈ chuteConfigureFields f s c, e.2 = true ↔ chutePasses f s c e.1 := by
  simp only [chuteConfigureFields, List.forall_mem_cons, List.not_mem_nil, false_implies, implies_true, and_true, chutePasses_one,
    chutePasses_two, chutePasses_three, chutePasses_four, chutePasses_five, chutePasses_six, chutePasses_seven,
    State.alternateOk_iff, ← State.positionTaken_eq_false_iff, within, Bool.and_eq_true, Bool.not_eq_true', decide_eq_true_eq,
    and_assoc, Nat.zero_le]

/-- An ordinal that fails is one of the seven. -/
theorem chuteConfigureFields_of_fails {n : Nat} (h : ¬chutePasses f s c n) : ∃ e ∈ chuteConfigureFields f s c, e.1 = n := by
  have hn : n ∈ (chuteConfigureFields f s c).map Prod.fst := by
    show n ∈ [1, 2, 3, 4, 5, 6, 7]
    by_contra hno
    simp only [List.mem_cons, List.not_mem_nil, or_false, not_or] at hno
    exact h (by simp [chutePasses, hno])
  exact List.mem_map.mp hn

theorem State.chuteSetBad_of_firstFails {n : Nat} (h : firstFails (chutePasses f s c) n) : s.chuteSetBad c 0 f = some n :=
  firstBad_of_firstFails (l := chuteConfigureFields f s c) (by simp [chuteConfigureFields]) (chuteConfigureFields_pass f s c)
    (chuteConfigureFields_of_fails f s c) h

theorem State.chuteSetBad_eq_none (h : ∀ n, chutePasses f s c n) : s.chuteSetBad c 0 f = none :=
  firstBad_eq_none.mpr fun e he => (chuteConfigureFields_pass f s c e he).mpr (h _)

/-- Of a REMOVE the chute alone is judged (R140). -/
theorem State.chuteSetBad_remove : s.chuteSetBad c 1 f = if within 1 20 c then none else some 1 := rfl

end

/-! ### The owner's answer (R136, R139, R140) -/

section
variable {s : State} {c : Nat} {f : ChuteFields}

theorem State.chuteSet_notReady (h : s.track.p = 0) (a : Nat) : s.chuteSet c a f = (.notReady, s) := if_pos h

theorem State.chuteSet_busy (hp : s.track.p ≠ 0) (h : ¬s.line.state.settable = true) (a : Nat) :
    s.chuteSet c a f = (.busy, s) := by
  rw [State.chuteSet, if_neg hp, if_neg h]

theorem State.chuteSet_bad (hp : s.track.p ≠ 0) (h : s.line.state.settable = true) {a n : Nat}
    (hb : s.chuteSetBad c a f = some n) : s.chuteSet c a f = (.bad n, s) := by
  rw [State.chuteSet, if_neg hp, if_pos h, hb]

theorem State.chuteSet_configure (hp : s.track.p ≠ 0) (h : s.line.state.settable = true) (hall : ∀ n, chutePasses f s c n) :
    s.chuteSet c 0 f = s.configureChute c f := by
  rw [State.chuteSet, if_neg hp, if_pos h, State.chuteSetBad_eq_none f s c hall]
  rfl

theorem State.chuteSet_remove (hp : s.track.p ≠ 0) (h : s.line.state.settable = true) (hc : 1 ≤ c ∧ c ≤ 20) :
    s.chuteSet c 1 f = s.removeChute c := by
  have hw : within 1 20 c = true := by simpa [within] using hc
  rw [State.chuteSet, if_neg hp, if_pos h, State.chuteSetBad_remove, if_pos hw]
  rfl

theorem State.configureChute_busy (h : configureBusy f (s.chute c) = true) :
    s.configureChute c f = (⟨.busy, (s.chute c).fields⟩, s) := if_pos h

theorem State.configureChute_taken (h1 : 1 ≤ c) (h2 : c ≤ s.chutes.length) (h : configureBusy f (s.chute c) = false) :
    s.configureChute c f = (.ok (configuredEntry f (s.chute c)).fields, s.account c (configuredEntry f)) := by
  rw [State.configureChute, h]
  dsimp only
  rw [State.chute_congr (s.account_chutes c _), State.modChute_same h1 h2]
  rfl

theorem State.removeChute_unused (h : (s.chute c).cfg = none) : s.removeChute c = (.ok (s.chute c).fields, s) := by
  simp [State.removeChute, State.configured, h]

theorem State.removeChute_busy (h : (s.chute c).cfg ≠ none) (hb : s.removalBarred c) :
    s.removeChute c = (⟨.busy, (s.chute c).fields⟩, s) := by
  rw [State.removeChute, State.configured, if_pos (Option.isSome_iff_ne_none.mpr h), if_pos ((s.removeBusy_iff c).mpr hb)]

/-- A chute removed is UNUSED, which raises nothing (R137, R140). -/
theorem State.removeChute_taken (h1 : 1 ≤ c) (h2 : c ≤ s.chutes.length) (h : (s.chute c).cfg ≠ none) (hb : ¬s.removalBarred c) :
    s.removeChute c = (.ok (s.chute c).cleared.fields, s.withChute c (s.chute c).cleared) := by
  have hquiet : chuteEvent (s.chute c).state (s.chute c).cleared.state = none := rfl
  rw [State.removeChute, State.configured, if_pos (Option.isSome_iff_ne_none.mpr h), if_neg (mt (s.removeBusy_iff c).mp hb),
    State.account_quiet h1 h2 hquiet]
  dsimp only
  rw [State.withChute_chute h1 h2]

end

/-! ### A configured entry and its events (R137, R139) -/

/-- A CONFIGURE's entry: the counts of a chute not configured before are 0. -/
theorem configuredEntry_eq (f : ChuteFields) (e : Chute) : configuredEntry f e = { e with
    cfg := some (cfgOf f)
    fill := if e.cfg = none then 0 else e.fill, inFlight := if e.cfg = none then 0 else e.inFlight
    oldBox := if e.cfg = none then 0 else e.oldBox, jet := if e.cfg = none then none else e.jet } := by
  unfold configuredEntry
  split
  · next h => simp [h]
  · next h => simp [h]

theorem configureBusy_of_overfull {f : ChuteFields} {e : Chute} {g : ChuteCfg} (hg : e.cfg = some g)
    (h : f.capacity < e.fill + e.inFlight + e.oldBox ∨ (f.ejectPos ≠ g.ejectPos ∧ 0 < e.inFlight)) :
    configureBusy f e = true := by
  by_contra hb
  obtain ⟨hcap, hpos⟩ := configureBusy_eq_false_iff.mp (Bool.eq_false_of_not_eq_true hb) g hg
  simp only [Chute.taken] at hcap
  omega

theorem chuteEvent_full {x y : ChuteState} (hy : y = .full) (hx : x ≠ .full) : chuteEvent x y = some .chuteFull :=
  if_pos ⟨hy, hx⟩

theorem chuteEvent_near {x y : ChuteState} (hy : y = .near) (hx : x = .opened ∨ x = .unused) :
    chuteEvent x y = some .chuteNear := by
  subst hy
  rcases hx with rfl | rfl <;> rfl

theorem chuteEvent_none {x y : ChuteState} (h : y = .opened ∨ y = x ∨ (y = .near ∧ x = .full)) : chuteEvent x y = none := by
  rcases h with rfl | rfl | ⟨rfl, rfl⟩
  · cases x <;> rfl
  · cases y <;> rfl
  · rfl

theorem State.place_keepsEvent (s : State) (f : Frame) (k : EventKind) : KeepsEvent k s (s.place f) := ⟨rfl, rfl, rfl, rfl⟩

/-- An owner that writes one chute's entry: the table, the reply, and the event of the entry's new state, if any. -/
theorem State.account_answered {s : State} {c : Nat} {f : Chute → Chute} {o : State → Answer × State} {fields : List Byte}
    {e : Chute} (h : s.taking) (h1 : 1 ≤ c) (h2 : c ≤ s.chutes.length) (tag : Byte) (r : Request)
    (ho : o s = (.ok fields, s.account c f)) (he : f (s.chute c) = e) :
    ∃ t, (s.ask tag r o).transmit = t ∧ t.chutes = s.chutes.set (c - 1) e ∧
      t.answered (replyFrame r.typeCode tag .ok fields) ∧
      (e.state = .full → (s.chute c).state ≠ .full → s.notes t .chuteFull (.chute c)) ∧
      (e.state = .near → (s.chute c).state = .opened ∨ (s.chute c).state = .unused → s.notes t .chuteNear (.chute c)) ∧
      (e.state = .opened ∨ e.state = (s.chute c).state ∨ (e.state = .near ∧ (s.chute c).state = .full) →
        t = (s.withChute c e).replied (replyFrame r.typeCode tag .ok fields)) := by
  subst he
  have hplaces := State.ask_places h tag r ho
  have noted {k : EventKind} (hk : chuteEvent (s.chute c).state (f (s.chute c)).state = some k) :
      s.notes (s.ask tag r o).transmit k (.chute c) := by
    have hstored : KeepsEvent k s (s.withChute c (f (s.chute c))) := ⟨rfl, rfl, rfl, rfl⟩
    rw [hplaces, State.account_raises h1 h2 hk]
    exact State.notes_of_raise hstored rfl (State.place_keepsEvent _ _ k)
  refine ⟨_, rfl, ?_, by rw [hplaces]; exact State.place_answered _ _, fun hy hx => noted (chuteEvent_full hy hx),
    fun hy hx => noted (chuteEvent_near hy hx), fun hq => ?_⟩
  · rw [hplaces, State.place_transmit_only _ _ .chutes (by decide), State.account_chutes, State.modChute_eq_withChute h1 h2]
    rfl
  · rw [State.account_quiet h1 h2 (chuteEvent_none hq)] at ho
    exact State.ask_answer h tag r ho rfl

theorem exec_chuteConfigure (tag : Byte) (c : Nat) (f : ChuteFields) (s : State) :
    exec (.chuteConfigure tag c f) s = .next (s.ask tag (.chuteSet c 0 f) (State.chuteSet c 0 f)).transmit := rfl

theorem exec_chuteRemove (tag : Byte) (c : Nat) (s : State) : exec (.chuteRemove tag c) s =
    .next (s.ask tag (.chuteSet c 1 ⟨0, 0, 0, 0, 0⟩) (State.chuteSet c 1 ⟨0, 0, 0, 0, 0⟩)).transmit := rfl

/-- Settles O44: each refusal, the configured entry with the event of its new state, and the removal give the owner's answer. -/
theorem chuteSetTaken : Obligations.ChuteSetTaken := by
  unfold Obligations.ChuteSetTaken
  intro tag c f s hs
  simp only [exec_chuteConfigure, exec_chuteRemove]
  refine ⟨fun hp => ?_, fun hp hidle hstop => ?_, fun hp hstate => ?_⟩
  · exact ⟨State.ask_read hs tag _ (State.chuteSet_notReady hp 0), State.ask_read hs tag _ (State.chuteSet_notReady hp 1)⟩
  · have hbusy : ¬s.line.state.settable = true := by
      rw [LineState.settable_iff, not_or]; exact ⟨hidle, hstop⟩
    exact ⟨State.ask_read hs tag _ (State.chuteSet_busy hp hbusy 0), State.ask_read hs tag _ (State.chuteSet_busy hp hbusy 1)⟩
  have hset := (LineState.settable_iff _).mpr hstate
  refine ⟨fun hc => ?_, fun n hn => ?_, fun hlen hall old e hold he => ?_, fun h1 h20 hlen => ?_⟩
  · have hw : ¬within 1 20 c = true := by simp only [within, Bool.and_eq_true, decide_eq_true_eq]; omega
    exact State.ask_read hs tag _ (State.chuteSet_bad hp hset ((State.chuteSetBad_remove _ s c).trans (if_neg hw)))
  · exact State.ask_read hs tag _ (State.chuteSet_bad hp hset (State.chuteSetBad_of_firstFails f s c hn))
  · subst hold
    obtain ⟨h1, h20⟩ := (chutePasses_one f s c).mp (hall 1)
    have hown := State.chuteSet_configure hp hset hall
    refine ⟨fun g hg hover => ?_, fun hroom => ?_⟩
    · exact State.ask_read hs tag _ (hown.trans (State.configureChute_busy (configureBusy_of_overfull hg hover)))
    · have hentry : configuredEntry f (s.chute c) = e := (configuredEntry_eq f _).trans he.symm
      have htaken := hown.trans (State.configureChute_taken h1 (hlen.symm ▸ h20) (configureBusy_eq_false_iff.mpr hroom))
      rw [hentry] at htaken
      obtain ⟨t, ht, hrest⟩ := State.account_answered hs h1 (hlen.symm ▸ h20) tag (.chuteSet c 0 f) htaken hentry
      exact ⟨t, congrArg _ ht, hrest⟩
  · have hown {a : Answer × State} (h : s.removeChute c = a) : s.chuteSet c 1 ⟨0, 0, 0, 0, 0⟩ = a :=
      (State.chuteSet_remove hp hset ⟨h1, h20⟩).trans h
    refine ⟨fun hnone => State.ask_read hs tag _ (hown (State.removeChute_unused hnone)), fun hcfg =>
      ⟨fun hb => State.ask_read hs tag _ (hown (State.removeChute_busy hcfg hb)), fun hb e he => ?_⟩⟩
    subst he
    exact congrArg _ (State.ask_answer hs tag _ (hown (State.removeChute_taken h1 (hlen.symm ▸ h20) hcfg hb)) rfl)

end Sys2Proof.Machine
end
